-- ==== Sys2Proof/Word.lean ====
section
/-!
DEFINITION. The word types of the PV8 module and the sparse table type.

Bit vectors stand for what the manual treats as bits (register contents, addresses' fields, encoded slots); counts, cycles and
indices are natural numbers.
-/

namespace Sys2Proof

/-- One byte. -/
abbrev Byte := BitVec 8

/-- An FP32 pattern or a 32-bit register (R66). -/
abbrev Word := BitVec 32

/-- A 64-bit register or bundle slot (R129). -/
abbrev DWord := BitVec 64

/-- A 256-byte line of tile memory or DRAM, byte 0 in the lowest bits (R35, R510). -/
abbrev Line := BitVec 2048

/-- Sparse data by index: pairs in one canonical form, keys strictly rising, no pair equal to what an unlisted key reads as. -/
abbrev Table (α : Type) := List (Nat × α)

/-- A byte memory: an unlisted address reads as zero. -/
abbrev Mem := Table Byte

end Sys2Proof
end

