-- ==== Sys2Proof/Syntax.lean ====
section
/-!
DEFINITION. The commands of the PV8 block: one constructor of `Instr` per row of spec/opcode_table.json.

Operands: a host command carries its packet header (R383) and the payload fields of its opcode table in order, as its ring holds them; a bundle slot
carries the physical core, the core cycle of its issue and the raw 64-bit slot (R129 to R142); a stage event carries its company
and stage cycle; a frame carries the fields of R179 or R180; a measurement carries the measured value.
-/

namespace Sys2Proof

/-- The header entry of a command packet (R383), beside the absolute index of the command queue that held it. -/
structure Pkt where
  /-- absolute index of the command queue -/
  queue : Nat
  /-- FLAGS: bit 0 QUIET -/
  flags : BitVec 16
  /-- COMPANY byte of the header -/
  company : Nat
  /-- the reserved bytes 0x05 and 0x10 to 0x3F of the header, as one number -/
  reserved : Nat
  /-- LENGTH: payload bytes -/
  length : Nat
  tag : Word
  txn : Word
deriving DecidableEq, Repr

/-- Which line of its plan a LINE frame carries. Every module's image fixes it for each send cycle (R167, R215, R218), so a frame does not
bear it: the chunk; for a sum the axis in AXES order and whether the line is sent on, for a permute the links crossed; the line. -/
structure LinePlace where
  chunk : Nat
  stage : Nat
  back : Bool
  line : Nat
deriving DecidableEq, Repr

/-- How a restore ends (R297). -/
inductive RestoreEnd where
  /-- every line has been written; the other end's CRC-32 of all lines, and the header of the sender's committed bank (R297, R298) -/
  | ok (header : List Byte) (crc : Word)
  /-- LINES of the two ends differ -/
  | linesDiffer
  | frameLost
  | crcMismatch
  | portLost
deriving DecidableEq, Repr

/-- What the scheduled controller does in one command slot (R150, R515). -/
inductive DramCmd where
  | activate (bank row : Nat)
  | precharge (bank : Nat)
  /-- the next 64-byte access of the current line of a fly engine (R148) -/
  | flyAccess (engine : Nat)
  /-- the oldest posted curtain write of a company: header or digest vector (R258) -/
  | postedWrite (company : Nat)
  /-- a read access, or a write access, of the update or the collective engine at this address (R207, R252) -/
  | engineRead (addr : Nat)
  | engineWrite (addr : Nat)
deriving DecidableEq, Repr

/-- Outcome of a boot phase (R468, R469). -/
inductive BootEnd where
  /-- the phase ended, having found these units bad: kind as in RPR_MARK, physical index or channel, address -/
  | ok (found : List (Nat × Nat × Nat))
  /-- a failure with no spare: FAILED_UNIT of R491 and its physical index or channel -/
  | failed (unit : BitVec 8) (index : Nat)
deriving DecidableEq, Repr

/-- Who asks for a wings access (R17, R153): a host function through BAR2, a ring in DRAM, a company's stream, a DMA queue, a company's FAR
unit, or the stage manager that stages an image. -/
inductive WingsMaster where
  | bar2 (function : Nat)
  | ring (queue : Nat)
  | snapshot (company : Nat)
  | dma (queue : Nat)
  | far (company : Nat)
  | firmware
deriving DecidableEq, Repr

/-- One wings access of 64 bytes (R153): its DRAM address, and the bytes when it writes. -/
structure WingsReq where
  master : WingsMaster
  addr : Nat
  data : Option (BitVec 512)
deriving DecidableEq, Repr

/-- The commands of the block, in the order of spec/opcode_table.json. -/
inductive Instr where
  | scriptLoad (h : Pkt) (addr : BitVec 48) (length : DWord)
  | scriptStart (h : Pkt) (epoch : DWord) (startStep : BitVec 48) (startAttempt : BitVec 16)
  | scriptStop (h : Pkt) (immediate : Bool)
  | rmonSetScale (h : Pkt) (unit : Bool) (index : BitVec 10) (slot : BitVec 6) (scaleExp : BitVec 8)
  | torRepoint (h : Pkt) (port : BitVec 3) (serial : DWord) (coord : Word) (timeoutMs : BitVec 16)
  | repointTimeout (port : BitVec 3)
  | torLaneSwap (h : Pkt) (port : BitVec 3) (lane : BitVec 4)
  | torPortDisable (h : Pkt) (port : BitVec 3) (disable : Bool)
  | colReshard (h : Pkt) (planAddr : BitVec 48) (planBytes : Word) (phaseEpochs : BitVec 8) (ctrIndex : BitVec 13)
      (ctrGen : BitVec 8)
  | updSetConst (h : Pkt) (program : BitVec 4) (index : BitVec 4) (value : Word)
  | pakSnapSet (h : Pkt) (enable : Bool) (every : BitVec 16) (listAddr : BitVec 48) (dest : BitVec 2) (queue : BitVec 13)
      (queueGen : BitVec 8) (cipher : BitVec 9) (pack : Bool) (width : BitVec 2)
  | rprAdopt (h : Pkt) (island : Word) (coord : Word) (failedSerial : DWord)
  | rprRestoreSend (h : Pkt) (company : BitVec 4) (port : BitVec 3) (source : Bool) (bank : Bool) (listAddr : BitVec 48)
  | rprRestoreRecv (h : Pkt) (company : BitVec 4) (port : BitVec 3) (target : Bool) (bank : Bool) (listAddr : BitVec 48)
      (timeoutMs : BitVec 16)
  | restoreComplete (port : BitVec 3) (outcome : RestoreEnd)
  | restoreTimeout (port : BitVec 3)
  | rprRollForward (h : Pkt) (company : BitVec 4) (tailAddr : BitVec 48)
  | farRun (h : Pkt) (tableAddr : BitVec 48) (tableBytes : Word) (enable : Bool)
  | farAnchorExport (h : Pkt) (company : BitVec 4) (queue : BitVec 13) (queueGen : BitVec 8) (listAddr : BitVec 48)
  | farJoin (h : Pkt) (company : BitVec 4) (round : BitVec 40)
  | farPortSet (h : Pkt) (port : Bool) (address : BitVec 128) (snapPeer : BitVec 128) (snapUdp : BitVec 16)
  | cipKeyUnwrap (h : Pkt) (slot : BitVec 6) (blobAddr : BitVec 48)
  | cipKeyClear (h : Pkt) (slot : BitVec 6)
  | cipChanSet (h : Pkt) (channel : BitVec 8) (unbind : Bool) (slot : BitVec 6) (nonce : Bool) (fixed : Word)
  | txnBegin (h : Pkt) (mode : Bool) (timeoutS : BitVec 10)
  | txnCommit (h : Pkt) (step : BitVec 48) (ctrIndex : BitVec 13) (ctrGen : BitVec 8)
  | txnAbort (h : Pkt)
  | txnTimeout (company : Nat)
  | coCreate (h : Pkt) (company : BitVec 4) (function : BitVec 5)
  | coDestroy (h : Pkt) (company : BitVec 4)
  | coGrant (h : Pkt) (company : BitVec 4) (kind : BitVec 4) (first : Word) (count : Word) (extra : DWord)
  | coReturn (h : Pkt) (company : BitVec 4) (kind : BitVec 4) (port : BitVec 3)
  | coRelease (h : Pkt) (master : BitVec 2) (id : BitVec 16)
  | smInfo (h : Pkt)
  | smTelemetry (h : Pkt) (queue : BitVec 13) (queueGen : BitVec 8) (periodMs : BitVec 10)
  | smFwStage (h : Pkt) (imageAddr : BitVec 48) (length : Word)
  | smFwSwitch (h : Pkt)
  | smFwFallback
  | smReset (h : Pkt)
  | smLockstepMismatch (pairF : Bool)
  | smWatchdogExpiry (pairF : Bool)
  | smRestartReady
  | smRemoval (h : Pkt) (grant : Bool)
  | errInject (h : Pkt) (source : BitVec 16) (cls : BitVec 2) (code : BitVec 16) (company : BitVec 4)
  | pwrCapSet (h : Pkt) (capW : BitVec 12)
  | pwrFixedOp (h : Pkt) (op : BitVec 3)
  | pwrNvSet (h : Pkt) (ageing : Bool)
  | rprMark (h : Pkt) (phys : BitVec 10) (kind : BitVec 2) (addr : Word)
  | rprPolicy (h : Pkt) (threshold : BitVec 8) (window : BitVec 16)
  | islCallSheet (h : Pkt) (sheetAddr : BitVec 48) (sheetBytes : Word)
  | islOverride (h : Pkt) (port : BitVec 3) (set : Bool)
  | islRoot (h : Pkt)
  /-- `host`: what the host has written into its own memory before it rings, by address, 64 bytes each (R379) -/
  | doorbell (function : Nat) (n : Nat) (value : Word) (host : List (Nat × BitVec 512))
  | queueEnable (function : Nat) (n : Nat) (value : DWord)
  | queueDisable (function : Nat) (n : Nat) (value : DWord)
  | synCtrAdd (function : Nat) (n : Nat) (value : DWord)
  | synCtrReset (function : Nat) (n : Nat) (value : DWord)
  | watchArm (function : Nat) (n : Nat) (value : DWord)
  | watchDisarm (function : Nat) (n : Nat) (value : DWord)
  | cipKeyWrite (function : Nat) (value : Word)
  | sealedModeEnter (function : Nat)
  | openModeLock (function : Nat)
  | errFatalOccClear (function : Nat) (value : DWord)
  | coreResidueRowsRead (function : Nat) (window : Nat)
  | errDropsRead (function : Nat)
  | registerWrite (function : Nat) (offset : Nat) (wide : Bool) (value : DWord)
  | functionLevelReset (function : Nat)
  | vfEnable
  | perstAssert
  | perstRelease
  | dmaHostToDram (queue : Nat) (descriptor : BitVec 512)
  | dmaDramToHost (queue : Nat) (descriptor : BitVec 512)
  | dmaComplete (queue : Nat)
  | hostCplTimeout (function : Nat) (slot : Nat)
  | hostLateCpl (function : Nat) (slot : Nat)
  | readSlotQuarantineEnd (slot : Nat)
  | streamProgress (queue : Nat) (ended : Bool)
  | syncIncrementApply
  | run (core : Nat) (cycle : Nat) (slot : DWord)
  | drain (core : Nat) (cycle : Nat) (slot : DWord)
  | vadd (core : Nat) (cycle : Nat) (slot : DWord)
  | vsub (core : Nat) (cycle : Nat) (slot : DWord)
  | vmul (core : Nat) (cycle : Nat) (slot : DWord)
  | vfma (core : Nat) (cycle : Nat) (slot : DWord)
  | vmax (core : Nat) (cycle : Nat) (slot : DWord)
  | vmin (core : Nat) (cycle : Nat) (slot : DWord)
  | vabs (core : Nat) (cycle : Nat) (slot : DWord)
  | vneg (core : Nat) (cycle : Nat) (slot : DWord)
  | vcmp (core : Nat) (cycle : Nat) (slot : DWord)
  | vsel (core : Nat) (cycle : Nat) (slot : DWord)
  | vbcast (core : Nat) (cycle : Nat) (slot : DWord)
  | vfnRegister (core : Nat) (cycle : Nat) (slot : DWord)
  | vagenDesc (core : Nat) (cycle : Nat) (slot : DWord)
  | vwiden (core : Nat) (cycle : Nat) (slot : DWord)
  | vcast (core : Nat) (cycle : Nat) (slot : DWord)
  | vrowstat (core : Nat) (cycle : Nat) (slot : DWord)
  | vfnRow (core : Nat) (cycle : Nat) (slot : DWord)
  | vsmmax (core : Nat) (cycle : Nat) (slot : DWord)
  | vsmexp (core : Nat) (cycle : Nat) (slot : DWord)
  | vsmnorm (core : Nat) (cycle : Nat) (slot : DWord)
  | vagenTable (core : Nat) (cycle : Nat) (slot : DWord)
  | vld (core : Nat) (cycle : Nat) (slot : DWord)
  | vst (core : Nat) (cycle : Nat) (slot : DWord)
  | send (core : Nat) (cycle : Nat) (slot : DWord)
  | loop (core : Nat) (cycle : Nat) (slot : DWord)
  | msetld (core : Nat) (cycle : Nat) (slot : DWord)
  | cdld (core : Nat) (cycle : Nat) (slot : DWord)
  | sinc (core : Nat) (cycle : Nat) (slot : DWord)
  | partend (core : Nat) (cycle : Nat) (slot : DWord)
  /-- `position`: 0 control, 1 move, 2 vector, 3 matrix (R129) -/
  | nop (core : Nat) (cycle : Nat) (position : BitVec 2) (slot : DWord)
  | stepBoundary (company : Nat)
  | epochBoundary (company : Nat)
  | barrierResume (company : Nat) (waitNs : Nat)
  | markerSend (company : Nat) (port : BitVec 3)
  | markerReceive (company : Nat) (port : BitVec 3) (epoch : Word)
  | holdEnter (company : Nat)
  | releaseReceive (company : Nat) (port : BitVec 3) (entry : BitVec 12) (step : BitVec 16)
  | holdResume (company : Nat) (heldNs : Nat) (guardNs : Nat)
  | holdLong (company : Nat)
  | curtainPost (company : Nat)
  | rmonReportLanded (company : Nat)
  | recastPhaseStart (company : Nat)
  | reshardPhaseEnd (company : Nat)
  | dramStageAccess (channel : Nat) (slot : Nat) (cmd : DramCmd)
  | dramRefresh (channel : Nat) (slot : Nat)
  | extraRefresh (channel : Nat) (elapsed : Nat)
  /-- `stageSoon`: a stage command to the bank falls within the next 32 slots (R153) -/
  | wingsAccess (channel : Nat) (slot : Nat) (req : WingsReq) (stageSoon : Bool)
  | flyCommandStart (engine : Nat)
  | meshLineArrival (core : Nat) (cycle : Nat)
  | collectiveChunkStart (company : Nat) (plan : BitVec 16)
  | torusLineSend (company : Nat) (port : BitVec 3) (cycle : Nat)
  | torusLineReceive (company : Nat) (port : BitVec 3) (plan : BitVec 16) (seq : BitVec 16) (sendCycle : BitVec 16)
      (payload : Line) (crc : Word) (place : LinePlace)
  | torusLineHandover (company : Nat) (port : BitVec 3) (cycle : Nat)
  | curtainTailDelivered (company : Nat)
  | collectiveChunkDone (company : Nat) (plan : BitVec 16)
  | updShardStart (engine : Nat)
  | updGradientLine (engine : Nat)
  | updLineEnter (engine : Nat)
  | updElementExit (engine : Nat)
  | formPass (company : Nat)
  | formDone (company : Nat)
  | sealComplete (company : Nat)
  | cfxParcelReceive (farPort : Bool) (company : Nat) (datagram : List Byte)
  | cfxAckReceive (farPort : Bool) (company : Nat) (datagram : List Byte)
  | cfxDecideReceive (farPort : Bool) (company : Nat) (datagram : List Byte)
  | cfxSnapReceive (farPort : Bool) (company : Nat) (datagram : List Byte)
  | cfxAckTimer (company : Nat)
  | cfxRetransmit (company : Nat) (site : Nat) (segment : Nat)
  | cfxHardExpiry (company : Nat)
  | farDecision (company : Nat)
  | gatewayDecided (company : Nat)
  | gatewayUndecided (company : Nat)
  | openComplete (company : Nat)
  | applyPass (company : Nat)
  | snapshotBlock (company : Nat)
  | snapshotReadsDone (company : Nat)
  | snapshotStreamEnd (company : Nat)
  | cipherMessageStart (channel : Nat)
  | cipherSliceEnd
  | cipherTagReady (channel : Nat)
  | portLightDetected (port : BitVec 3)
  | portLightLoss (port : BitVec 3)
  | portTrainingDone (port : BitVec 3) (ok : Bool)
  | identityReceive (port : BitVec 3) (serial : DWord) (island : Word) (coord : Word) (nport : BitVec 4)
  | identitySend (port : BitVec 3)
  /-- the 64 exchanges: round trip, and turnaround time that the neighbour's ECHO reports, in 0.1 ns (R184) -/
  | latencyMeasured (port : BitVec 3) (exchanges : List (Nat × Nat))
  /-- `state` of R198; `childBit`: the frame marks this port's module as the sender's parent (R479) -/
  | lockFrameReceive (port : BitVec 3) (state : BitVec 3) (hops : BitVec 8) (childBit : Bool)
  | relockDone
  | lockHoldover
  /-- stage-clock periods since the last house boundary (R187) -/
  | houseFrameSend (period : Nat)
  | houseFrameReceive (port : BitVec 3) (epoch : DWord) (minimum : BitVec 3)
  | houseEpochBoundary
  | laneSignalLoss (port : BitVec 3) (lane : BitVec 5)
  /-- corrected codewords and codewords seen over 1 s on the lane -/
  | laneRateCheck (port : BitVec 3) (lane : BitVec 5) (corrected : Nat) (codewords : Nat)
  | laneSwapStart (port : BitVec 3)
  | aprEnter (port : BitVec 3)
  | aprPulse (port : BitVec 3)
  | censusRoundStart
  | censusStartReceive (port : BitVec 3) (round : Nat) (revision : Word)
  | censusSumReceive (port : BitVec 3) (members : Nat) (ready : Nat) (disagree : Nat)
  | censusResultReceive (port : BitVec 3) (revision : Word) (ready : Nat) (disagree : Nat)
  | censusRoundAbandon
  | errorRecord
  | errorGroupClose
  /-- mean module power over the period in mW -/
  | telemetryTick (company : Nat) (meanMw : Word)
  /-- busy share of pair M over the last 10 ms, in percent, and the mean service time in ns over the same 10 ms -/
  | decimationUpdate (busy : BitVec 8) (serviceNs : Nat)
  /-- raw estimate in W, and the energy of this microsecond that companies 1 to 15 receive, in uJ -/
  | powerEstimateTick (rawW : Nat) (energy : List (Nat × Nat))
  | powerMeasureTick (inputW : BitVec 16) (railW : BitVec 16) (rawMeanW : Nat)
  /-- hottest die reading (0.125 degC), its sensor, hottest DRAM stack reading (degC), its stack -/
  | thermalSample (die : Int) (sensor : BitVec 8) (dram : Int) (stack : Nat)
  /-- true at the end of 1 ms above the limit, false at the end of 100 ms well below it -/
  | thermalCeilingTick (above : Bool)
  | droopEvent (cycles : Nat)
  /-- the measured slack is above the fused threshold -/
  | railTrimTick (slackAbove : Bool)
  | vinBandChange (millivolts : BitVec 16)
  | pwrInputLoss (millivolts : BitVec 16) (microseconds : Nat)
  | powerGood
  | selftestDone (result : BootEnd)
  | repairApplicationDone (result : BootEnd)
  | firmwareReady (imageBoots : Bool)
  | moduleReset
  | repairDone (company : Nat)
  | understudyRetest (dieE : Bool) (failed : Option Nat)
  | attnShortPress
  | attnLongPress
  | mailboxFrame (kind : BitVec 8) (payload : List Byte) (crc : Word)
  | prompterHelp
  | prompterId
  | prompterStatus
  | prompterLog (n : Option Nat)
  | prompterFatal
  | prompterPorts
  | prompterLocate (on : Bool)
  | prompterBaud (n : Nat)
  | prompterSmreset
  | prompterPeek (offset : Nat)
  | smbusStatusRead
  | smbusTempRead
  | smbusPowerRead
  | smbusSerialRead
  | smbusLocateWrite (value : Byte)
  | smbusAlertResponse
  | smbusBusTimeout
  | commandBadOpcode (h : Pkt) (opcode : BitVec 16)
  | farPortDown (port : Bool)
  | farPortLinkUp (port : Bool)
  /-- this end's turnaround time in 0.1 ns (R184) -/
  | probeReceive (port : BitVec 3) (turnaround : Nat)
  | swapHandshakeReceive (port : BitVec 3) (lane : BitVec 5)
  | currentLimitTrip
  | fwStageComplete
  | serviceSideReset
  | svc3v3Loss
  | jtagAccess (tck : Bool) (tms : Bool) (tdi : Bool) (trstN : Bool)
deriving DecidableEq, Repr

end Sys2Proof
end

