-- ==== Sys2Proof/Machine/Table.lean ====
section
/-!
DEFINITION. Sparse tables and byte memories: one canonical form (keys strictly rising, no entry equal to what an unlisted key
reads as), so that equal contents are equal data.
-/

namespace Sys2Proof.Machine

variable {α : Type}

/-- What key `k` reads as; `d` where it is not listed. -/
def tget (d : α) : Table α → Nat → α
  | [], _ => d
  | (k', v) :: t, k => if k' = k then v else tget d t k

/-- Removes key `k`. -/
def tdel : Table α → Nat → Table α
  | [], _ => []
  | (k', v) :: t, k => if k' = k then tdel t k else (k', v) :: tdel t k

/-- Puts `v` at `k`, keeping the keys rising. -/
def tput : Table α → Nat → α → Table α
  | [], k, v => [(k, v)]
  | (k', v') :: t, k, v =>
    if k < k' then (k, v) :: (k', v') :: t else if k' = k then (k, v) :: t else (k', v') :: tput t k v

/-- Writes `v` at `k`; writing what an unlisted key reads as removes the entry. -/
def tset [DecidableEq α] (d : α) (t : Table α) (k : Nat) (v : α) : Table α :=
  if v = d then tdel t k else tput t k v

/-- Applies `f` at `k`. -/
def tmod [DecidableEq α] (d : α) (t : Table α) (k : Nat) (f : α → α) : Table α :=
  tset d t k (f (tget d t k))

/-- Keys above `lo`, strictly rising, and no entry equal to `d`. -/
def twfFrom [DecidableEq α] (d : α) : Nat → Table α → Bool
  | _, [] => true
  | lo, (k, v) :: t => decide (lo ≤ k) && decide (v ≠ d) && twfFrom d (k + 1) t

/-- The canonical form. -/
def twf [DecidableEq α] (d : α) (t : Table α) : Bool := twfFrom d 0 t

/-- The byte at an address. -/
def mbyte (m : Mem) (a : Nat) : Byte := tget 0 m a

/-- Stores one byte. -/
def mstore (m : Mem) (a : Nat) (b : Byte) : Mem := tset 0 m a b

/-- The canonical form of a memory. -/
def Memory.wf (m : Mem) : Bool := twf (0 : Byte) m

/-- `n` bytes from `a` upward. -/
def mread (m : Mem) (a : Nat) : Nat → List Byte
  | 0 => []
  | n + 1 => mbyte m a :: mread m (a + 1) n

/-- Stores bytes from `a` upward. -/
def mwrite (m : Mem) (a : Nat) : List Byte → Mem
  | [] => m
  | b :: bs => mwrite (mstore m a b) (a + 1) bs

/-- Bytes as one number, first byte lowest (R510). -/
def leNat : List Byte → Nat
  | [] => 0
  | b :: bs => b.toNat + 256 * leNat bs

/-- The `n` low bytes of a number, lowest first (R510). -/
def leBytes : Nat → Nat → List Byte
  | 0, _ => []
  | n + 1, v => BitVec.ofNat 8 v :: leBytes n (v / 256)

/-- Bytes as one number, first byte highest. -/
def beNat (bs : List Byte) : Nat := bs.foldl (fun a b => a * 256 + b.toNat) 0

/-- The `n` low bytes of a number, highest first. -/
def beBytes (n v : Nat) : List Byte := (leBytes n v).reverse

/-- An `n`-byte little-endian field (R510). -/
def mnat (m : Mem) (a n : Nat) : Nat := leNat (mread m a n)

/-- A 256-byte line (R35). -/
def mline (m : Mem) (a : Nat) : Line := BitVec.ofNat 2048 (mnat m a 256)

/-- Bits `hi` to `lo` of a word, as the manual writes [hi:lo]. -/
def bits {n : Nat} (w : BitVec n) (hi lo : Nat) : Nat := (w.extractLsb' lo (hi + 1 - lo)).toNat

/-- One bit. -/
def bit {n : Nat} (w : BitVec n) (i : Nat) : Bool := w.getLsbD i

/-- Bits `hi` to `lo` of a number. -/
def nbits (v hi lo : Nat) : Nat := v / 2 ^ lo % 2 ^ (hi + 1 - lo)

/-- A field of a register image: `v` at bit `lo`. -/
def fld (lo : Nat) (v : Nat) : Nat := v * 2 ^ lo

/-- A flag as a number. -/
def b2n (b : Bool) : Nat := if b then 1 else 0

/-- Two's complement value of the low `n` bits. -/
def sext (n v : Nat) : Int := if v % 2 ^ n < 2 ^ (n - 1) then (v % 2 ^ n : Nat) else (v % 2 ^ n : Nat) - (2 ^ n : Nat)

/-- Saturating increment of a counter of width `n`. -/
def satAdd {n : Nat} (c : BitVec n) (k : Nat) : BitVec n :=
  if c.toNat + k < 2 ^ n then BitVec.ofNat n (c.toNat + k) else BitVec.allOnes n

/-- Division rounding up. -/
def cdiv (a b : Nat) : Nat := (a + b - 1) / b

/-- `f` applied to 0, 1, … n − 1 in order. -/
def iter {β : Type} (n : Nat) (f : Nat → β → β) (b : β) : β :=
  (List.range n).foldl (fun b i => f i b) b

/-- Replaces the element at an index of a list. -/
def lset (l : List α) (i : Nat) (v : α) : List α := l.set i v

/-- ASCII bytes of a literal. -/
def ascii (s : String) : List Byte := s.toList.map (fun c => BitVec.ofNat 8 c.toNat)

end Sys2Proof.Machine
end

