-- ==== Sys2Proof/Machine/Crypto.lean ====
section
/-!
DEFINITION. The standard algorithms the manual names: SHA-256 (R119, R472), CRC-32 and CRC-32C (R179, R280, R321), AES-256 with
GCM, KW, CMAC and the counter-mode KDF (R343, R355). Constants are packed in one number, item i at bit (width × i).
-/

namespace Sys2Proof.Machine

/-- Round constants and initial state of SHA-256. -/
def shaK : Nat := 0xc67178f2bef9a3f7a4506ceb90befffa8cc7020884c8781478a5636f748f82ee682e6ff35b9cca4f4ed8aa4a391c0cb334b0bcb52748774c1e376c0819a4c116106aa070f40e3585d6990624d192e819c76c51a3c24b8b70a81a664ba2bfe8a192722c8581c2c92e766a0abb650a735453380d134d2c6dfc2e1b213827b70a851429296706ca6351d5a79147c6e00bf3bf597fc7b00327c8a831c66d983e515276f988da5cb0a9dc4a7484aa2de92c6f240ca1cc0fc19dc6efbe4786e49b69c1c19bf1749bdc06a780deb1fe72be5d74550c7dc3243185be12835b01d807aa98ab1c5ed5923f82a459f111f13956c25be9b5dba5b5c0fbcf71374491428a2f98

def shaH : Nat := 0x5be0cd191f83d9ab9b05688c510e527fa54ff53a3c6ef372bb67ae856a09e667

/-- AES S-box and its inverse. -/
def aesS : Nat := 0x16bb54b00f2d99416842e6bf0d89a18cdf2855cee9871e9b948ed9691198f8e19e1dc186b95735610ef6034866b53e708a8bbd4b1f74dde8c6b4a61c2e2578ba08ae7a65eaf4566ca94ed58d6d37c8e779e4959162acd3c25c2406490a3a32e0db0b5ede14b8ee4688902a22dc4f816073195d643d7ea7c41744975fec130ccdd2f3ff1021dab6bcf5389d928f40a351a89f3c507f02f94585334d43fbaaefd0cf584c4a39becb6a5bb1fc20ed00d153842fe329b3d63b52a05a6e1b1a2c830975b227ebe28012079a059618c323c7041531d871f1e5a534ccf73f362693fdb7c072a49cafa2d4adf04759fa7dc982ca76abd7fe2b670130c56f6bf27b777c63

def aesSi : Nat := 0x7d0c2155631469e126d677ba7e042b17619953833cbbebc8b0f52aae4d3be0a0ef9cc9939f7ae52d0d4ab519a97f51605fec8027591012b131c7078833a8dd1ff45acd78fec0db9a2079d2c64b3e56fc1bbe18aa0e62b76f89c5291d711af1476edf751ce837f9e28535ade72274ac9673e6b4f0cecff297eadc674f4111913a6b8a130103bdafc1020f3fca8f1e2cd00645b3b80558e4f70ad3bc8c00abd890849d8da75746155edab9edfd5048706c92b6655dcc5ca4d41698688664f6f87225d18b6d49a25b76b224d92866a12e084ec3fa420b954cee3d23c2a632947b54cbe9dec444438e3487ff2f9b8239e37cfbd7f3819ea340bf38a53630d56a0952

/-- Item `i` of a packed table of 32-bit words. -/
def tab32 (t i : Nat) : Word := BitVec.ofNat 32 (t / 2 ^ (32 * i))

/-- Item `i` of a packed table of bytes. -/
def tab8 (t i : Nat) : Byte := BitVec.ofNat 8 (t / 2 ^ (8 * i))

/-- SHA-256 padding: 0x80, zeros, the bit length as 8 bytes, highest first. -/
def shaPad (m : List Byte) : List Byte :=
  m ++ [0x80] ++ List.replicate ((119 - m.length % 64) % 64) 0 ++ beBytes 8 (8 * m.length)

/-- The sixteen words of a block, highest byte first. -/
def shaWords (b : List Byte) : List Word :=
  (List.range 16).map (fun i => BitVec.ofNat 32 (beNat ((b.drop (4 * i)).take 4)))

/-- The message schedule, newest word first. -/
def shaExpand : Nat → List Word → List Word
  | 0, w => w
  | n + 1, w =>
    let a := w.getD 14 0
    let b := w.getD 1 0
    let s0 := (a.rotateRight 7) ^^^ (a.rotateRight 18) ^^^ (a >>> 3)
    let s1 := (b.rotateRight 17) ^^^ (b.rotateRight 19) ^^^ (b >>> 10)
    shaExpand n ((w.getD 15 0 + s0 + w.getD 6 0 + s1) :: w)

/-- One round on the eight working variables. -/
def shaRound (v : List Word) (kw : Word) : List Word :=
  match v with
  | [a, b, c, d, e, f, g, h] =>
    let s1 := (e.rotateRight 6) ^^^ (e.rotateRight 11) ^^^ (e.rotateRight 25)
    let ch := (e &&& f) ^^^ ((~~~e) &&& g)
    let t1 := h + s1 + ch + kw
    let s0 := (a.rotateRight 2) ^^^ (a.rotateRight 13) ^^^ (a.rotateRight 22)
    let mj := (a &&& b) ^^^ (a &&& c) ^^^ (b &&& c)
    [t1 + (s0 + mj), a, b, c, d + t1, e, f, g]
  | _ => v

/-- One block of SHA-256. -/
def shaBlock (h : List Word) (b : List Byte) : List Word :=
  let w := (shaExpand 48 (shaWords b).reverse).reverse
  let v := (w.zipIdx).foldl (fun v x => shaRound v (x.1 + tab32 shaK x.2)) h
  (h.zip v).map (fun x => x.1 + x.2)

/-- All blocks, by count. -/
def shaBlocks : Nat → List Word → List Byte → List Word
  | 0, h, _ => h
  | n + 1, h, m => shaBlocks n (shaBlock h (m.take 64)) (m.drop 64)

/-- SHA-256: 32 bytes. -/
def sha256 (m : List Byte) : List Byte :=
  let p := shaPad m
  (shaBlocks (p.length / 64) ((List.range 8).map (tab32 shaH)) p).flatMap (fun w => beBytes 4 w.toNat)

/-- One byte of a reflected CRC with the given polynomial. -/
def crcStep (poly : Word) (c : Word) (b : Byte) : Word :=
  iter 8 (fun _ c => if c.getLsbD 0 then (c >>> 1) ^^^ poly else c >>> 1) (c ^^^ b.setWidth 32)

/-- CRC-32 (IEEE 802.3). -/
def crc32 (m : List Byte) : Word := ~~~(m.foldl (crcStep 0xEDB88320#32) (BitVec.allOnes 32))

/-- CRC-32C (Castagnoli). -/
def crc32c (m : List Byte) : Word := ~~~(m.foldl (crcStep 0x82F63B78#32) (BitVec.allOnes 32))

/-- Multiplication by x in the AES field. -/
def xtime (b : Byte) : Byte := if b.getLsbD 7 then (b <<< 1) ^^^ 0x1B else b <<< 1

def xorBytes (a b : List Byte) : List Byte := (a.zip b).map (fun x => x.1 ^^^ x.2)

/-- Expands a 32-byte key to 60 words of 4 bytes, newest word first. -/
def keyExpandFrom : Nat → Nat → Byte → List (List Byte) → List (List Byte)
  | 0, _, _, w => w
  | n + 1, i, rc, w =>
    let t := w.headD []
    let sub := t.map (fun b => tab8 aesS b.toNat)
    let t' :=
      if i % 8 = 0 then xorBytes (sub.drop 1 ++ sub.take 1) [rc, 0, 0, 0] else if i % 8 = 4 then sub else t
    keyExpandFrom n (i + 1) (if i % 8 = 0 then xtime rc else rc) (xorBytes (w.getD 7 []) t' :: w)

/-- The fifteen round keys of AES-256. -/
def roundKeys (key : List Byte) : List (List Byte) :=
  let w := (keyExpandFrom 52 8 1 ((List.range 8).map (fun i => (key.drop (4 * i)).take 4)).reverse).reverse
  (List.range 15).map (fun r => ((w.drop (4 * r)).take 4).flatten)

def shiftRows (s : List Byte) : List Byte := (List.range 16).map (fun i => s.getD ((i + 4 * (i % 4)) % 16) 0)

def invShiftRows (s : List Byte) : List Byte := (List.range 16).map (fun i => s.getD ((i + 12 * (i % 4)) % 16) 0)

/-- `xtime` on each of the 16 bytes of a packed state. -/
def xtimes (x : Nat) : Nat :=
  ((x &&& 0x7F7F7F7F7F7F7F7F7F7F7F7F7F7F7F7F) * 2) ^^^ (((x / 128) &&& 0x01010101010101010101010101010101) * 0x1B)

/-- The 16 bytes of a packed state times a constant below 16, in the AES field. -/
def stateTimes (c x : Nat) : Nat :=
  let x2 := xtimes x
  let x4 := xtimes x2
  (if c % 2 = 1 then x else 0) ^^^ (if c / 2 % 2 = 1 then x2 else 0) ^^^ (if c / 4 % 2 = 1 then x4 else 0) ^^^
    (if c / 8 % 2 = 1 then xtimes x4 else 0)

/-- The next byte of each column takes each byte's place. -/
def rotColumns (x : Nat) : Nat :=
  ((x / 2 ^ 8) &&& 0x00FFFFFF00FFFFFF00FFFFFF00FFFFFF) ^^^ ((x * 2 ^ 24) &&& 0xFF000000FF000000FF000000FF000000)

/-- Multiplies each column by a circulant matrix given by its first row. -/
def mixWith (m : List Nat) (s : List Byte) : List Byte :=
  leBytes 16 (m.foldl (fun (a : Nat × Nat) c => (a.1 ^^^ stateTimes c a.2, rotColumns a.2)) (0, leNat s)).1

/-- AES-256 on one block. -/
def aesEnc (key : List Byte) (b : List Byte) : List Byte :=
  let ks := roundKeys key
  let s0 := xorBytes b (ks.getD 0 [])
  let s := iter 13 (fun r s => xorBytes (mixWith [2, 3, 1, 1] (shiftRows (s.map (fun x => tab8 aesS x.toNat)))) (ks.getD (r + 1) [])) s0
  xorBytes (shiftRows (s.map (fun x => tab8 aesS x.toNat))) (ks.getD 14 [])

/-- AES-256 decryption of one block. -/
def aesDec (key : List Byte) (b : List Byte) : List Byte :=
  let ks := roundKeys key
  let s0 := xorBytes b (ks.getD 14 [])
  let s := iter 13 (fun r s =>
    mixWith [14, 11, 13, 9] (xorBytes ((invShiftRows s).map (fun x => tab8 aesSi x.toNat)) (ks.getD (13 - r) []))) s0
  xorBytes ((invShiftRows s).map (fun x => tab8 aesSi x.toNat)) (ks.getD 0 [])

/-- Product in the GCM field; a block is a number, first byte highest. -/
def ghashMul (x y : Nat) : Nat :=
  (iter 128 (fun i (s : Nat × Nat) =>
    (if x.testBit (127 - i) then s.1 ^^^ s.2 else s.1,
     if s.2 % 2 = 1 then (s.2 / 2) ^^^ (0xE1 * 2 ^ 120) else s.2 / 2)) (0, y)).1

/-- Zero-padded to whole blocks. -/
def padBlock (m : List Byte) : List Byte := m ++ List.replicate ((16 - m.length % 16) % 16) 0

/-- Absorbs whole blocks into a running GHASH. -/
def ghashBlocks : Nat → Nat → Nat → List Byte → Nat
  | 0, _, y, _ => y
  | n + 1, h, y, m => ghashBlocks n h (ghashMul (y ^^^ beNat (m.take 16)) h) (m.drop 16)

def ghash (h y : Nat) (m : List Byte) : Nat := ghashBlocks (m.length / 16) h y m

/-- Counter-mode encryption from counter block `c` of a 96-bit IV: `n` blocks. -/
def ctrBlocks : Nat → List Byte → List Byte → Nat → List Byte → List Byte
  | 0, _, _, _, _ => []
  | n + 1, key, iv, c, m =>
    xorBytes (m.take 16) (aesEnc key (iv ++ beBytes 4 c)) ++ ctrBlocks n key iv (c + 1) (m.drop 16)

/-- GCM counter mode on data (R343): the counter starts at inc32(J0). -/
def gcmCrypt (key iv m : List Byte) : List Byte := ctrBlocks (cdiv m.length 16) key iv 2 m

/-- The GCM tag over AAD and ciphertext (R343). -/
def gcmTag (key iv aad ct : List Byte) : List Byte :=
  let h := beNat (aesEnc key (List.replicate 16 0))
  let y := ghash h 0 (padBlock aad ++ padBlock ct ++ beBytes 8 (8 * aad.length) ++ beBytes 8 (8 * ct.length))
  xorBytes (beBytes 16 y) (aesEnc key (iv ++ [0, 0, 0, 1]))

/-- One step of KW unwrapping (NIST SP 800-38F): `t` counts down from 6n. -/
def kwUnwrapSteps : Nat → List Byte → Nat → List Byte → List (List Byte) → List Byte × List (List Byte)
  | 0, _, _, a, r => (a, r)
  | t + 1, key, n, a, r =>
    let i := t % n
    let b := aesDec key (xorBytes a (beBytes 8 (t + 1)) ++ r.getD i [])
    kwUnwrapSteps t key n (b.take 8) (r.set i (b.drop 8))

/-- KW unwrap of n + 1 semiblocks; none when the integrity check fails. -/
def kwUnwrap (key c : List Byte) : Option (List Byte) :=
  let n := c.length / 8 - 1
  let r := (List.range n).map (fun i => (c.drop (8 * (i + 1))).take 8)
  let x := kwUnwrapSteps (6 * n) key n (c.take 8) r
  if x.1 = List.replicate 8 0xA6 then some x.2.flatten else none

/-- KW wrap (NIST SP 800-38F), used for contexts only (R343, R356). -/
def kwWrap (key p : List Byte) : List Byte :=
  let n := p.length / 8
  let x := iter (6 * n) (fun t (s : List Byte × List (List Byte)) =>
    let b := aesEnc key (s.1 ++ s.2.getD (t % n) [])
    (xorBytes (b.take 8) (beBytes 8 (t + 1)), s.2.set (t % n) (b.drop 8)))
    (List.replicate 8 0xA6, (List.range n).map (fun i => (p.drop (8 * i)).take 8))
  x.1 ++ x.2.flatten

/-- Doubling in the CMAC field. -/
def cmacDbl (x : Nat) : Nat := (2 * x % 2 ^ 128) ^^^ (if x.testBit 127 then 0x87 else 0)

/-- AES-256-CMAC (NIST SP 800-38B). -/
def cmac (key m : List Byte) : List Byte :=
  let k1 := cmacDbl (beNat (aesEnc key (List.replicate 16 0)))
  let n := max 1 (cdiv m.length 16)
  let last := m.drop (16 * (n - 1))
  let l := if last.length = 16 then xorBytes last (beBytes 16 k1)
    else xorBytes (padBlock (last ++ [0x80])) (beBytes 16 (cmacDbl k1))
  let x := iter (n - 1) (fun i x => aesEnc key (xorBytes x ((m.drop (16 * i)).take 16))) (List.replicate 16 0)
  aesEnc key (xorBytes x l)

/-- The counter-mode KDF of NIST SP 800-108 with 32-bit counter, label, zero byte, context and 32-bit length: 256 bits (R355). -/
def kdf (key label context : List Byte) : List Byte :=
  (List.range 2).flatMap (fun i => cmac key (beBytes 4 (i + 1) ++ label ++ [0] ++ context ++ beBytes 4 256))

end Sys2Proof.Machine
end

