-- ==== Sys2Proof/Machine/Float.lean ====
section
/-!
DEFINITION. The number formats of R66 to R73 and exact arithmetic on them: a value is decoded to sign, integer magnitude and
power of two, computed exactly, and rounded once.
-/

namespace Sys2Proof.Machine

/-- A decoded value: not-a-number, an infinity, or (−1)^neg × mag × 2^e; zero keeps its sign. -/
inductive Fp where
  | nan
  | inf (neg : Bool)
  | fin (neg : Bool) (mag : Nat) (e : Int)
deriving DecidableEq, Repr

/-- 2^e as a natural number, for e that is not negative. -/
def pow2 (e : Int) : Nat := 2 ^ e.toNat

/-- Rounds mag × 2^e to `p` significant bits, to nearest, ties to even, with no exponent limit (R67). -/
def rne (p mag : Nat) (e : Int) : Nat × Int :=
  let n := if mag = 0 then 0 else mag.log2 + 1
  if n ≤ p then (mag, e)
  else
    let s := n - p
    let q := mag / 2 ^ s
    let r := mag % 2 ^ s
    let up := decide (2 ^ (s - 1) < r) || (decide (r = 2 ^ (s - 1)) && decide (q % 2 = 1))
    ((if up then q + 1 else q), e + s)

/-- Rounds to `p` bits and packs with 8 exponent bits of bias 127: FP32 for p = 24, BF16 for p = 8 (R67). -/
def packTo (p : Nat) : Fp → Nat
  | .nan => fld (p - 1) 255 + fld (p - 2) 1
  | .inf s => fld (p + 7) (b2n s) + fld (p - 1) 255
  | .fin s mag e =>
    let r := rne p mag e
    let top := r.2 + (r.1.log2 : Nat)
    if r.1 = 0 ∨ top < -126 then fld (p + 7) (b2n s)
    else if 127 < top then fld (p + 7) (b2n s) + fld (p - 1) 255
    else
      let m := if r.1.log2 < p then r.1 * 2 ^ (p - 1 - r.1.log2) else r.1 / 2 ^ (r.1.log2 + 1 - p)
      fld (p + 7) (b2n s) + fld (p - 1) (top + 127).toNat + (m - 2 ^ (p - 1))

/-- Decodes an FP32 pattern; a subnormal reads as zero of its sign (R67). -/
def f32dec (b : Word) : Fp :=
  let s := bit b 31
  let ex := bits b 30 23
  let fr := bits b 22 0
  if ex = 255 then (if fr = 0 then .inf s else .nan)
  else if ex = 0 then .fin s 0 0
  else .fin s (2 ^ 23 + fr) ((ex : Int) - 150)

/-- Packs to FP32 (R67). -/
def f32pack (x : Fp) : Word := BitVec.ofNat 32 (packTo 24 x)

/-- The upper half of binary32 (R66). -/
def bfWiden (b : BitVec 16) : Word := BitVec.ofNat 32 (b.toNat * 65536)

/-- Decodes a BF16 pattern (R73). -/
def bfdec (b : BitVec 16) : Fp := f32dec (bfWiden b)

/-- Packs to BF16 (R67). -/
def bfpack (x : Fp) : BitVec 16 := BitVec.ofNat 16 (packTo 8 x)

/-- A nonzero FP32 subnormal pattern, which arithmetic takes as zero (R67, R84). -/
def f32subnormal (b : Word) : Bool := decide (bits b 30 23 = 0) && decide (bits b 22 0 ≠ 0)

def Fp.neg : Fp → Fp
  | .nan => .nan
  | .inf s => .inf (!s)
  | .fin s m e => .fin (!s) m e

def Fp.abs : Fp → Fp
  | .nan => .nan
  | .inf _ => .inf false
  | .fin _ m e => .fin false m e

/-- The signed integer magnitude, scaled to exponent `e0` not above `e`. -/
def scaled (s : Bool) (m : Nat) (e e0 : Int) : Int :=
  let v : Int := (m * pow2 (e - e0) : Nat)
  if s then -v else v

/-- Exact sum; an exact zero of nonzero terms is +0 (IEEE 754, R67). -/
def Fp.add : Fp → Fp → Fp
  | .nan, _ => .nan
  | _, .nan => .nan
  | .inf s, .inf t => if s = t then .inf s else .nan
  | .inf s, _ => .inf s
  | _, .inf t => .inf t
  | .fin s m e, .fin t n f =>
    if m = 0 ∧ n = 0 then .fin (s && t) 0 0
    else
      let e0 := min e f
      let z := scaled s m e e0 + scaled t n f e0
      if z = 0 then .fin false 0 0 else .fin (decide (z < 0)) z.natAbs e0

/-- Exact product. -/
def Fp.mul : Fp → Fp → Fp
  | .nan, _ => .nan
  | _, .nan => .nan
  | .inf s, .inf t => .inf (s != t)
  | .inf s, .fin t n _ => if n = 0 then .nan else .inf (s != t)
  | .fin s m _, .inf t => if m = 0 then .nan else .inf (s != t)
  | .fin s m e, .fin t n f => .fin (s != t) (m * n) (e + f)

/-- Ordered comparison a < b; false when either is not a number. -/
def Fp.lt : Fp → Fp → Bool
  | .nan, _ => false
  | _, .nan => false
  | .inf s, .inf t => s && !t
  | .inf s, .fin _ _ _ => s
  | .fin _ _ _, .inf t => !t
  | .fin s m e, .fin t n f => decide (scaled s m e (min e f) < scaled t n f (min e f))

/-- Equality of values; zeros of either sign are equal. -/
def Fp.eqv : Fp → Fp → Bool
  | .nan, _ => false
  | _, .nan => false
  | a, b => !(Fp.lt a b) && !(Fp.lt b a)

def Fp.isNan : Fp → Bool
  | .nan => true
  | _ => false

/-- Infinite or not a number (R100). -/
def Fp.nonFinite : Fp → Bool
  | .fin _ _ _ => false
  | _ => true

def Fp.isZero : Fp → Bool
  | .fin _ m _ => decide (m = 0)
  | _ => false

def Fp.sign : Fp → Bool
  | .nan => false
  | .inf s => s
  | .fin s _ _ => s

/-- Maximum under R99: not-a-number wins, and +0 is above −0. -/
def Fp.max (a b : Fp) : Fp :=
  if a.isNan || b.isNan then .nan
  else if a.isZero && b.isZero then .fin (a.sign && b.sign) 0 0
  else if Fp.lt a b then b else a

/-- Minimum under R99. -/
def Fp.min (a b : Fp) : Fp :=
  if a.isNan || b.isNan then .nan
  else if a.isZero && b.isZero then .fin (a.sign || b.sign) 0 0
  else if Fp.lt b a then b else a

def fadd (a b : Word) : Word := f32pack ((f32dec a).add (f32dec b))
def fsub (a b : Word) : Word := f32pack ((f32dec a).add (f32dec b).neg)
def fmul (a b : Word) : Word := f32pack ((f32dec a).mul (f32dec b))
/-- a × b + c with one rounding (R99). -/
def ffma (a b c : Word) : Word := f32pack (((f32dec a).mul (f32dec b)).add (f32dec c))
def fmax (a b : Word) : Word := f32pack ((f32dec a).max (f32dec b))
def fmin (a b : Word) : Word := f32pack ((f32dec a).min (f32dec b))
def fneg (a : Word) : Word := f32pack (f32dec a).neg
def fabs (a : Word) : Word := f32pack (f32dec a).abs

/-- FP32 1.0, +0.0, canonical not-a-number, the infinities and the largest finite value. -/
def f32one : Word := 0x3F800000#32
def f32zero : Word := 0#32
def f32nan : Word := 0x7FC00000#32
def f32inf : Word := 0x7F800000#32
def f32ninf : Word := 0xFF800000#32
def f32big : Word := 0x7F7FFFFF#32

/-- FP32 rounded once to BF16. -/
def toBf (w : Word) : BitVec 16 := bfpack (f32dec w)

/-- FP8 E4M3 (R68). -/
def e4m3dec (b : Byte) : Fp :=
  let s := bit b 7
  let ex := bits b 6 3
  let fr := bits b 2 0
  if ex = 15 ∧ fr = 7 then .nan
  else if ex = 0 then .fin s fr (-9)
  else .fin s (8 + fr) ((ex : Int) - 10)

/-- FP8 E5M2 (R69). -/
def e5m2dec (b : Byte) : Fp :=
  let s := bit b 7
  let ex := bits b 6 2
  let fr := bits b 1 0
  if ex = 31 then (if fr = 0 then .inf s else .nan)
  else if ex = 0 then .fin s fr (-16)
  else .fin s (4 + fr) ((ex : Int) - 17)

/-- The integer I of an E2M1 magnitude code (R70): the value is I / 2. -/
def e2m1int (c : Nat) : Nat :=
  match c % 8 with
  | 0 => 0 | 1 => 1 | 2 => 2 | 3 => 3 | 4 => 4 | 5 => 6 | 6 => 8 | _ => 12

/-- P4 scale E5M3 (R71): its integer and exponent, or none when it is not a number. -/
def e5m3dec (b : Byte) : Option (Nat × Int) :=
  let ex := bits b 7 3
  let fr := bits b 2 0
  if ex = 31 then none
  else if ex = 0 then some (fr, -17)
  else some (8 + fr, (ex : Int) - 18)

/-- A P4 element under its block's scale (R72); every zero is +0 (R70). -/
def p4dec (code : Nat) (scale : Byte) : Fp :=
  match e5m3dec scale with
  | none => .nan
  | some (is, xs) =>
    let m := e2m1int code * is
    if m = 0 then .fin false 0 0 else .fin (decide (8 ≤ code % 16)) m (xs - 1)

/-- Element `e` of a 17-byte P4 block (R39): low half of byte e / 2 when e is even. -/
def p4elem (block : List Byte) (e : Nat) : Fp :=
  let b := (block.getD (e / 2) 0).toNat
  p4dec (if e % 2 = 0 then b % 16 else b / 16) (block.getD 16 0)

end Sys2Proof.Machine
end

