-- ==== Sys2Proof/Machine/Cast.lean ====
section
/-!
DEFINITION. Narrowing casts: rounding by RNE or stochastic rounding (R75, R78 to R81), and what the range monitor counts (R84).
-/

namespace Sys2Proof.Machine

/-- Target formats by their code in R138 and R87. -/
inductive Target where
  | fp32 | bf16 | e4m3 | e5m2 | p4
deriving DecidableEq, Repr

/-- TARGET of a cast descriptor (R138); other codes are reserved. -/
def Target.ofCode : Nat → Option Target
  | 0 => some .fp32
  | 1 => some .bf16
  | 2 => some .e4m3
  | 3 => some .e5m2
  | 4 => some .p4
  | _ => none

/-- Bytes per element of a target other than P4 (R240). -/
def Target.bytes : Target → Nat
  | .fp32 => 4
  | .bf16 => 2
  | _ => 1

/-- Significant bits, least spacing exponent and largest finite magnitude (integer, exponent) of a target (R76). -/
def Target.prec : Target → Nat × Option Int × (Nat × Int)
  | .bf16 => (8, none, (255, 120))
  | .e4m3 => (4, some (-9), (14, 5))
  | .e5m2 => (3, some (-16), (7, 13))
  | _ => (24, none, (2 ^ 24 - 1, 104))

/-- The generator of R79: a pure function of its key. -/
def rngMul : Nat := 0xd6e8feb86659fd93

def rngMix (x w : Nat) : Nat :=
  let x := x ^^^ w
  let x := x * rngMul % 2 ^ 64
  let x := x ^^^ (x / 2 ^ 32)
  let x := x * rngMul % 2 ^ 64
  x ^^^ (x / 2 ^ 29)

def gen (seed step attempt tensor element : Nat) : Nat :=
  rngMix (rngMix (seed % 2 ^ 64) ((step % 2 ^ 48) * 2 ^ 16 + attempt % 2 ^ 16)) ((tensor % 2 ^ 24) * 2 ^ 40 + element % 2 ^ 40)

/-- The key of stochastic rounding but for the element (R80). -/
structure RngKey where
  seed : Nat
  step : Nat
  attempt : Nat
  tensor : Nat
deriving DecidableEq, Repr

/-- Bits [63:48] of the generator output for an element (R78). -/
def draw (k : RngKey) (element : Nat) : Nat := gen k.seed k.step k.attempt k.tensor element / 2 ^ 48

/-- Rounds the rational num / den (den not zero) to a multiple q of 2^ue: to nearest even, or by the draw `r16` (R78). -/
def roundQ (num den : Nat) (r16 : Option Nat) : Nat :=
  let q := num / den
  let r := num % den
  match r16 with
  | some d16 => if d16 < r * 65536 / den then q + 1 else q
  | none => if den < 2 * r ∨ (2 * r = den ∧ q % 2 = 1) then q + 1 else q

/-- Rounds mag × 2^e to `p` bits with spacing not below 2^minE (R75): the multiple and its exponent. -/
def roundTo (p : Nat) (minE : Option Int) (r16 : Option Nat) (mag : Nat) (e : Int) : Nat × Int :=
  if mag = 0 then (0, e)
  else
    let u0 : Int := e + mag.log2 - ((p : Int) - 1)
    let u := match minE with
      | some m => max u0 m
      | none => u0
    if u ≤ e then (mag * pow2 (e - u), u) else (roundQ mag (pow2 (u - e)) r16, u)

/-- a × 2^e > b × 2^f. -/
def dyGt (a : Nat) (e : Int) (b : Nat) (f : Int) : Bool :=
  decide (b * pow2 (f - min e f) < a * pow2 (e - min e f))

/-- What one cast element gives: its code, and whether the range monitor counts it in OVER or UNDER (R84). -/
structure CastOut where
  code : Nat
  above : Bool
  below : Bool
deriving DecidableEq, Repr

/-- Packs a rounded FP8 value. -/
def fp8pack (t : Target) (s : Bool) (q : Nat) (u : Int) : Nat :=
  if q = 0 then fld 7 (b2n s)
  else
    let top : Int := u + q.log2
    let fb := if t = .e4m3 then 3 else 2
    let bias : Int := if t = .e4m3 then 7 else 15
    let minE : Int := if t = .e4m3 then -9 else -16
    if top < 1 - bias then fld 7 (b2n s) + q * pow2 (u - minE)
    else fld 7 (b2n s) + fld fb (top + bias).toNat +
      ((if q.log2 ≤ fb then q * 2 ^ (fb - q.log2) else q / 2 ^ (q.log2 - fb)) - 2 ^ fb)

/-- The codes for not-a-number, an infinity and the largest finite value of a target. -/
def Target.nanCode : Target → Nat
  | .bf16 => 0x7FC0
  | .e4m3 => 0x7F
  | .e5m2 => 0x7F
  | _ => 0x7FC00000

def Target.infCode (t : Target) (s : Bool) : Nat :=
  match t with
  | .bf16 => fld 15 (b2n s) + 0x7F80
  | .e4m3 => 0x7F
  | .e5m2 => fld 7 (b2n s) + 0x7C
  | _ => fld 31 (b2n s) + 0x7F800000

def Target.maxCode (t : Target) (s : Bool) : Nat :=
  match t with
  | .bf16 => fld 15 (b2n s) + 0x7F7F
  | .e4m3 => fld 7 (b2n s) + 0x7E
  | .e5m2 => fld 7 (b2n s) + 0x7B
  | _ => fld 31 (b2n s) + 0x7F7FFFFF

/-- One element of a cast whose target is BF16, E4M3 or E5M2 (R75). `sub` says that the input was a nonzero subnormal. -/
def castElem (t : Target) (sat : Bool) (scaleExp : Int) (r16 : Option Nat) (x : Fp) (sub : Bool) : CastOut :=
  match x with
  | .nan => ⟨t.nanCode, false, false⟩
  | .inf s => ⟨t.infCode s, true, false⟩
  | .fin s mag e =>
    let (p, minE, mx) := t.prec
    let r := roundTo p minE r16 mag (e + scaleExp)
    if dyGt r.1 r.2 mx.1 mx.2 then ⟨if sat then t.maxCode s else t.infCode s, true, false⟩
    else
      let code := if t = .bf16 then packTo 8 (.fin s r.1 r.2) else fp8pack t s r.1 r.2
      let zero := decide (code % 2 ^ (if t = .bf16 then 15 else 7) = 0)
      let fp8sub := decide (t ≠ .bf16) && decide (r.1 ≠ 0) && decide (r.2 + (r.1.log2 : Int) < (if t = .e4m3 then -6 else -14))
      ⟨code, false, (zero && (decide (mag ≠ 0) || sub)) || fp8sub⟩

/-- |y| / s rounded to an E2M1 magnitude with unbounded exponent, as a count of halves (R81): num / den is the quotient. -/
def roundE2m1 (num den : Nat) (r16 : Option Nat) : Nat :=
  let f := num / den
  if f < 2 then roundQ (2 * num) den r16
  else
    let u := f.log2 - 1
    roundQ num (den * 2 ^ u) r16 * 2 ^ (u + 1)

/-- The E2M1 magnitude code of a value given in halves, at most 6.0. -/
def e2m1code (halves : Nat) : Nat :=
  match halves with
  | 0 => 0 | 1 => 1 | 2 => 2 | 3 => 3 | 4 => 4 | 5 => 4 | 6 => 5 | 7 => 5 | 8 => 6 | 9 => 6 | 10 => 6 | 11 => 6 | _ => 7

/-- The smallest nonzero E5M3 code whose value times six reaches a × 2^e; 0xF7 if none (R81). -/
def p4scale (k a : Nat) (e : Int) : Nat :=
  match (List.range 247).find? (fun c =>
      match e5m3dec (BitVec.ofNat 8 (c + 1)) with
      | some (is, xs) => !(dyGt a e (k * is) xs)
      | none => false) with
  | some c => c + 1
  | none => 0xF7

/-- A P4 block: 17 bytes, and per element whether OVER or UNDER counts it (R81, R84). `draws e` is the draw of element e. -/
def castP4 (scaleExp : Int) (draws : List (Option Nat)) (xs : List (Fp × Bool)) : List Byte × List (Bool × Bool) :=
  if xs.any (fun x => x.1.nonFinite) then
    (List.replicate 16 0 ++ [0xFF], xs.map (fun x => (match x.1 with | .inf _ => true | _ => false, false)))
  else
    let ys := xs.map (fun x => match x.1 with | .fin s m e => (s, m, e + scaleExp) | _ => (false, 0, 0))
    let mx := ys.foldl (fun (a : Nat × Int) y => if dyGt y.2.1 y.2.2 a.1 a.2 then y.2 else a) (0, 0)
    if mx.1 = 0 then (List.replicate 17 0, xs.map (fun x => (false, x.2)))
    else
      let sc := p4scale 6 mx.1 mx.2
      let sd := (e5m3dec (BitVec.ofNat 8 sc)).getD (1, 0)
      let el := (ys.zip (draws.zip xs)).map (fun z =>
        let s := z.1.1
        let m := z.1.2.1
        let e := z.1.2.2
        let e0 := min e sd.2
        let h := roundE2m1 (m * pow2 (e - e0)) (sd.1 * pow2 (sd.2 - e0)) z.2.1
        let above := decide (12 < h)
        let c := if above then 7 else e2m1code h
        let below := decide (c = 1) || (decide (c = 0) && (decide (m ≠ 0) || z.2.2.2))
        ((if c = 0 then 0 else c + 8 * b2n s), above, below))
      ((List.range 16).map (fun i => BitVec.ofNat 8 ((el.getD (2 * i) (0, false, false)).1 + 16 * (el.getD (2 * i + 1) (0, false, false)).1)) ++ [BitVec.ofNat 8 sc],
        el.map (fun z => z.2))

end Sys2Proof.Machine
end

