-- ==== Sys2Proof/Config.lean ====
section
/-!
DEFINITION. What one part fixes and no rule gives: fused secrets, unpublished tables and energies, and the free values. Every
constant here is opaque: nothing can be proved of its value.
-/

namespace Sys2Proof.Config

/-- A value that the manual leaves undefined after an operation that goes on, drawn by the counter `State.free` (DESIGN CHOICE, log 1). -/
opaque freeValue : Nat → BitVec 2048

/-- Upper end of a segment in the hardware's table of special function `code` of R104, as FP32 (R103) (DESIGN CHOICE, log 7). -/
opaque segmentEnd : Nat → Nat → BitVec 32

/-- Slope of a segment, as FP32 (R103) (DESIGN CHOICE, log 7). -/
opaque segmentSlope : Nat → Nat → BitVec 32

/-- Intercept of a segment, as FP32 (R103) (DESIGN CHOICE, log 7). -/
opaque segmentIntercept : Nat → Nat → BitVec 32

/-- What an update engine computes where a power register that is not a number meets an operation: by operation and its three sources (R250,
R251) (DESIGN CHOICE, log 104). -/
opaque updOpen : Nat → BitVec 32 → BitVec 32 → BitVec 32 → BitVec 32

/-- The module's 256-bit fused device secret (R355) (DESIGN CHOICE, log 3). -/
opaque deviceSecret : BitVec 256

/-- Verdict of the ECDSA P-384 check with SHA-384 of a firmware image against the key fused at test (R420) (DESIGN CHOICE, log 8). -/
opaque signatureValid : List Byte → Bool

/-- Where a firmware image carries its version and its security version; the image format is unpublished (R420) (DESIGN CHOICE, log 8). -/
opaque imageVersion : List Byte → BitVec 32

/-- The security version of a firmware image (R420) (DESIGN CHOICE, log 8). -/
opaque imageSecurityVersion : List Byte → Nat

/-- A mailbox payload's answer; the manual gives the frame, not the payloads (R437) (DESIGN CHOICE, log 9). -/
opaque mailboxAnswer : List Byte → List Byte

end Sys2Proof.Config
end

