-- ==== Sys2Proof/Machine/Special.lean ====
section
/-!
DEFINITION. The special functions of R103 to R107: reduction, segment, slope × u + intercept with one rounding, reconstruction. The segment
tables are the hardware's and unpublished: free values, held to the order of R105 and to the errors of R104 (DESIGN CHOICE, log 7).
-/

namespace Sys2Proof.Machine

/-- log2(e) as an integer multiple of 2^−160. -/
def log2eFix : Nat := 0x171547652b82fe1777d0ffda0d23a7d11d6aef551

/-- ln 2 as an integer multiple of 2^−160. -/
def ln2Fix : Nat := 0xb17217f7d1cf79abc9e3b39803f2f6af40f34326

/-- Keeps a positive FP32 pattern between two others; patterns of one sign order as numbers. -/
def clampWord (lo hi v : Word) : Word :=
  if v.toNat < lo.toNat then lo else if hi.toNat < v.toNat then hi else v

/-- 2^n as FP32. -/
def f32pow2 (n : Int) : Word := f32pack (.fin false 1 n)

/-- floor of mag × 2^e with its sign. -/
def Fp.floor : Fp → Int
  | .fin s m e =>
    let v : Int := if 0 ≤ e then (m * pow2 e : Nat) else (m / pow2 (-e) : Nat)
    let exact := decide (0 ≤ e) || decide (m % pow2 (-e) = 0)
    if s then (if exact then -v else -v - 1) else v
  | _ => 0

/-- The value is an integer. -/
def Fp.isInt : Fp → Bool
  | .fin _ m e => decide (0 ≤ e) || decide (m % pow2 (-e) = 0)
  | _ => false

/-- Integer n as an exact value. -/
def Fp.ofInt (n : Int) : Fp := .fin (decide (n < 0)) n.natAbs 0

/-- x ≥ n for an integer n. -/
def Fp.geInt (x : Fp) (n : Int) : Bool := !x.isNan && !(Fp.lt x (Fp.ofInt n))

/-- x ≤ n for an integer n. -/
def Fp.leInt (x : Fp) (n : Int) : Bool := !x.isNan && !(Fp.lt (Fp.ofInt n) x)

/-! ### The exact functions, in multiples of 2^−96 -/

/-- 1 in fixed point. -/
def fixOne : Nat := 2 ^ 96

/-- Product in fixed point. -/
def fixMul (a b : Nat) : Nat := a * b / fixOne

/-- A value that is not negative, in fixed point. -/
def fixOf : Fp → Nat
  | .fin _ m e => if 0 ≤ e + 96 then m * pow2 (e + 96) else m / pow2 (-(e + 96))
  | _ => 0

/-- e^y for y below 1, by its series. -/
def fixExp (y : Nat) : Nat := (List.range 40).foldr (fun i r => fixOne + fixMul y r / (i + 1)) fixOne

/-- 2^f for f below 1. -/
def fixExp2 (f : Nat) : Nat := fixExp (f * ln2Fix / 2 ^ 160)

/-- log2 m for m in [1, 2): log2(e) times twice the series of artanh((m − 1) / (m + 1)). -/
def fixLog2 (m : Nat) : Nat :=
  let z := (m - fixOne) * fixOne / (m + fixOne)
  let s := (List.range 36).foldr (fun i r => fixOne / (2 * i + 1) + fixMul (fixMul z z) r) 0
  2 * fixMul z s * log2eFix / 2 ^ 160

/-- e^(−u). -/
def fixExpNeg (u : Nat) : Nat :=
  let t := u * log2eFix / 2 ^ 160
  fixExp2 (fixOne - t % fixOne) / 2 ^ (t / fixOne + 1)

/-- 1 / (1 + e^(−u)). -/
def fixSigmoid (u : Nat) : Nat := fixOne * fixOne / (fixOne + fixExpNeg u)

/-- tanh u = (1 − e^(−2u)) / (1 + e^(−2u)). -/
def fixTanh (u : Nat) : Nat := (fixOne - fixExpNeg (2 * u)) * fixOne / (fixOne + fixExpNeg (2 * u))

/-- 1 / √(2π) as an integer multiple of 2^−160. -/
def rootFix : Nat := 0x662114cf50d942343f2cf1402eae38bfd3829f30

/-- Φ(u) by its alternating series. -/
def fixPhi (u : Nat) : Nat :=
  let h := fixMul u u / 2
  let r := (List.range 128).foldl (fun (x : Nat × Int) i =>
    (fixMul x.1 h / (i + 1), x.2 + (if i % 2 = 0 then 1 else -1) * (x.1 / (2 * i + 1) : Nat))) (u, 0)
  fixOne / 2 + r.2.toNat * rootFix / 2 ^ 160

/-- Integer square root by bisection on bits. -/
def isqrtFrom : Nat → Nat → Nat → Nat
  | 0, _, r => r
  | k + 1, n, r =>
    let c := r + 2 ^ k
    isqrtFrom k n (if c * c ≤ n then c else r)

def isqrt (n : Nat) : Nat := isqrtFrom (n.log2 / 2 + 1) n 0

/-- The greatest FP32 value not above n × 2^−96. -/
def f32Below (n : Nat) : Word :=
  let s := n.log2 - 23
  f32pack (.fin false (n / 2 ^ s) ((s : Int) - 96))

/-- The least FP32 value not below n × 2^−96. -/
def f32Above (n : Nat) : Word :=
  let s := n.log2 - 23
  f32pack (.fin false (cdiv n (2 ^ s)) ((s : Int) - 96))

/-! ### The segment tables (R103 to R105) -/

/-- The seven tables of R104: EXP, LN, GELU and SILU take those of EXP2, LOG2, Φ and SIGMOID. -/
inductive SpecialTable where
  | exp2 | rcp | rsqrt | log2 | sigmoid | tanh | phi
deriving DecidableEq, Repr

/-- The code under which R104 lists the table's function. -/
def SpecialTable.code : SpecialTable → Nat
  | .exp2 => 1 | .rcp => 3 | .rsqrt => 4 | .log2 => 5 | .sigmoid => 7 | .tanh => 8 | .phi => 9

/-- Segments of a table (R104). -/
def SpecialTable.segments : SpecialTable → Nat
  | .exp2 => 32 | .rcp => 32 | _ => 16

/-- The function falls on its base interval. -/
def SpecialTable.falls (f : SpecialTable) : Bool := decide (f = .rcp) || decide (f = .rsqrt)

/-- The part of the base interval in which segment `i` lies (R104): for RSQRT segments 0 to 7 in [1, 2) and 8 to 15 in [2, 4). -/
def SpecialTable.base (f : SpecialTable) (i : Nat) : Int × Int :=
  match f with
  | .exp2 => (0, 1)
  | .rcp => (1, 2)
  | .rsqrt => if i < 8 then (1, 2) else (2, 4)
  | .log2 => (1, 2)
  | .sigmoid => (0, 16)
  | .tanh => (0, 9)
  | .phi => (0, 6)

/-- The exact function on the reduced argument, in fixed point. -/
def SpecialTable.exact (f : SpecialTable) (u : Nat) : Nat :=
  match f with
  | .exp2 => fixExp2 u
  | .rcp => fixOne * fixOne / u
  | .rsqrt => isqrt (fixOne * fixOne * fixOne / u)
  | .log2 => fixLog2 u
  | .sigmoid => fixSigmoid u
  | .tanh => fixTanh u
  | .phi => fixPhi u

/-- The error a table may have at an exact value, in fixed point: what R104 promises of its functions, less what their reconstruction adds
by rounding (DESIGN CHOICE, log 7). -/
def SpecialTable.error (f : SpecialTable) (v : Nat) : Nat :=
  match f with
  | .exp2 => v * 600 / 10 ^ 7
  | .rcp => v * 1300 / 10 ^ 7
  | .rsqrt => v * 7500 / 10 ^ 7
  | .log2 => fixOne * 3640 / 10 ^ 7
  | .sigmoid => fixOne * 2990 / 10 ^ 7
  | .tanh => fixOne * 5990 / 10 ^ 7
  | .phi => fixOne * 2990 / 10 ^ 7

/-- Least and greatest value of a table: its function's range, so that the anchors and the reconstruction keep the order of R105. -/
def SpecialTable.range : SpecialTable → Word × Word
  | .exp2 => (f32one, 0x3FFFFFFF#32)
  | .log2 => (f32zero, f32one)
  | .tanh => (f32zero, f32one)
  | _ => (f32pow2 (-1), f32one)

/-- A finite table entry as a value. -/
def entryValue (w : Word) : Fp :=
  match f32dec w with
  | .fin s m e => .fin s m e
  | _ => .fin false 0 0

/-- The upper end of segment `i`, held inside its part of the base interval; the last segment of a part ends with it. -/
def SpecialTable.upper (f : SpecialTable) (i : Nat) : Fp :=
  let b := f.base i
  if i + 1 = f.segments ∨ (f = .rsqrt ∧ i = 7) then Fp.ofInt b.2
  else ((entryValue (Config.segmentEnd f.code i)).max (Fp.ofInt b.1)).min (Fp.ofInt b.2)

/-- slope × u + intercept with one rounding (R103); the slope has the sign of the function's (R105). -/
def SpecialTable.line (f : SpecialTable) (i : Nat) (u : Fp) : Fp :=
  let k := (entryValue (Config.segmentSlope f.code i)).abs
  f32dec (f32pack (((if f.falls then k.neg else k).mul u).add (entryValue (Config.segmentIntercept f.code i))))

/-- The segment that holds the reduced argument: the first whose upper end lies above it (R103). -/
def SpecialTable.select (f : SpecialTable) (u : Fp) : Nat :=
  ((List.range f.segments).find? (fun i => Fp.lt u (f.upper i))).getD (f.segments - 1)

/-- The table's value: the segment's line, never behind the end of a segment before it (R105), inside the promised error and the range (R104,
R105) (DESIGN CHOICE, log 7). -/
def SpecialTable.value (f : SpecialTable) (u : Fp) : Word :=
  let i := f.select u
  let far := fun (a b : Fp) => if f.falls then a.min b else a.max b
  let y := (List.range i).foldl (fun y j => far y (f.line j (f.upper j))) (f.line i u)
  let v := f.exact (fixOf u)
  let e := f.error v
  let lo := clampWord f.range.1 f.range.2 (f32Above (v + 2 ^ 20 - e))
  let hi := clampWord f.range.1 f.range.2 (f32Below (v + e - 2 ^ 20))
  if y.sign then lo else clampWord lo hi (f32pack y)

/-! ### The functions (R104 to R107) -/

/-- EXP2: x = n + f, and 2^n times the table at f; 2^n itself at an integer (R104 to R106). -/
def fnExp2 (b : Word) : Word :=
  let x := f32dec b
  if x.isNan then f32nan
  else if x.geInt 128 then f32inf
  else if Fp.lt x (Fp.ofInt (-126)) then f32zero
  else if x.isInt then f32pow2 x.floor
  else f32pack ((f32dec (SpecialTable.exp2.value (x.add (Fp.ofInt (-x.floor))))).mul (.fin false 1 x.floor))

/-- EXP: the product with log2(e) is rounded once, then EXP2 (R104); the comparison is made on t (R106). -/
def fnExp (b : Word) : Word :=
  match f32dec b with
  | .nan => f32nan
  | .inf s => if s then f32zero else f32inf
  | .fin s m e => fnExp2 (f32pack (.fin s (m * log2eFix) (e - 160)))

/-- RCP of a finite nonzero magnitude: x = m × 2^n, and the table at m times 2^−n. At m = 1 the promised error and the limit of R106 leave
1.0 alone (R104, R106) (DESIGN CHOICE, log 7). -/
def rcpTable (s : Bool) (mag : Nat) (e : Int) : Fp :=
  let n : Int := mag.log2
  let y := if mag = 2 ^ mag.log2 then f32one else SpecialTable.rcp.value (.fin false mag (-n))
  (f32dec y).mul (.fin s 1 (-(e + n)))

/-- Rounded to 24 significant bits with no exponent limit: a step of R107 inside its fused operations. Only so do the errors that R107
promises hold at both ends of the exponent range (DESIGN CHOICE, log 7). -/
def Fp.round24 : Fp → Fp
  | .fin s m e => .fin s (rne 24 m e).1 (rne 24 m e).2
  | x => x

/-- RCP, with the Newton step of R107 when `newton`. -/
def fnRcp (newton : Bool) (b : Word) : Word :=
  match f32dec b with
  | .nan => f32nan
  | .inf s => f32pack (.fin s 0 0)
  | .fin s m e =>
    if m = 0 then f32pack (.inf s)
    else if Fp.lt (.fin false 1 126) (.fin false m e) then f32pack (.fin s 0 0)
    else
      let y0 := rcpTable s m e
      if newton then
        let d := (((Fp.fin (!s) m e).mul y0).add (Fp.ofInt 1)).round24
        f32pack ((y0.mul d).add y0)
      else f32pack y0

/-- RSQRT of a positive magnitude: x = m × 2^(2n), and the table at m in [1, 4) times 2^−n (R104). -/
def rsqrtTable (mag : Nat) (e : Int) : Fp :=
  let h : Int := (e + mag.log2) / 2
  (f32dec (SpecialTable.rsqrt.value (.fin false mag (e - 2 * h)))).mul (.fin false 1 (-h))

/-- RSQRT, with the Newton step of R107 when `newton`. -/
def fnRsqrt (newton : Bool) (b : Word) : Word :=
  match f32dec b with
  | .nan => f32nan
  | .inf s => if s then f32nan else f32zero
  | .fin s m e =>
    if m = 0 then f32pack (.inf s)
    else if s then f32nan
    else
      let y0 := rsqrtTable m e
      if newton then
        let d := (((Fp.fin true m (e - 1)).mul (y0.mul y0).round24).add (.fin false 1 (-1))).round24
        f32pack ((y0.mul d).add y0)
      else f32pack y0

/-- LOG2: n plus the table at m, for x = m × 2^n; n itself at a power of two (R104 to R106). -/
def fnLog2 (b : Word) : Word :=
  match f32dec b with
  | .nan => f32nan
  | .inf s => if s then f32nan else f32inf
  | .fin s m e =>
    if m = 0 then f32ninf
    else if s then f32nan
    else
      let n : Int := e + m.log2
      if m = 2 ^ m.log2 then f32pack (Fp.ofInt n)
      else f32pack ((f32dec (SpecialTable.log2.value (.fin false m (-(m.log2 : Int))))).add (Fp.ofInt n))

/-- LN: LOG2 times ln 2, rounded once (R104). -/
def fnLn (b : Word) : Word :=
  match f32dec (fnLog2 b) with
  | .fin s m e => f32pack (.fin s (m * ln2Fix) (e - 160))
  | r => f32pack r

/-- SIGMOID (R104 to R106): the table at |x|, and 1 minus it for a negative x. -/
def fnSigmoid (b : Word) : Word :=
  let x := f32dec b
  if x.isNan then f32nan
  else if x.leInt (-16) then f32zero
  else if x.geInt 16 then f32one
  else if x.isZero then f32pow2 (-1)
  else
    let t := SpecialTable.sigmoid.value x.abs
    if x.sign then fsub f32one t else t

/-- TANH (R104 to R106), odd. -/
def fnTanh (b : Word) : Word :=
  let x := f32dec b
  if x.isNan then f32nan
  else if x.geInt 9 then f32one
  else if x.leInt (-9) then fneg f32one
  else if x.isZero then f32pack x
  else
    let t := f32dec (SpecialTable.tanh.value x.abs)
    f32pack (if x.sign then t.neg else t)

/-- GELU: x × Φ(x) with Φ(−x) = 1 − Φ(x) (R104 to R106). -/
def fnGelu (b : Word) : Word :=
  let x := f32dec b
  if x.isNan then f32nan
  else if x.leInt (-6) then f32pack (.fin true 0 0)
  else if x.geInt 6 then b
  else if x.isZero then f32pack x
  else
    let t := SpecialTable.phi.value x.abs
    fmul b (if x.sign then fsub f32one t else t)

/-- SILU: x × SIGMOID(x) (R104 to R106). -/
def fnSilu (b : Word) : Word :=
  let x := f32dec b
  if x.isNan then f32nan
  else if x.leInt (-16) then f32pack (.fin true 0 0)
  else if x.geInt 16 then b
  else if x.isZero then f32pack x
  else fmul b (fnSigmoid b)

/-- A function code that R104 lists. -/
def fnDefined (code : Nat) : Bool := decide (1 ≤ code) && decide (code ≤ 10)

/-- Special function `code` of R104; N bears only on RCP and RSQRT (R107). -/
def vfn (code : Nat) (newton : Bool) (b : Word) : Word :=
  match code with
  | 1 => fnExp2 b
  | 2 => fnExp b
  | 3 => fnRcp newton b
  | 4 => fnRsqrt newton b
  | 5 => fnLog2 b
  | 6 => fnLn b
  | 7 => fnSigmoid b
  | 8 => fnTanh b
  | 9 => fnGelu b
  | _ => fnSilu b

end Sys2Proof.Machine
end

