-- ==== Sys2Proof/Machine/State.lean ====
section
/-!
DEFINITION. The state of the PV8 module as plain data, with its reset values as field defaults, and the reasons a step can stop.
INVENTORY.md lists every field with the rule that names it; the log (notes/assumptions) names every value the manual does not give.
-/

namespace Sys2Proof.Machine

/-- Why a step stops with a fault (DESIGN CHOICE, log 20). -/
inductive Fault where
  /-- A wings access names DRAM at or above 768 GiB (R15, R372). Raised by WINGS_ACCESS. Safe: no such byte exists. -/
  | outsideDram (addr : Nat)
  /-- A command names a unit that does not exist: a core above 849, a channel above 383, an engine above 47, a company above 15,
  a function above 16. Raised by any command with such an operand. Safe: the hardware has no such unit. -/
  | noSuchUnit (index : Nat)
deriving DecidableEq, Repr

/-- Why a step is refused. -/
inductive Refusal where
  /-- An instruction without a meaning yet. Raised by an arm of `exec`. Safe: nothing is claimed of it. -/
  | notModelled (mnemonic : String)
deriving DecidableEq, Repr

/-! ### Error records (R422) -/

/-- One error record before packing; `detail` lists (width, value) pairs in order. -/
structure ErrRec where
  stamp : DWord := 0
  source : BitVec 16 := 0
  cls : BitVec 2 := 0
  company : Nat := 0
  code : BitVec 16 := 0
  injected : Bool := false
  house : Bool := false
  detail : List (Nat × Nat) := []
  closed : Bool := false
  update : Bool := false
  merged : Bool := false
  rept : Word := 0
deriving DecidableEq, Repr

/-- An open coalescing group at a source (R424): its first record and when it opened. -/
structure ErrGroup where
  first : ErrRec
  openedNs : Nat
  /-- records coalesced so far, beyond the first -/
  repeats : Word := 0
deriving DecidableEq, Repr

/-- The error logger (R424 to R428, R435, R436). The ring holds 4,096 records. -/
structure ErrState where
  next : Nat := 0
  pinned : Nat := 0
  fatalFull : Bool := false
  dropCorrected : BitVec 16 := 0
  dropDeferred : BitVec 16 := 0
  dropUncorrected : BitVec 16 := 0
  overwritten : Word := 0
  mirrorDrops : Word := 0
  occ : DWord := 0
  ring : Table (Option ErrRec) := []
  groups : List ErrGroup := []
  buffer : List ErrRec := []
  /-- the microsecond in which the logger last took a waiting record, and how many it took in it (R425) -/
  takenNs : Nat := 0
  taken : Nat := 0
  lateCpl : Word := 0
  cplTimeouts : Word := 0
deriving DecidableEq, Repr

/-! ### Cores (chapters 02 to 05) -/

/-- Accumulation family of a window (R43). -/
inductive Family where
  | none | fp8 | p4 | bf16
deriving DecidableEq, Repr

/-- One window of one cell (R43, R48), with its share of the row's residue prediction (R56, R58). -/
structure Cell where
  value : BitVec 96 := 0
  nan : Bool := false
  pinf : Bool := false
  ninf : Bool := false
  /-- What the cell's window last ran, none before its first run (DEDUCED, log 27). -/
  family : Family := .none
  /-- FP32 accumulator of the BF16 path -/
  acc : Word := 0
  /-- the accumulator register's parity no longer fits (R58) -/
  accBad : Bool := false
  /-- a residue mismatch of a BF16 k-step, held until the drain (R58) -/
  mismatch : Bool := false
  segCount : Nat := 0
  /-- predicted residue modulo 7 of VALUE's contributions (R56) -/
  pred : Nat := 0
deriving DecidableEq, Repr

/-- A matrix run in flight (R32 to R34, R40). -/
structure Run where
  c0 : Nat
  steps : Nat
  family : Family
  /-- operand formats within FP8: true for E5M2 -/
  actE5 : Bool
  wtE5 : Bool
  win : Nat
  opens : Bool
  actLine : Nat
  wtLine : Nat
  rowMask : Word
  colMasks : List Word
  /-- k-steps that enter (all, unless the run was truncated: R32) -/
  limit : Nat
  /-- port A reads still to make: cycle, weight operand, line offset (R40) -/
  reads : List (Nat × Bool × Nat)
  /-- operand lines read, by line offset -/
  act : Table (Option Line)
  wt : Table (Option Line)
  /-- SEGMENT_FORMAT has been logged for this run -/
  logged : Bool
deriving DecidableEq, Repr

/-- What a drain needs of a run that has begun (R50). -/
structure RunMark where
  win : Nat
  entry0 : Nat
  rowMask : Word
  colMasks : List Word
deriving DecidableEq, Repr

/-- A drain in flight (R49 to R53): its lines are (row, half) in writing order. -/
structure Drain where
  d : Nat
  win : Nat
  add : Bool
  dest : Nat
  /-- lines: row, half, active columns of that half -/
  lines : List (Nat × Nat × List Bool)
  /-- segment values by array, row and column, once read -/
  values : Table Word
  isRead : Bool
  limit : Nat
deriving DecidableEq, Repr

/-- A result on its way (R143): what changes when its cycle comes. -/
inductive Effect where
  | vreg (reg : Nat) (off : Nat) (bs : List Byte)
  | tile (addr : Nat) (bs : List Byte)
  /-- the active 4-byte elements of one drained line, by position (R50) -/
  | tileWords (line : Nat) (ws : List (Nat × Word))
  | mset (index : Nat) (value : BitVec 160)
  | cdesc (index : Nat) (value : BitVec 128)
  | agenDesc (value : DWord)
  | agenTable (bases : List Nat)
  | rmon (slot total above below : Nat)
  /-- the residue verdict of a drain: records, and array, row bits and window of the lowest mismatch (R59, R63) -/
  | verdict (recs : List ErrRec) (lowest : Option (Nat × Word)) (win : Bool)
  | sinc (index : Nat) (gen : BitVec 8) (amount : Nat)
  /-- a line that SEND has read enters the core's router (R139, R143) -/
  | sent (target line : Nat) (data : Line)
deriving DecidableEq, Repr

/-- `cycle`: the first cycle whose operations see the effect; `prio` orders effects of one cycle (R146). -/
structure Landing where
  cycle : Nat
  prio : Nat
  eff : Effect
deriving DecidableEq, Repr

/-- The row operations of the vector slot (R135). -/
inductive RowOp where
  | widen (fmt : Nat) | cast (desc : Nat) | rowstat (reg : Nat) | fn (code : Nat)
  | smmax (r : Nat) | smexp (r : Nat) | smnorm (desc : Nat)
deriving DecidableEq, Repr

/-- A row operation in progress (R97, R98, R101, R108): what it sampled at issue and its running lanes. -/
structure VecOp where
  t0 : Nat
  op : RowOp
  bf : Bool
  nf : Bool
  newton : Bool
  src : Nat
  dst : Nat
  n : Nat
  rate : Nat
  /-- elements read so far -/
  done : Nat
  lanesMax : List Word
  lanesSum : List Word
  lanesSq : List Word
  /-- m and k of VSMEXP, r in `m` for VSMNORM (R137) -/
  m : Word
  k : Word
  cdesc : BitVec 128
  agenDesc : DWord
  agenTable : List Nat
  /-- step and attempt at issue (R80) -/
  seed : Nat
  step : Nat
  attempt : Nat
  scaleExp : Int
  above : Nat
  below : Nat
  rangeLogged : Bool
  /-- the source line in hand: a line is one access of its bank, and serves the cycles that need it (R37) (DEDUCED, log 21) -/
  line : List Byte
  /-- result bytes of the output line in hand, and bytes already on their way in whole lines -/
  out : List Byte
  written : Nat
deriving DecidableEq, Repr

/-- A SEND in progress (R139, R143). -/
structure SendOp where
  t0 : Nat
  src : Nat
  dst : Nat
  /-- physical index of the destination core -/
  target : Nat
  count : Nat
  done : Nat
deriving DecidableEq, Repr

/-- An MSETLD or CDLD in progress (R140, R143). -/
structure LoadOp where
  t0 : Nat
  casts : Bool
  line : Nat
  first : Nat
  count : Nat
  done : Nat
deriving DecidableEq, Repr

/-- One range-monitor slot (R83, R85, R87); `above` is OVER and `below` is UNDER. -/
structure RmSlot where
  tensor : BitVec 24 := 0
  format : Byte := 0
  scaleExp : BitVec 8 := 0
  total : BitVec 48 := 0
  above : BitVec 48 := 0
  below : BitVec 48 := 0
deriving DecidableEq, Repr

/-- A place on the mesh that carries one line per cycle (R170, R171, R173). -/
inductive MeshPoint where
  /-- core-plane link between neighbouring routers, by logical index LROW × 32 + LCOL -/
  | link (src dst : Nat)
  /-- the inbound port of a core, by physical index -/
  | inbound (core : Nat)
  /-- the bridge path of a logical row -/
  | bridge (row : Nat) (toEast : Bool)
  | rowChannel (row : Nat) (east : Bool)
deriving DecidableEq, Repr

/-- A line on the mesh (R168 to R171, R517): where it goes, and the points it has still to pass. -/
structure MeshLine where
  core : Nat
  /-- a part-store line (KIND 0x03 of R147) -/
  part : Bool
  line : Nat
  data : Line
  /-- an edge-plane line -/
  edge : Bool
  /-- place in the order of R171: of the edge source, or the source logical index of a SEND -/
  rank : Nat
  /-- an edge source on die E, and the stage cycle in which the line left its source -/
  east : Bool
  left : Nat
  /-- stage cycle in which it entered the router where it stands -/
  entered : Nat
  /-- stage cycle in which it wants the next point -/
  want : Nat
  /-- points still to pass, each with the cycles from the one before it -/
  path : List (Nat × MeshPoint)
deriving DecidableEq, Repr

/-- A line that SEND hands to the router of its core (R139, R143). -/
structure SentLine where
  target : Nat
  line : Nat
  data : Line
  /-- stage cycle in which it enters that router -/
  enters : Nat
deriving DecidableEq, Repr

/-- One core. -/
structure Core where
  gated : Bool := true
  /-- Core cycle; 0 at reset (DESIGN CHOICE, log 6). -/
  cycle : Nat := 0
  /-- Tile memory (R35) (DESIGN CHOICE, log 2). -/
  tile : Mem := []
  /-- flipped bits of a stored 72-bit word, by word index: bits 63 to 0 data, 71 to 64 check bits (R38) -/
  flips : Table (BitVec 72) := []
  /-- Accumulators, by window and cell (R43, R48) (DESIGN CHOICE, log 6). -/
  cells : Table Cell := []
  runs : List Run := []
  marks : List RunMark := []
  drains : List Drain := []
  /-- Vector registers (DESIGN CHOICE, log 6). -/
  vregs : Table Line := []
  /-- Mask sets (R41) (DESIGN CHOICE, log 6). -/
  msets : Table (BitVec 160) := []
  /-- Cast descriptors (R138) (DESIGN CHOICE, log 6). -/
  cdescs : Table (BitVec 128) := []
  agenTable : List Nat := List.replicate 16 0
  /-- The attention descriptor in force (R113) (DESIGN CHOICE, log 6). -/
  agenDesc : DWord := 0
  vop : Option VecOp := none
  /-- the VLD of the cycle in hand: register and line (R139) -/
  vld : Option (Nat × Nat) := none
  /-- the VAGEN.TABLE of the cycle in hand: line and AUX (R112) -/
  table : Option (Nat × Nat) := none
  mop : Option SendOp := none
  cop : Option LoadOp := none
  /-- results on their way, in the order they were issued -/
  landings : List Landing := []
  /-- The part store, by bundle (R126) (DESIGN CHOICE, log 6). -/
  part : Table (BitVec 256) := []
  /-- ENTRY of the part (R127) (DESIGN CHOICE, log 6). -/
  entry : Nat := 0
  addr : Nat := 0
  /-- (first, last, passes left) of the loops entered, innermost first (R141) -/
  loops : List (Nat × Nat × Nat) := []
  ended : Bool := true
  /-- a PARTEND issues in the cycle in hand: the part ends with it (R128) -/
  ending : Bool := false
  /-- slots of the bundle in hand that have issued: bit 3 matrix, 2 vector, 1 move, 0 control (R129) -/
  issued : BitVec 4 := 0
  /-- the part-store line that the sequencer has fetched, with its bundles; none where it must fetch (R149) -/
  line : Option (Nat × List (BitVec 256)) := none
  /-- part-store lines overwritten less than four cycles before a fetch could see it: first core cycle whose fetch sees the write, line,
  and what stood there before (R149) -/
  partOld : List (Nat × Nat × List (BitVec 256)) := []
  reservedLogged : Bool := false
  rmon : Table RmSlot := []
  resCount : BitVec 16 := 0
  resArray : BitVec 2 := 0
  resRow : BitVec 5 := 0
  resWindow : Bool := false
  resFlag : Bool := false
  resRows : Word := 0
  ceCount : BitVec 16 := 0
  ueCount : BitVec 8 := 0
  eccBank : BitVec 6 := 0
  stalls : Word := 0
  /-- stall cycles since the script started: the stage cycle of core cycle c is c + lag (R118) -/
  lag : Nat := 0
  /-- fixed accesses to come: stage cycle, write port or port B, bank (R37) -/
  fixed : List (Nat × Bool × Nat) := []
  /-- core accesses of the cycle in hand: order, port (0 write, 1 A, 2 B), line (R37) -/
  acc : List (Nat × Nat × Nat) := []
  /-- accesses of the core cycle in hand that still wait, none outside a stall (R37) -/
  waiting : List (Nat × Nat × Nat) := []
  /-- inbound tile lines to come: stage cycle, line, data (R36) -/
  incoming : List (Nat × Nat × Line) := []
  /-- in a stall: what an access already served has read from a line that an inbound line has overwritten since: order, line, data (R37) -/
  seen : List (Nat × Nat × Line) := []
  /-- in a stall: inbound lines that came after a core's write to the same line had been served (R37) -/
  again : List (Nat × Line) := []
  /-- commits at which uncorrected core faults were found (R461) -/
  faultCommits : List Nat := []
  /-- spare tile rows taken, by bank (R459) (DESIGN CHOICE, log 3) -/
  tileSpares : Table Nat := []
  /-- free values drawn by this core (DESIGN CHOICE, log 1) -/
  free : Nat := 0
  /-- records raised, lines sent, counts and increments made by the command in hand; the core's command empties them -/
  errs : List ErrRec := []
  out : List SentLine := []
  incs : List (Nat × BitVec 8 × Nat) := []
  nonfinite : Nat := 0
  faults : Nat := 0
deriving DecidableEq, Repr

/-- ROLE, LROW and LCOL of CORE_STATE (R62). -/
structure CoreRole where
  role : BitVec 2
  lrow : Nat
  lcol : Nat
deriving DecidableEq, Repr

/-! ### The script image (chapters 05, 07, 08, 14) -/

/-- A part header (R126). -/
structure PartHdr where
  lrow : Nat
  lcol : Nat
  entry : Nat
  /-- DRAM address of the first bundle -/
  addr : Nat
  bundles : Nat
deriving DecidableEq, Repr

/-- A fly command (R147). -/
structure FlyCmd where
  issue : Nat
  kind : Nat
  lrow : Nat
  lcol : Nat
  line : Nat
  count : Nat
  dram : Nat
  stride : Nat
deriving DecidableEq, Repr

structure FlyProg where
  engine : Nat
  cmds : List FlyCmd
deriving DecidableEq, Repr

/-- A hold-table entry (R155). -/
structure HoldEntry where
  stepCycle : Nat
  kind : Nat
  ports : Nat
  cond : Nat
  gen : BitVec 8
  index : Nat
  value : Word
  warnMs : Nat
deriving DecidableEq, Repr

/-- A chunk entry (R209). -/
structure Chunk where
  issue : Nat
  lines : Nat
  srcKind : Nat
  dstKind : Nat
  tail : Bool
  dist : Int
  src : Nat
  dst : Nat
  count : Nat
  send : Bool
  recv : Bool
deriving DecidableEq, Repr

/-- A collective plan (R208) with its chunk entries. -/
structure Plan where
  id : Nat
  permute : Bool
  format : Nat
  /-- axes in order: 0 T, 1 Q, 2 P, 3 D -/
  axes : List Nat
  owned : Bool
  ctrIndex : Nat
  ctrGen : BitVec 8
  amount : Nat
  chunks : List Chunk
deriving DecidableEq, Repr

/-- An update program (R244). -/
structure UpdProgram where
  length : Nat
  block : Bool
  cast : BitVec 128
  consts : List Word
  code : List DWord
deriving DecidableEq, Repr

/-- A shard entry (R245). -/
structure Shard where
  engine : Nat
  program : Nat
  fields : Nat
  gbf16 : Bool
  digest : Bool
  nocopy : Bool
  slot : Nat
  elements : Nat
  base : Nat
  bankA : Nat
  bankB : Nat
  copy : Nat
  tensor : Nat
  start : Nat
deriving DecidableEq, Repr

/-- The UPDATE section (R243). -/
structure UpdSection where
  initialBank : Bool
  digestShards : Nat
  digestEvery : Nat
  digestPlan : Nat
  curtainPlan : Nat
  curtainChunk : Nat
  ctrIndex : Nat
  ctrGen : BitVec 8
  headerA : Nat
  headerB : Nat
  tailRecord : Nat
  digestSrc : Nat
  digestDst : Nat
  recastCycles : Nat
  recastFirst : Nat
  recastLast : Nat
  programs : List UpdProgram
  shards : List Shard
deriving DecidableEq, Repr

/-- The RMON header (R514). -/
structure RmonMap where
  base : Nat
  depthLog2 : Nat
  ctrIndex : Nat
  ctrGen : BitVec 8
deriving DecidableEq, Repr

/-- A backing entry of DECLARE (R513). -/
structure Backing where
  lrow : Nat
  lcol : Nat
  tileLine : Nat
  lines : Nat
  dram : Nat
deriving DecidableEq, Repr

/-- A loaded image (R119, R120). -/
structure Image where
  addr : Nat
  length : Nat
  coreCount : Nat
  rows : Nat
  cols : Nat
  axes : List Nat
  seed : Nat
  stepCycles : Nat
  parts : List PartHdr
  fly : List FlyProg
  holds : List HoldEntry
  plans : List Plan
  update : Option UpdSection
  initialOp : Nat
  phases : List (Nat × Nat)
  rmon : Option RmonMap
  /-- range-monitor assignments: update engine, index, slot, and the slot's initial content -/
  rmonSlots : List (Bool × Nat × Nat × RmSlot)
  masks : Table DWord
  inputs : List (Nat × Nat)
  wings : List (Nat × Nat)
  backed : List Backing
deriving DecidableEq, Repr

/-! ### A company's stage -/

/-- SEQ_STATUS.STATE (R164). -/
inductive ScriptState where
  | empty | loaded | armed | running | held | stopped
deriving DecidableEq, Repr

/-- What the stage is doing while it runs: a step, a recast phase (R261) or a re-shard phase (R228). -/
inductive StagePhase where
  | step | recast | reshard | reshardWait
deriving DecidableEq, Repr

/-- The sequencer of a company (R117, R163 to R166). -/
structure Seq where
  state : ScriptState := .empty
  refusal : Byte := 0
  overrun : Bool := false
  stageCycle : DWord := 0
  step : BitVec 48 := 0
  attempt : BitVec 16 := 0
  stepCycle : BitVec 40 := 0
  startEpoch : DWord := 0
  startStep : BitVec 48 := 0
  stopArmed : Bool := false
  phase : StagePhase := .step
  /-- stage cycle 0 has been reached, and its barrier has not yet been passed -/
  starting : Bool := false
  /-- an attempt of a step has ended since stage cycle 0 (R447) -/
  stepped : Bool := false
  /-- cue epochs completed since stage cycle 0 -/
  epochs : Nat := 0
  /-- the hold-table entry that comes next in this step -/
  nextHold : Nat := 0
  entry : BitVec 12 := 0
  pendingPorts : Byte := 0
  met : Bool := false
  held : Bool := false
  /-- wall time at which the hold in progress began, and whether its handle was stale then (R161) -/
  heldSince : Nat := 0
  heldStale : Bool := false
  holdNs : DWord := 0
  longLogged : Bool := false
  /-- RELEASE frames received: port, entry, low step bits (R158) -/
  releases : List (Nat × BitVec 12 × BitVec 16) := []
  /-- the stage waits at a cue barrier (R188, R189) -/
  waiting : Bool := false
  /-- ports whose marker the barrier in hand waits for (R188, R190) -/
  waitPorts : List Nat := []
  /-- plans that logged COL_COUNT_CLIPPED and programs that logged UPD_CODE_RESERVED in this step -/
  clipped : List Nat := []
  codeLogged : List Nat := []
  /-- ports for which this step has counted its fault (R190), and those whose MARKER of the next boundary has left (R188) -/
  deadPorts : List Nat := []
  /-- bank B was committed when the step began (R292) -/
  stepBank : Bool := false
  marked : List Nat := []
  /-- the curtain of the step in progress has acted (R407) -/
  curtainActed : Bool := false
  /-- step cycle of the running or last re-shard or recast phase -/
  phaseCycle : Nat := 0
  image : Option Image := none
deriving DecidableEq, Repr

/-- TOR company set (R204). -/
structure TorCo where
  epoch : DWord := 0
  barrierNs : DWord := 0
  meshWaits : Word := 0
deriving DecidableEq, Repr

/-- MON registers of a company (R89, R90) and the report on its way (R86). -/
structure Mon where
  syncCtr : BitVec 16 := 0
  depth : BitVec 3 := 0
  valid : Bool := false
  lastEntry : BitVec 6 := 0
  base : BitVec 48 := 0
  repStep : BitVec 48 := 0
  repAttempt : BitVec 16 := 0
  /-- reports not yet landed: step, attempt, bytes -/
  pending : List (Nat × Nat × List Byte) := []
deriving DecidableEq, Repr

/-- A stage write that Bexco schedules after the curtain, or the TAIL_RECORD write (R256, R258). -/
structure PostedWrite where
  addr : Nat
  data : List Byte
deriving DecidableEq, Repr

/-- UPD_STATUS.VERDICT (R271). -/
inductive Verdict where
  | none | commit | skip | incomplete
deriving DecidableEq, Repr

/-- The curtain unit (R254 to R274). -/
structure Upd where
  verdict : Verdict := .none
  committed : Bool := false
  diverged : Bool := false
  tailSeen : Bool := false
  commits : DWord := 0
  digest : DWord := 0
  nonfinite : Word := 0
  faults : Word := 0
  skipsRun : Word := 0
  skipsTotal : Word := 0
  lateNonfinite : Word := 0
  substituted : Word := 0
  /-- power registers: program n, register j at 4n + j (R262) (DESIGN CHOICE, log 6) -/
  powers : Table Word := []
  /-- constants in force: program n, K i at 16n + i (R244, R267) (DESIGN CHOICE, log 6) -/
  consts : Table Word := []
  passDigest : DWord := 0
  /-- the 32 entries of the curtain tail captured (R256) -/
  tail : List DWord := []
  placedNonfinite : Word := 0
  placedFaults : Word := 0
  digestDue : Bool := false
  recastArmed : Bool := false
  posted : List PostedWrite := []
  curtainPostDue : Bool := false
  /-- every shard's pass was completed by a restore (R298) -/
  restored : Bool := false
deriving DecidableEq, Repr

/-- A chunk of a plan in progress (R212 to R220): its lines as this module holds them. -/
structure ActiveChunk where
  plan : Nat
  index : Nat
  chunk : Chunk
  /-- contribution, partial or result lines by line index; the tail follows the last line -/
  lines : Table Line := []
  /-- source lines still to be read, in the order of R215, and the stage cycle from which the next one may be -/
  fetch : List Nat := []
  fetchAt : Nat := 0
  /-- accesses made of a line that is read from DRAM (R207) -/
  reads : Table Nat := []
  /-- permute: lines that carry data (R219), transmit positions used, and whether the first has been -/
  count : Nat := 0
  used : Nat := 0
  occupying : Bool := false
  /-- lines delivered on this module, and the stage cycle of the latest event (R216) -/
  delivered : Nat := 0
  lastEvent : Nat := 0
  /-- a line of the company has been lost while the chunk was in progress (R183) -/
  short : Bool := false
deriving DecidableEq, Repr

/-- A line that waits for its four access slots in DRAM (R207). -/
structure LineWrite where
  addr : Nat
  data : Line
  /-- stage cycle from which it may be written, and accesses made -/
  due : Nat
  access : Nat := 0
deriving DecidableEq, Repr

/-- RESHARD_STATE and RESHARD_RESULT (R234). -/
structure Col where
  reshardState : BitVec 2 := 0
  reshardResult : BitVec 2 := 0
  plans : BitVec 11 := 0
  chunks : DWord := 0
  clippedLines : Word := 0
  clippedChunks : Word := 0
  /-- next chunk of a plan, by PLAN_ID -/
  next : Table Nat := []
  active : List ActiveChunk := []
  /-- staged re-shard: plans, phase epochs, counter handle -/
  reshard : Option (List Plan × Nat × Nat × BitVec 8) := none
  /-- lines of the re-shard received, by plan and chunk (65,536 chunks to a plan) -/
  got : Table Nat := []
  /-- result lines for update engines: engine, stage cycle of the hand-over, line (R207) -/
  forEngine : List (Nat × Nat × Line) := []
  /-- the curtain tail delivered and not yet captured, and the stage cycle of its delivery (R256) -/
  tail : Option (Nat × Line) := none
  /-- result lines for DRAM, oldest first (R207) -/
  writes : List LineWrite := []
deriving DecidableEq, Repr

/-! ### Snapshots (chapter 09) -/

/-- A bank list (R275). -/
structure BankList where
  lines : Nat
  imageA : Nat
  imageB : Nat
  company : Nat
  coord : Word
  records : List (Nat × Nat × Nat)
deriving DecidableEq, Repr

/-- A stream in progress: a shadow snapshot (R278 to R283) or an anchor export (R331). -/
structure Stream where
  /-- 0 snapshot, 1 anchor export -/
  kind : Nat
  commits : DWord
  /-- the bank, or round copy, whose lines are read -/
  bank : Bool
  list : BankList
  /-- the captured 512-byte bank header, or the export header -/
  header : List Byte
  /-- 64-byte accesses of the bank's lines asked for (R278) -/
  asked : Nat := 0
  /-- payload bytes that have gone into blocks, blocks made, running CRC-32 register of the payload -/
  read : Nat := 0
  blocks : Nat := 0
  crc : Word := BitVec.allOnes 32
  readsDone : Bool := false
  /-- bytes made and not yet out, and bytes out -/
  buf : List Byte := []
  sent : Nat := 0
  /-- blocks not yet out: the stream byte and the payload byte after each; and payload bytes whose blocks are out (R281) -/
  marks : List (Nat × Nat) := []
  outRead : Nat := 0
  /-- RESULT of the trailer, once made -/
  result : Option Byte := none
  begun : Bool := false
  /-- stream bytes made so far, sealed or still in the cipher engine -/
  made : Nat := 0
  /-- the seal record is in the buffer, or the message has been abandoned (R359, R362) -/
  sealed : Bool := false
  /-- the stream was ended before its header was made (R283) -/
  cut : Bool := false
  queue : Nat
  queueGen : BitVec 8
  dest : BitVec 2
  cipher : BitVec 9
  pack : Bool
  width : BitVec 2
  /-- the destination was lost with the trailer made but not out (R283) -/
  dead : Bool := false
  reply : Option Pkt := none
deriving DecidableEq, Repr

/-- PAK set of a company (R276, R288, R289). -/
structure Pak where
  enable : Bool := false
  every : Nat := 1
  dest : BitVec 2 := 0
  queue : Nat := 0
  queueGen : BitVec 8 := 0
  cipher : BitVec 9 := 0x1FF#9
  pack : Bool := false
  width : BitVec 2 := 0
  cause : BitVec 4 := 0
  aborted : Bool := false
  guard : Bool := false
  started : DWord := 0
  finished : DWord := 0
  holdNs : DWord := 0
  /-- the bank list of LIST_ADDR, as read when the setting took effect -/
  list : Option BankList := none
  /-- streams not yet out, oldest first -/
  streams : List Stream := []
deriving DecidableEq, Repr

/-! ### Far exchange (chapter 10) -/

/-- A parcel's shard entry (R310). -/
structure Parcel where
  shard : Nat
  cls : Nat
  k : Nat
  round0 : Nat
  round1 : Nat
  out0 : Nat
  out1 : Nat
  slots : Nat
deriving DecidableEq, Repr

/-- A peer table entry (R311). -/
structure Peer where
  address : BitVec 128
  udp : BitVec 16
  port : Bool
deriving DecidableEq, Repr

/-- The round table (R309). -/
structure RoundTable where
  run : Word
  site : Nat
  sites : Nat
  leader : Nat
  carry : Bool
  h : Nat
  land : Nat
  quorum : Nat
  stale : Word
  mu : Word
  eta : Word
  deadlineMs : Nat
  hardMs : Nat
  retxMs : Nat
  gateways : Nat
  gatewayIndex : Nat
  channel : Nat
  roundBase : Nat
  commitsBase : Nat
  holds : List Nat
  ctrs : List Nat
  gens : List (BitVec 8)
  replay : Bool
  formStart : Nat
  applyStart : Nat
  ledger : Nat
  ledgerLog2 : Nat
  ledgerQueue : Nat
  ledgerGen : BitVec 8
  voteSrc : Nat
  inbox : Nat
  parcels : List Parcel
  peers : List Peer
deriving DecidableEq, Repr

/-- FAR_STATUS.PHASE (R339). -/
inductive FarPhase where
  | idle | form | sealing | send | exchange | landing | opening | apply | install
deriving DecidableEq, Repr

/-- A decision record (R324). -/
structure Decision where
  round : Nat := 0
  verdict : Byte := 0
  gateway : Nat := 0
  current : Word := 0
  prior : Word := 0
  elapsedMs : Word := 0
deriving DecidableEq, Repr

/-- A CFX stream received: its round, sender site, whether a decision, its segments by index, its segment count (R320, R323). -/
structure InStream where
  round : Nat
  site : Nat
  decide : Bool
  segs : Nat
  data : Table (List Byte)
  seen : List Nat
deriving DecidableEq, Repr

/-- A CFX stream sent: kind, round, destination site, segments and those not yet acknowledged (R323). -/
structure OutStream where
  kind : Nat
  round : Nat
  site : Nat
  segments : List (List Byte)
  unacked : List Nat
  /-- wall time at which the stream began, and 1 + that at which a segment last left -/
  firstNs : Nat
  sentNs : Table Nat
  stopped : Bool
deriving DecidableEq, Repr

/-- The far run of a company (R306 to R340). -/
structure Far where
  table : Option RoundTable := none
  phase : FarPhase := .idle
  site : BitVec 4 := 0
  leader : BitVec 4 := 0
  gateway : Bool := false
  resync : Bool := false
  replay : Bool := false
  policy : Bool := false
  copy : Bool := false
  deferred : Bool := false
  /-- round in progress, or the last installed one -/
  round : BitVec 40 := 0
  inRound : Bool := false
  /-- step counter, attempt and COMMITS at the round curtain -/
  s0 : Nat := 0
  a0 : Nat := 0
  c0 : DWord := 0
  installed : Nat := 0
  reloaded : Bool := false
  decision : Option Decision := none
  prior : Option Decision := none
  /-- vote vector as written, and as summed -/
  votes : Table Nat := []
  tagFails : Nat := 0
  formDone : Bool := false
  applied : Bool := false
  inStreams : List InStream := []
  outStreams : List OutStream := []
  /-- ledger stream bytes not yet in the ring of LEDGER_QUEUE (R332), and taken from it in a replay (R333) -/
  ledgerBuf : List Byte := []
  replayBuf : List Byte := []
  /-- ENABLED of FAR_STATUS, which a load does not change, and the table of the last run (R307, R331, R336) -/
  enabled : Bool := false
  lastTable : Option RoundTable := none
  /-- FAR_JOIN has come and no run has been installed since (R331) -/
  joined : Bool := false
  /-- wall time at which the own site's contribution was complete in the inbox (R325) -/
  t0 : Option Nat := none
  /-- items of the phase in hand that the FAR unit has read, and that the cipher engine has finished (R317, R320, R328) -/
  taken : Nat := 0
  finished : Nat := 0
  /-- the own site's contribution as read from the inbox so far (R320) -/
  own : List Byte := []
  /-- the own decision record, sealed and not yet sent (R324) -/
  record : Option (List Byte) := none
  /-- the round's record has been given to the cipher engine (R324) -/
  recordAsked : Bool := false
  /-- the slots of R326, or the vote vector of R328, have been handed over to be written -/
  put : Bool := false
  /-- the decision record read from the owner's slots (R326) -/
  ownerRecord : Option Decision := none
  /-- wall time of the last ACK timer (R323) -/
  ackNs : Nat := 0
  retx : Word := 0
  badFrames : BitVec 16 := 0
  badLoggedNs : Option Nat := none
  /-- wall times of the datagrams discarded in the last second (R321, R337) -/
  badTimes : List Nat := []
  missedRounds : BitVec 16 := 0
deriving DecidableEq, Repr

/-! ### Configuration transactions (R405 to R409) -/

structure OpenTxn where
  id : Word
  curtain : Bool
  timeoutS : Nat
  begunNs : Nat
  staged : List Instr
deriving DecidableEq, Repr

structure CommittedTxn where
  id : Word
  /-- the step whose curtain applies it; none in epoch mode -/
  step : Option (BitVec 48)
  ctr : Option (Nat × BitVec 8)
  staged : List Instr
deriving DecidableEq, Repr

structure Txns where
  count : Nat := 0
  opened : Option OpenTxn := none
  committed : List CommittedTxn := []
  aborted : List Word := []
deriving DecidableEq, Repr

/-- A grant of consecutive indices (R371). -/
structure Range where
  first : Nat
  count : Nat
deriving DecidableEq, Repr

/-- A core rectangle (R371, R373). -/
structure Rect where
  row0 : Nat
  col0 : Nat
  rows : Nat
  cols : Nat
deriving DecidableEq, Repr

/-- One company (R370, R371) with its sets of registers. -/
structure Co where
  present : Bool := false
  function : Nat := 0
  rect : Option Rect := none
  quarters : BitVec 48 := 0
  queues : Option Range := none
  counters : Option Range := none
  watches : Option Range := none
  keySlots : Option Range := none
  chans : Option Range := none
  contexts : Nat := 0
  /-- torus lane grants: port, first lane, lanes -/
  lanes : List (Nat × Nat × Nat) := []
  /-- far-port shares: port, 64ths -/
  farShare : List (Nat × Nat) := []
  seq : Seq := {}
  tor : TorCo := {}
  mon : Mon := {}
  upd : Upd := {}
  col : Col := {}
  pak : Pak := {}
  far : Far := {}
  txn : Txns := {}
  synStale : Word := 0
  synBlocked : BitVec 16 := 0
  synLost : BitVec 16 := 0
  /-- watch messages waiting for space: queue, watch generation, watch, entry bytes (R398) -/
  watchPending : List (Nat × BitVec 8 × Nat × List Byte) := []
  energy : DWord := 0
  /-- energy in µJ attributed since the last measurement (R456) -/
  received : Nat := 0
  /-- telemetry: queue, generation, period in ms, wall time of the last entry (R415) -/
  telemetry : Option (Nat × BitVec 8 × Nat × Nat) := none
deriving DecidableEq, Repr

/-! ### DRAM, fly engines, update engines -/

/-- The bank state of one channel (R150 to R153, R515): times are command slots of the channel. -/
structure Channel where
  /-- open row by bank: 0 closed, row + 1 open -/
  rows : Table Nat := []
  activatedAt : Table Nat := []
  accessedAt : Table Nat := []
  prechargedAt : Table Nat := []
  /-- slot from which the bank accepts a command after its refresh -/
  freeAt : Table Nat := []
  lastRefreshed : Option Nat := none
  /-- the first stage slot that the channel has not used or passed -/
  slot : Nat := 0
  /-- the same while the stage stands still: slots elapsed since it stopped (R157); the bank times then count elapsed slots too -/
  heldSlot : Nat := 0
  waiting : List WingsReq := []
  /-- rows open at a hold's entry, reopened at release (R157) -/
  reopen : List (Nat × Nat) := []
deriving DecidableEq, Repr

/-- A fly engine (R147, R148). -/
structure Fly where
  next : Nat := 0
  active : Option FlyCmd := none
  /-- stage cycle from which the active command may access DRAM -/
  startAt : Nat := 0
  line : Nat := 0
  access : Nat := 0
  buffer : Line := 0
  /-- KIND 0x02: the line's bytes are in hand, and the stage cycle from which they may be written -/
  ready : Option Nat := none
  /-- stage cycle in which the last access of the command before began -/
  lastAccess : Nat := 0
deriving DecidableEq, Repr

/-- Elements in an engine's pipeline: group count entered, their gradients and the bank fields read (R237, R249). -/
structure PipeLine where
  shard : Nat
  /-- first element of the line in the shard -/
  first : Nat
  grads : List Word
  fields : List (List Word)
  /-- U5 at entry: the shift of a round to install (R330); +0.0 beyond the list -/
  shift : List Word
  /-- stage cycle in which the line entered (R252 step 3) -/
  entered : Nat
deriving DecidableEq, Repr

/-- An access that an update engine has still to write: at most 64 bytes within one 64-byte unit of DRAM (R240, R252 step 4). -/
structure EngineWrite where
  addr : Nat
  data : List Byte
  /-- stage cycle from which it may be written -/
  due : Nat
deriving DecidableEq, Repr

/-- An update engine (R236 to R238, R252, R261). -/
structure Engine where
  /-- gradient lines, each with the stage cycle of its hand-over -/
  buffer : List (Nat × Line) := []
  /-- shards of this engine treated so far in the step or recast phase, and lines (groups) taken of the present one -/
  shard : Nat := 0
  started : Bool := false
  linesTaken : Nat := 0
  /-- the engine recasts working copies (R261) -/
  recast : Bool := false
  /-- stage cycle from which bank reads of the present shard may begin -/
  startAt : Nat := 0
  /-- bank accesses of the present shard that have been read, by 64-byte unit of the bank, each with the stage cycle of its slot -/
  units : Table (Option (Nat × BitVec 512)) := []
  /-- stage cycle from which the pipeline takes another line (R237) -/
  entryFree : Nat := 0
  pipe : List PipeLine := []
  /-- copy bytes that do not fill a 64-byte access yet, and their address (R240) -/
  copyBuf : List Byte := []
  copyAddr : Nat := 0
  writes : List EngineWrite := []
  rmon : Table RmSlot := []
deriving DecidableEq, Repr

/-! ### Torus -/

/-- Port states (R191). -/
inductive PortState where
  | down | training | identifying | accepted | measured | active | retraining | repointing | disabled
deriving DecidableEq, Repr

/-- An identity claimed on a port (R180): serial, island, coordinate, port number. -/
structure Ident where
  serial : DWord := 0
  island : Word := 0
  coord : Word := 0
  nport : BitVec 4 := 0
deriving DecidableEq, Repr

/-- A torus line in a receive buffer or a send queue (R179). -/
structure TorLine where
  company : Nat
  plan : Nat
  place : LinePlace
  /-- receive: stage cycle of the hand-over; send: stage cycle from which it is ready -/
  due : Nat
  /-- receive: cycles by which it is handed over late (R182) -/
  late : Nat := 0
  /-- send: ISSUE of the chunk and the transfer of R212, which order the lines (R215) -/
  issue : Nat
  rank : Nat
  forwarded : Bool
  /-- send: a position of a permute after its count, which carries no line (R219) -/
  blank : Bool := false
  data : Line
deriving DecidableEq, Repr

/-- One torus port (R176 to R204). -/
structure Port where
  state : PortState := .down
  moved : Bool := false
  swapPending : Bool := false
  swapLane : BitVec 5 := 0
  nbrLocked : Bool := false
  apr : Bool := false
  spareFor : BitVec 4 := 0xF#4
  ident : Option Ident := none
  candidate : Option Ident := none
  candCount : Nat := 0
  latOp7 : BitVec 16 := 0
  latTenth : BitVec 16 := 0
  /-- the measurement of R480 has been made -/
  measured : Bool := false
  /-- a measurement is due before the port can be ACTIVE again (R193) -/
  latDue : Bool := false
  corrected : Word := 0
  lost : BitVec 16 := 0
  late : BitVec 8 := 0
  overflow : BitVec 8 := 0
  recv : List TorLine := []
  txq : List TorLine := []
  /-- by company, 1 + the stage cycle of its last transmit position (R178) -/
  sentAt : Table Nat := []
  seqTx : Table (BitVec 16) := []
  seqRx : Table (BitVec 16) := []
  /-- markers held: company, epoch low bits (R188) -/
  markers : List (Nat × Word) := []
  /-- Light on the port's fibre (PRESUMED, log 19). -/
  light : Bool := false
  lasers : Bool := false
  lockState : BitVec 3 := 0
  lockHops : BitVec 8 := 0xFF#8
  child : Bool := false
  /-- HOUSE frames received for boundaries to come: house epoch and running minimum (R187, R450) -/
  houseSeen : List (DWord × BitVec 3) := []
  /-- house epoch whose HOUSE frame left last (R187) -/
  houseSent : Option DWord := none
  /-- lanes that have lost signal since the last swap (R193) -/
  failedLanes : List Nat := []
  /-- expected serial and coordinate of a pending TOR_REPOINT, its packet, and the wall time of its timeout (R194) -/
  repoint : Option (DWord × Word × Pkt × Nat) := none
  /-- a TOR_REPOINT of this port has answered FAULT (R194) -/
  barred : Bool := false
  swapCmd : Option Pkt := none
  /-- serial expected in place of the sheet's after a TOR_REPOINT (R477) -/
  expectSerial : Option DWord := none
  /-- identity for which ISL_OVERRIDE was given (R478) -/
  overridden : Option Ident := none
  /-- sums of this port's child received in the census round (R482) -/
  childSum : Option (Nat × Nat × Nat) := none
deriving DecidableEq, Repr

/-- A frame the module sends on a torus port (R179, R180). -/
inductive Frame where
  | line (company plan : Nat) (seq : BitVec 16) (sendCycle : BitVec 16) (data : Line) (crc : Word)
  | marker (company : Nat) (epoch : Word)
  | release (company : Nat) (entry : BitVec 12) (step : BitVec 16)
  | identity (serial : DWord) (island coord : Word) (port : Nat)
  /-- the turnaround time reported, in 0.1 ns (R184) -/
  | echo (turnaround : Nat)
  | probe
  | lock (state : BitVec 3) (hops : BitVec 8) (parentBit : Bool)
  | house (epoch : DWord) (minimum : BitVec 3)
  | swap (lane : BitVec 5)
  | repoint
  | restoreOffer (company : Nat) (lines : Nat)
  /-- the CRC-32 of all lines, and the header of the sender's own committed bank (R297, R298) -/
  | restoreEnd (company : Nat) (crc : Word) (header : List Byte)
  | censusStart (round : Nat) (revision : Word)
  | censusSum (members ready disagree : Nat)
  | censusResult (revision : Word) (ready disagree : Nat)
  | pulse
deriving DecidableEq, Repr

/-- TOR_LOCK and the house timebase (R185 to R187, R198, R199). -/
structure Tor where
  hops : BitVec 8 := 0xFF#8
  parent : BitVec 4 := 0xF#4
  /-- the parent before a holdover (R196) -/
  lastParent : BitVec 4 := 0xF#4
  root : Bool := false
  lockState : BitVec 3 := 0
  houseEpoch : DWord := 0
  /-- wall time at which the house epoch began (R422) -/
  epochNs : Nat := 0
  everLocked : Bool := false
  holdoverLogged : Bool := false
  ports : Table Port := []
  tx : List (Nat × Frame) := []
deriving DecidableEq, Repr

/-! ### Island -/

/-- A call-sheet entry (R472). -/
structure SheetEntry where
  serial : DWord
  coord : Word
  role : BitVec 2
deriving DecidableEq, Repr

/-- A call sheet in force (R472). -/
structure Sheet where
  coreCount : Nat
  island : Word
  axes : List Nat
  active : Nat
  understudies : Nat
  revision : Word
  root : DWord
  entries : List SheetEntry
deriving DecidableEq, Repr

/-- GLB_ISLAND and GLB_CENSUS (R492, R493), the module's place and the census round (R482). -/
structure Island where
  sheet : Option Sheet := none
  role : BitVec 2 := 0
  coord : Word := 0xFFFFFFFF#32
  island : Word := 0
  censusRevision : Word := 0
  censusReady : BitVec 16 := 0
  censusDisagree : BitVec 8 := 0
  ready : Bool := false
  round : Nat := 0
  roundRevision : Option Word := none
  /-- when this module began its last round (R482) -/
  roundNs : Option Nat := none
  /-- the census contribution has been asked for and not yet passed on -/
  summing : Bool := false
  failedSerial : DWord := 0
  adopted : Bool := false
deriving DecidableEq, Repr

/-! ### Restore (R295 to R299, R304) -/

structure RestoreSession where
  sending : Bool
  company : Nat
  port : Nat
  /-- TARGET or SOURCE bit -/
  image : Bool
  bank : Bool
  list : BankList
  /-- lines sent or written so far, and the running CRC-32 register over them -/
  count : Nat := 0
  crc : Word := BitVec.allOnes 32
  /-- sender: 1 + the stage cycle of its last transmit position -/
  sentAt : Nat := 0
  /-- receiver: wall time of its timeout (R297) -/
  deadline : Nat := 0
  cmd : Pkt
deriving DecidableEq, Repr

structure Restore where
  lines : Word := 0
  company : BitVec 4 := 0
  port : BitVec 3 := 0
  state : BitVec 4 := 0
  /-- restores in progress, at most one to a port; the fields above show the one begun last (R304) -/
  sessions : List RestoreSession := []
  /-- bank headers received for a company that has no UPDATE section loaded: company, bank, bytes (R298) -/
  headers : List (Nat × Bool × List Byte) := []
deriving DecidableEq, Repr

/-! ### Cipher (chapter 11) -/

structure KeySlot where
  key : BitVec 256 := 0
  use : BitVec 2 := 0
  unwrapped : Bool := false
  invocations : DWord := 0
  aged : Bool := false
deriving DecidableEq, Repr

structure Chan where
  bound : Bool := false
  slot : BitVec 6 := 0
  nonce : Bool := false
  fixed : Word := 0
deriving DecidableEq, Repr

/-- What the FAR unit has the cipher engine do (R317, R324, R328): seal a parcel or a decision record, open a record, or open a slot of a
parcel in place. -/
inductive FarItem where
  | parcel
  | record
  | decide
  /-- round and shard of the parcel, and its site -/
  | slot (round shard site : Nat)
deriving DecidableEq, Repr

/-- The client of a message (R344), and where its output goes. -/
inductive CipClient where
  | stream (company : Nat)
  /-- a DMA queue, whether to host memory, and the address -/
  | dma (queue : Nat) (toHost : Bool) (addr : Nat)
  /-- the FAR unit of a company, with the DRAM address of the output -/
  | far (company : Nat) (item : FarItem) (addr : Nat)
deriving DecidableEq, Repr

/-- A message, waiting to start or in progress (R346, R356, R357). -/
structure Message where
  chan : Nat
  client : CipClient
  opening : Bool
  /-- the nonce that the client gives; in counter mode the one that the message takes when it starts (R346) -/
  iv : BitVec 96 := 0
  aad : List Byte := []
  /-- data that the client has given so far, and whether that is all -/
  data : List Byte := []
  closed : Bool := false
  /-- bytes that have entered the pipeline -/
  done : Nat := 0
  /-- the tag to compare with when opening -/
  tag : BitVec 128 := 0
  onChip : Bool := true
  lastServed : Nat := 0
deriving DecidableEq, Repr

structure Cip where
  sealedMode : Bool := false
  locked : Bool := false
  keyData : List Word := List.replicate 8 0
  keyUse : BitVec 2 := 0
  keySlot : BitVec 6 := 0
  slots : Table KeySlot := []
  chans : Table Chan := []
  msgs : List Message := []
  /-- messages that wait to start, oldest first -/
  waiting : List Message := []
  /-- the context area: wrapped context by channel, as (reset count, context bytes) (R356) -/
  area : Table (List Byte) := []
  /-- The channel served last, 0 before the first (R357) (PRESUMED, log 19). -/
  lastServed : Nat := 0
  serveCount : Nat := 0
deriving DecidableEq, Repr

/-! ### Queues and sync (chapter 12) -/

/-- A DMA descriptor in progress (R390, R391). -/
structure DmaOp where
  raw : BitVec 512
  tag : Word
  status : Byte := 0
  verdict : Byte := 0
  notify : Bool
  ctr : Option (Nat × BitVec 8 × Nat)
  /-- 64-byte accesses of the source asked for, source bytes moved on, destination bytes made -/
  asked : Nat := 0
  taken : Nat := 0
  bytes : Nat := 0
  /-- source bytes of the block that PACK has in hand -/
  buf : List Byte := []
  /-- nothing more is to be read or made -/
  ended : Bool := false
deriving DecidableEq, Repr

/-- One queue (R379, R380). -/
structure Queue where
  base : BitVec 52 := 0
  mode : BitVec 2 := 0
  pair : BitVec 15 := 0
  vector : BitVec 11 := 0
  irq : Bool := false
  loc : Bool := false
  typ : BitVec 3 := 0
  depthLog2 : BitVec 5 := 4
  enable : Bool := false
  frozen : Bool := false
  gen : BitVec 8 := 0
  head : Nat := 0
  tail : Nat := 0
  stale : Word := 0
  cause : Byte := 0
  changedNs : Option Nat := none
  /-- entries waiting for space, oldest first, each with the command queue whose reply it is (R379) -/
  waiting : List (List Byte × Option Nat) := []
  dma : Option DmaOp := none
  /-- the descriptor at which a frozen DMA queue stopped (R402, R403) -/
  stopped : Option DmaOp := none
  /-- bytes of the stream that writes this ring beyond the entry at TAIL, and since its last progress entry (R392) -/
  streamOff : Nat := 0
  streamBytes : Nat := 0
  /-- streams ended without a progress entry yet -/
  streamEnds : Nat := 0
deriving DecidableEq, Repr

/-- A host read slot (R393, R399). -/
structure ReadSlot where
  /-- 0 free, 1 in flight, 2 in quarantine -/
  use : Nat := 0
  queue : Nat := 0
  gen : BitVec 8 := 0
  /-- wall time at which it was taken, or retired (R393) -/
  sinceNs : Nat := 0
deriving DecidableEq, Repr

structure Counter where
  gen : BitVec 8 := 0
  value : Word := 0
  changedNs : Option Nat := none
deriving DecidableEq, Repr

structure Watch where
  gen : BitVec 8 := 0
  ctrGen : BitVec 8 := 0
  ctrIndex : BitVec 13 := 0
  cond : BitVec 2 := 0
  persist : Bool := false
  queGen : BitVec 8 := 0
  queue : BitVec 15 := 0
  fired : Bool := false
  enable : Bool := false
  value : Word := 0
  cookie : DWord := 0
  held : Bool := false
  company : Nat := 0
  changedNs : Option Nat := none
deriving DecidableEq, Repr

/-- Who posts an increment (R395, R396). -/
inductive IncSource where
  | stage (company : Nat)
  | dma (queue : Nat)
  | engine (company : Nat) (channel : Nat)
  /-- a host register write for a company -/
  | host (company : Nat)
deriving DecidableEq, Repr

/-- An increment on its way to the sync unit: local index, generation and amount (R142, R216, R258, R395). -/
structure Inc where
  src : IncSource
  index : Nat
  gen : BitVec 8
  /-- the amount; with `reset` the value that a host write sets (R394) -/
  amount : Nat
  reset : Bool := false
deriving DecidableEq, Repr

/-- What the physical or a virtual function keeps (R91, R393, R402). -/
structure Func where
  frozen : Bool := false
  /-- completion timeout value of Device Control 2 (R393) -/
  cplTimeout : BitVec 4 := 0
  monSel : BitVec 32 := 0
  /-- MSI-X vectors signalled, newest first -/
  irqs : List Nat := []
  /-- Completion Timeouts signalled through AER -/
  aer : Nat := 0
deriving DecidableEq, Repr

/-! ### Stage manager, power, service, boot -/

/-- State of a journal entry (R418): ACCEPTED; COMMITTED with its reply not written, waiting on hardware, or with its reply waiting for
space in its completion queue (R379); REPLIED. -/
inductive JournalState where
  | accepted | committed | waiting | posting | replied
deriving DecidableEq, Repr

/-- A fetched command (R383, R418): its header, its payload bits, and what has come of it. -/
structure Journal where
  pkt : Pkt
  payload : Nat
  gen : BitVec 8
  opcode : BitVec 16
  state : JournalState := .accepted
  status : Byte := 0
  detail : Byte := 0
  result : List Byte := []
  txn : Word
deriving DecidableEq, Repr

/-- An image that is being staged (R420): where it lies, what has been read of it, its command. -/
structure FwStaging where
  addr : Nat
  length : Nat
  image : List Byte := []
  cmd : Pkt
deriving DecidableEq, Repr

/-- SM_STATUS.STATE (R434). -/
inductive SmMode where
  | booting | running | adopting | handover
deriving DecidableEq, Repr

structure Sm where
  load : BitVec 8 := 0
  decimation : BitVec 4 := 0
  lowMs : Nat := 0
  resets : BitVec 8 := 0
  staged : Bool := false
  /-- The slot that is running: B (R420) (DESIGN CHOICE, log 3). -/
  imageB : Bool := false
  mode : SmMode := .booting
  ready : Bool := false
  /-- VERSION of the image in slot A (DESIGN CHOICE, log 3). -/
  versionA : Word := 1
  /-- VERSION of the image in slot B (DESIGN CHOICE, log 3). -/
  versionB : Word := 0
  /-- The fused minimum security version (R420) (DESIGN CHOICE, log 3). -/
  minSecurity : Nat := 0
  /-- the completion journal, oldest entry first; its ACCEPTED entries are the list of R414 -/
  journal : List Journal := []
  /-- the company from 1 to 15 whose command pair M served last (R413) -/
  lastCo : Nat := 0
  /-- mean service time in ns over the last 10 ms (R414) (PRESUMED, log 19). -/
  serviceNs : Nat := 1000
  staging : Option FwStaging := none
  /-- the images in flash slots A and B (R420) (DESIGN CHOICE, log 3). -/
  flashA : List Byte := []
  /-- The image in slot B (DESIGN CHOICE, log 3). -/
  flashB : List Byte := []
  /-- image running before the hand-over, while it may fall back (R421) -/
  previous : Option Bool := none
  /-- wall time of the hand-over (R421), and of the last reading of pair M's busy share (R415) -/
  switchNs : Nat := 0
  busyNs : Nat := 0
deriving DecidableEq, Repr

structure Pwr where
  op : BitVec 3 := 0
  request : BitVec 3 := 0
  ceiling : BitVec 3 := 7
  pacer : Nat := 0
  fixed : Bool := true
  throttle : Bool := false
  /-- The ageing mode in force (R458) (DESIGN CHOICE, log 3). -/
  ageing : Bool := false
  ageingNext : Bool := false
  fixedOp : BitVec 3 := 7
  cap : BitVec 12 := 0x960#12
  gain : BitVec 16 := 0x4000#16
  inputW : BitVec 16 := 0
  railW : BitVec 16 := 0
  estimateW : BitVec 16 := 0
  hottest : BitVec 16 := 0
  dramHot : BitVec 8 := 0
  sensor : BitVec 8 := 0
  capCeil : BitVec 3 := 7
  thermCeil : BitVec 3 := 7
  /-- whether the last 1 ms interval exceeded the cap, and the last ten 1 ms means, newest first -/
  overLast : Bool := false
  history : List Nat := []
  /-- stage-clock periods stretched in the present house epoch, and those of them that droop needed -/
  stretch : Nat := 0
  drooped : Nat := 0
  warned : Bool := false
  critical : Bool := false
  throttleLogged : Bool := false
  droopLogged : Bool := false
  shutdown : Bool := false
  /-- core-rail trim in steps of 2.5 mV (PRESUMED, log 19) -/
  trim : Int := 0
  /-- wall time of the last measurement (R455) and of the last trim (R458) -/
  measuredNs : Nat := 0
  trimmedNs : Nat := 0
  /-- wall time since which a reading has been above the ceiling limit, and since which every reading has been 8 °C or more below it, each
  moved on by a step of the thermal ceiling (R457) -/
  hotNs : Option Nat := none
  coolNs : Option Nat := none
  /-- running minimum M, and island ceilings not yet applied: window n and value (R450) -/
  m : BitVec 3 := 7
  windows : List (Nat × BitVec 3) := []
deriving DecidableEq, Repr

/-- A unit armed for repair (R461): kind, physical index or channel, address. -/
structure Armed where
  kind : Nat
  phys : Nat
  addr : Nat
  /-- no spare was found for it (R463) -/
  failed : Bool := false
deriving DecidableEq, Repr

structure Rpr where
  armed : List Armed := []
  noSpare : Bool := false
  threshold : BitVec 8 := 2
  window : BitVec 16 := 0x2710#16
  /-- The repair log (R460) (DESIGN CHOICE, log 3). -/
  log : List Armed := []
  /-- corrected errors of a DRAM row within 24 h: (channel, bank, row) packed, and the times -/
  dramCounts : Table (List Nat) := []
deriving DecidableEq, Repr

/-- A line the Prompter prints (R439, R440). -/
inductive PromptLine where
  | help
  | id (ident : Word) (serial : DWord) (imageB : Bool) (version : Word)
  | status (sm : Word) (sealedMode : Bool) (vinMv : Nat) (inputW : Nat) (hottest : BitVec 16) (op : BitVec 3)
  | record (r : ErrRec)
  | port (n : Nat) (state : PortState)
  | farPort (n : Nat) (link : BitVec 2)
  | ok
  | busy
  | denied
  | value (v : Word)
  | prompt
deriving DecidableEq, Repr

structure Svc where
  /-- The service side has its supply (R437) (DESIGN CHOICE, log 4). -/
  powered : Bool := false
  baud : Nat := 115200
  locate : Bool := false
  removal : Bool := false
  safe : Bool := false
  alert : Bool := false
  uart : List PromptLine := []
  /-- the last SMBus answer; empty once the bus is released -/
  smbus : List Byte := []
  /-- mailbox frames sent across the barrier by the wings -/
  mailbox : List (BitVec 8 × List Byte) := []
  /-- JTAG pins (PRESUMED, log 19). -/
  tck : Bool := false
  tms : Bool := true
  tdi : Bool := true
  /-- The TRST_N pin (PRESUMED, log 19). -/
  trstN : Bool := false
deriving DecidableEq, Repr

/-- VIN bands of R496. -/
inductive VinBand where
  | normal | limited | lost
deriving DecidableEq, Repr

structure Boot where
  phase : BitVec 4 := 0
  elapsed : BitVec 12 := 0
  powerGoodNs : Nat := 0
  sparesUsed : BitVec 8 := 0
  failedUnit : BitVec 8 := 0
  /-- failures that self-test found: kind, physical index or channel, address (R468) -/
  found : List (Nat × Nat × Nat) := []
  /-- Module resets since power-on (DESIGN CHOICE, log 3). -/
  resetCount : Nat := 0
  powerGood : Bool := false
  /-- The rails are up (DESIGN CHOICE, log 4). -/
  railsUp : Bool := false
  perst : Bool := true
  perstReleasedEarly : Bool := false
  pcieUp : Bool := false
  vfEnable : Bool := false
  dramUp : Bool := false
  /-- The 48 V input in mV (R496) (DESIGN CHOICE, log 4). -/
  vinMv : BitVec 16 := 48000#16
  /-- Its band (R496) (DESIGN CHOICE, log 4). -/
  band : VinBand := .normal
deriving DecidableEq, Repr

structure FarPort where
  link : BitVec 2 := 0
  addrSet : Bool := false
  address : BitVec 128 := 0
  snapPeer : BitVec 128 := 0
  snapUdp : BitVec 16 := 0
  /-- snapshot segments not acknowledged: company, COMMITS and segment, when it last left, the datagram (R323) -/
  snapUnacked : List ((Nat × Nat × Nat) × Nat × List Byte) := []
  /-- The far port's lasers are on (PRESUMED, log 19). -/
  lasers : Bool := true
  /-- datagrams sent, newest first: address, UDP port, bytes -/
  tx : List (BitVec 128 × Nat × List Byte) := []
deriving DecidableEq, Repr

/-- A wings read's answer: master, address, data, error mark (R153, R154). -/
structure WingsAnswer where
  req : WingsReq
  data : BitVec 512
  error : Bool
deriving DecidableEq, Repr

/-- An access that a wings master of the module has read in a wings slot and not used yet, with its error mark (R17, R21). -/
structure WingsGot where
  master : WingsMaster
  addr : Nat
  data : BitVec 512
  error : Bool
deriving DecidableEq, Repr

/-- At most 64 bytes that a wings master of the module has still to write in a wings slot (R17). -/
structure WingsOut where
  master : WingsMaster
  addr : Nat
  data : List Byte
deriving DecidableEq, Repr

/-- The whole machine. -/
structure State where
  /-- commands waiting, oldest first -/
  pending : List Instr := []
  /-- wall time in ns: the model's clock, advanced by POWER_ESTIMATE_TICK (DESIGN CHOICE, log 5) -/
  nowNs : Nat := 0
  /-- the model's own counter of free values (DESIGN CHOICE, log 1) -/
  free : Nat := 0
  /-- The module's grade is PV8-A768 (DESIGN CHOICE, log 3). -/
  gradeA768 : Bool := false
  /-- Its optics are F2 (DESIGN CHOICE, log 3). -/
  opticsF2 : Bool := false
  /-- Its serial number (DESIGN CHOICE, log 3). -/
  serial : DWord := 1
  /-- logical grid rows (R374) -/
  grid : Nat := 25
  boot : Boot := {}
  island : Island := {}
  tor : Tor := {}
  cos : Table Co := [(0, { present := true })]
  funcs : Table Func := []
  /-- The roles that repair has given cores (R459) (DESIGN CHOICE, log 3). -/
  roles : Table (Option CoreRole) := []
  cores : Table Core := []
  /-- DRAM (DESIGN CHOICE, log 2). -/
  dram : Mem := []
  dramFlips : Table (BitVec 512) := []
  channels : Table Channel := []
  flys : Table Fly := []
  mesh : List MeshLine := []
  engines : Table Engine := []
  /-- Host memory, as far as the module reads or writes it (DESIGN CHOICE, log 2). -/
  hostMem : Mem := []
  /-- Answers of wings reads of BAR2, newest first (DESIGN CHOICE, log 91). -/
  answers : List WingsAnswer := []
  /-- wings accesses of the module's own masters: read and not used, and still to write, oldest first (R17) -/
  wingsGot : List WingsGot := []
  wingsOut : List WingsOut := []
  /-- the company whose stream the pack engine served last (R281) -/
  pakLast : Nat := 0
  /-- the DMA queue that was served last, and 64-byte accesses of its turn (R390) -/
  dmaTurn : Nat × Nat := (0, 0)
  queues : Table Queue := []
  readSlots : Table ReadSlot := []
  /-- frozen engine channels (R402) -/
  frozenChans : List Nat := []
  counters : Table Counter := []
  watches : Table Watch := []
  /-- changes of counters waiting: the dual-clock queue of the stage, DMA completions, wings engines, host writes (R395) -/
  incStage : List Inc := []
  incDma : List Inc := []
  incWings : List Inc := []
  incHost : List Inc := []
  cip : Cip := {}
  farPorts : Table FarPort := []
  restore : Restore := {}
  sm : Sm := {}
  err : ErrState := {}
  pwr : Pwr := {}
  rpr : Rpr := {}
  svc : Svc := {}
deriving DecidableEq, Repr

/-- The machine right after reset: every field at its default (PRESUMED, log 19). -/
def State.reset : State := {}

end Sys2Proof.Machine
end

