-- ==== Sys2Proof/Machine/Pipeline.lean ====
section
/-!
DEFINITION. One core, cycle by cycle (chapters 02, 04, 05): tile memory with its error correction, operand feeders, arrays, drains,
row operations, the pipelines that carry results to their cycles, and the stalls of R37.
-/

namespace Sys2Proof.Machine

/-- Bytes of tile memory per core (R35). -/
def tileBytes : Nat := 20 * 2 ^ 20

/-- Lines of tile memory per core (R35). -/
def tileLines : Nat := 81920

/-- A free value (DESIGN CHOICE, log 1). -/
def Core.draw (c : Core) : BitVec 2048 × Core := (Config.freeValue c.free, { c with free := c.free + 1 })

/-- Logs a core fault; an uncorrected one adds 1 to the step's fault count (R59, R60). -/
def Core.log (c : Core) (cls : BitVec 2) (code : BitVec 16) (detail : List (Nat × Nat)) : Core :=
  { c with errs := c.errs ++ [{ cls := cls, code := code, detail := detail }],
           faults := c.faults + (if cls = 2 then 1 else 0) }

/-- Bits set in a word. -/
def popcount {n : Nat} (w : BitVec n) : Nat := ((List.range n).filter (fun i => w.getLsbD i)).length

/-! ### Tile memory (R35 to R38) -/

/-- The detail of a tile error: bank, bank row, word of the line (R59) (DEDUCED, log 10). -/
def tileDetail (w : Nat) : List (Nat × Nat) := [(6, w / 32 % 64), (11, w / 32 / 64), (5, w % 32)]

/-- How the code takes a stored word (R38). -/
inductive EccSeen where
  /-- no error found: the data as it stands -/
  | clean (data : DWord)
  /-- one bit taken for wrong and put right -/
  | corrected (data : DWord)
  /-- the raw data -/
  | uncorrectable (data : DWord)

/-- What the code makes of word `w`. With three or more wrong bits it may find nothing, find an uncorrectable error, or put the wrong bit
right: a free value says which, and which bit (R38) (DESIGN CHOICE, log 1). -/
def Core.eccSee (c : Core) (w : Nat) : EccSeen × Core :=
  let f := tget 0 c.flips w
  let good : DWord := BitVec.ofNat 64 (leNat (mread c.tile (8 * w) 8))
  let raw := good ^^^ f.setWidth 64
  match popcount f with
  | 0 => (.clean good, c)
  | 1 => (.corrected good, c)
  | 2 => (.uncorrectable raw, c)
  | _ =>
    let (v, c) := c.draw
    (match bits v 1 0 with
      | 0 => .clean raw
      | 1 => .corrected (raw ^^^ (((1#72 <<< (bits v 8 2 % 72))).setWidth 64))
      | _ => .uncorrectable raw, c)

/-- A corrected word is logged and counted (R38, R64). -/
def Core.noteCorrected (c : Core) (w : Nat) : Core :=
  { c.log 0 0x0202#16 (tileDetail w) with ceCount := satAdd c.ceCount 1, eccBank := BitVec.ofNat 6 (w / 32) }

/-- One 64-bit word as a read returns it, with the error it logs (R38). -/
def Core.eccWord (c : Core) (w : Nat) : List Byte × Core :=
  match c.eccSee w with
  | (.clean d, c) => (leBytes 8 d.toNat, c)
  | (.corrected d, c) => (leBytes 8 d.toNat, c.noteCorrected w)
  | (.uncorrectable d, c) =>
    (leBytes 8 d.toNat, { c.log 2 0x0203#16 (tileDetail w) with ueCount := satAdd c.ueCount 1, eccBank := BitVec.ofNat 6 (w / 32) })

/-- Reads words from `w` upward. -/
def Core.eccWords (c : Core) (w : Nat) : Nat → List Byte × Core
  | 0 => ([], c)
  | n + 1 =>
    let (b, c) := c.eccWord w
    let (bs, c) := c.eccWords (w + 1) n
    (b ++ bs, c)

/-- Reads `n` bytes of tile memory; bytes past its end are a free value (DESIGN CHOICE, log 1; DEDUCED, log 14). -/
def Core.tileRead (c : Core) (a n : Nat) : List Byte × Core :=
  if tileBytes < a + n then
    let (v, c) := c.draw
    (leBytes n v.toNat, c)
  else if c.flips = [] then (mread c.tile a n, c)
  else
    let w := a / 8
    let (bs, c) := c.eccWords w ((a + n + 7) / 8 - w)
    ((bs.drop (a - 8 * w)).take n, c)

/-- Reads a line of tile memory. -/
def Core.readLine (c : Core) (l : Nat) : Line × Core :=
  let (bs, c) := c.tileRead (256 * l) 256
  (BitVec.ofNat 2048 (leNat bs), c)

/-- What a write makes of an error in word `w`: a word written whole loses it; of one written in part, a corrected word is stored as
corrected, and an uncorrectable one keeps its raw data and reads as uncorrectable again (R38). With three or more wrong bits the merge
sees what a read may see (DESIGN CHOICE, log 1). -/
def Core.mergeWord (c : Core) (w : Nat) (full : Bool) : Core :=
  if tget 0 c.flips w = 0 then c
  else if full then { c with flips := tdel c.flips w }
  else
    let put := fun (c : Core) (d : DWord) => { c with tile := mwrite c.tile (8 * w) (leBytes 8 d.toNat), flips := tdel c.flips w }
    match c.eccSee w with
    | (.clean d, c) => put c d
    | (.corrected d, c) => (put c d).noteCorrected w
    | (.uncorrectable d, c) => { put c d with flips := tset 0 c.flips w (3#72 <<< 64) }

/-- Writes bytes into tile memory; bytes past its end do not exist (DEDUCED, log 14). -/
def Core.tileWrite (c : Core) (a : Nat) (bs : List Byte) : Core :=
  let bs := bs.take (tileBytes - a)
  let w0 := a / 8
  let c := if c.flips = [] then c else
    (List.range ((a + bs.length + 7) / 8 - w0)).foldl
      (fun c k => c.mergeWord (w0 + k) (decide (a ≤ 8 * (w0 + k)) && decide (8 * (w0 + k) + 8 ≤ a + bs.length))) c
  { c with tile := mwrite c.tile a bs }

/-- Notes a core access for the stall rules (R37): its order, port and line. -/
def Core.touch (c : Core) (order port line : Nat) : Core := { c with acc := c.acc ++ [(order, port, line)] }

/-- A core read of a tile line through a port: what the access read where it was served before an inbound line overwrote it in the same
stall, else what the line holds (R37). -/
def Core.portRead (c : Core) (order port line : Nat) : List Byte × Core :=
  match c.seen.find? (fun x => decide (x.1 = order) && decide (x.2.1 = line)) with
  | some x => (leBytes 256 x.2.2.toNat, c.touch order port line)
  | none =>
    let (bs, c) := c.tileRead (256 * line) 256
    (bs, c.touch order port line)

/-- Puts a result on its way (R143). -/
def Core.land (c : Core) (cycle prio : Nat) (e : Effect) : Core :=
  { c with landings := c.landings ++ [{ cycle := cycle, prio := prio, eff := e }] }

/-! ### Vector registers (R96) -/

/-- A register's bytes. -/
def Core.vbytes (c : Core) (r : Nat) : List Byte := leBytes 256 (tget 0 c.vregs r).toNat

/-- Bits `n` from bit `i` of a line. -/
def lineBits (l : Line) (i n : Nat) : Nat := l.toNat / 2 ^ i % 2 ^ n

/-- FP32 element of a register. -/
def Core.vword (c : Core) (r e : Nat) : Word := BitVec.ofNat 32 (lineBits (tget 0 c.vregs r) (32 * e) 32)

/-- Writes bytes into a register. -/
def Core.vwrite (c : Core) (r off : Nat) (bs : List Byte) : Core :=
  let old := leBytes 256 (tget 0 c.vregs r).toNat
  { c with vregs := tset 0 c.vregs r (BitVec.ofNat 2048 (leNat (old.take off ++ bs ++ old.drop (off + bs.length)))) }

/-! ### Results reaching their cycle -/

/-- A range-monitor counter stays at its maximum (R85). -/
def Core.countRm (c : Core) (slot total above below : Nat) : Core :=
  { c with rmon := tmod {} c.rmon slot (fun s =>
      { s with total := satAdd s.total total, above := satAdd s.above above, below := satAdd s.below below }) }

/-- The residue verdict reaches the core's registers and log (R59, R63). -/
def Core.verdict (c : Core) (recs : List ErrRec) (lowest : Option (Nat × Word)) (win : Bool) : Core :=
  let c := recs.foldl (fun c r => c.log r.cls r.code r.detail) c
  let c := if recs = [] then c else { c with resCount := satAdd c.resCount recs.length, resFlag := true }
  match lowest with
  | none => c
  | some (a, rows) =>
    { c with resArray := BitVec.ofNat 2 a, resRows := rows, resWindow := win,
             resRow := BitVec.ofNat 5 (((List.range 32).find? (fun i => rows.getLsbD i)).getD 0) }

/-- The stage cycle of the core cycle in hand, stalls passed so far included (R118). -/
def Core.stageCycle (c : Core) : Nat := c.cycle + c.lag

/-- Applies one effect. -/
def Core.apply (c : Core) (e : Effect) : Core :=
  match e with
  | .vreg r off bs => c.vwrite r off bs
  | .tile a bs => c.tileWrite a bs
  | .tileWords l ws => ws.foldl (fun c w => c.tileWrite (256 * l + 4 * w.1) (leBytes 4 w.2.toNat)) c
  | .mset i v => { c with msets := tset 0 c.msets i v }
  | .cdesc i v => { c with cdescs := tset 0 c.cdescs i v }
  | .agenDesc v => { c with agenDesc := v }
  | .agenTable bs => { c with agenTable := bs }
  | .rmon slot t o u => c.countRm slot t o u
  | .verdict recs low win => c.verdict recs low win
  | .sinc i g a => { c with incs := c.incs ++ [(i, g, a)] }
  | .sent target line data => { c with out := c.out ++ [{ target := target, line := line, data := data, enters := c.stageCycle }] }

/-- Applies what is due at `now`, in the order of R37 and R146: drains, vector, move, control. -/
def Core.applyDue (c : Core) (now : Nat) : Core :=
  let due := c.landings.filter (fun l => decide (l.cycle ≤ now))
  let c := { c with landings := c.landings.filter (fun l => !decide (l.cycle ≤ now)) }
  [0, 1, 2, 3].foldl (fun c p => (due.filter (fun l => l.prio = p)).foldl (fun c l => c.apply l.eff) c) c

/-! ### Matrix runs (R29 to R34, R39 to R48) -/

/-- Cycles from a k-step to its product's entry (R34). -/
def Family.entryDelay : Family → Nat
  | .p4 => 5
  | .bf16 => 4
  | _ => 2

/-- The weight of VALUE's lowest bit, negated (R43). -/
def Family.lsb : Family → Int
  | .p4 => 36
  | _ => 32

/-- FAMILY's code in a record's detail (DEDUCED, log 10). -/
def Family.code : Family → Nat
  | .none => 0
  | .fp8 => 1
  | .p4 => 2
  | .bf16 => 3

/-- Issue interval of a run (R54). -/
def Run.interval (r : Run) : Nat :=
  match r.family with
  | .p4 => r.steps / 2
  | .bf16 => 2 * r.steps
  | _ => r.steps

/-- k-steps of a run that have entered when it is truncated at `t` (R32). -/
def Run.enteredBefore (r : Run) (t : Nat) : Nat :=
  let k := t - (r.c0 + 4)
  min r.limit (match r.family with
    | .p4 => 2 * k
    | .bf16 => cdiv k 2
    | _ => k)

/-- Operand bytes and the bytes per record step of a run (R39): activation, then weight. -/
def operandBytes (f : Family) (n : Nat) : Nat × Nat :=
  match f with
  | .p4 => (544 * (n / 32), 2176 * (n / 32))
  | .bf16 => (64 * n, 256 * n)
  | _ => (32 * n, 128 * n)

/-- Offset d of R40 for line `l` of an operand. -/
def lineOffset (f : Family) (wt : Bool) (l : Nat) : Nat :=
  match f with
  | .p4 => 16 * (256 * l / (if wt then 2176 else 544))
  | .bf16 => 2 * (256 * l / (if wt then 256 else 64))
  | _ => 256 * l / (if wt then 128 else 32)

/-- Merges the two operands' lines by d, activation ahead of weight on a tie (R40). -/
def mergeReads : Nat → List (Nat × Nat) → List (Nat × Nat) → List (Nat × Bool × Nat)
  | 0, _, _ => []
  | _ + 1, [], [] => []
  | k + 1, a :: as, [] => (a.1, false, a.2) :: mergeReads k as []
  | k + 1, [], w :: ws => (w.1, true, w.2) :: mergeReads k [] ws
  | k + 1, a :: as, w :: ws =>
    if a.1 ≤ w.1 then (a.1, false, a.2) :: mergeReads k as (w :: ws) else (w.1, true, w.2) :: mergeReads k (a :: as) ws

/-- Gives each read its cycle: c0 + d, and never before the cycle after the previous read (R40). -/
def readCycles (c0 : Nat) : Nat → List (Nat × Bool × Nat) → List (Nat × Bool × Nat)
  | _, [] => []
  | free, (d, w, l) :: rest => (max free (c0 + d), w, l) :: readCycles c0 (max free (c0 + d) + 1) rest

/-- The port A reads of a run (R40). -/
def portAReads (f : Family) (n c0 : Nat) : List (Nat × Bool × Nat) :=
  let b := operandBytes f n
  let la := (List.range (cdiv b.1 256)).map (fun l => (lineOffset f false l, l))
  let lw := (List.range (cdiv b.2 256)).map (fun l => (lineOffset f true l, l))
  readCycles c0 0 (mergeReads (la.length + lw.length) la lw)

/-- Bytes of an operand as the feeders hold them; none where a line was never read. -/
def operandSlice (t : Table (Option Line)) (off n : Nat) : Option (List Byte) :=
  (List.range n).foldl (fun acc i =>
    match acc, tget none t ((off + i) / 256) with
    | some bs, some l => some (bs ++ [BitVec.ofNat 8 (lineBits l (8 * ((off + i) % 256)) 8)])
    | _, _ => none) (some [])

/-- One operand element at k-step `s` (R39): `idx` is the row of an activation or the column of a weight. -/
def operand (f : Family) (wt e5 : Bool) (t : Table (Option Line)) (s idx : Nat) : Option Fp :=
  match f with
  | .p4 => (operandSlice t ((if wt then 2176 else 544) * (s / 32) + 17 * idx) 17).map (fun b => p4elem b (s % 32))
  | .bf16 => (operandSlice t ((if wt then 256 else 64) * s + 2 * idx) 2).map (fun b => bfdec (BitVec.ofNat 16 (leNat b)))
  | _ => (operandSlice t ((if wt then 128 else 32) * s + idx) 1).map (fun b =>
      if e5 then e5m2dec (b.getD 0 0) else e4m3dec (b.getD 0 0))

/-- Residue modulo 7 of one side of a product (R56): the significand times 2^(x + off). -/
def sideResidue (off : Int) : Fp → Nat
  | .fin s m e => ((scaled s m (e + off) 0) % 7).toNat
  | _ => 0

/-- Adds one product to a cell (R44, R46, R48) and its share to the row's prediction (R56): the share enters with its product, so that a
drain that splits the products of a row splits their prediction alike (DEDUCED, log 30). -/
def Cell.addProduct (f : Family) (c : Cell) (a w : Fp) : Cell :=
  match f with
  | .bf16 => { c with acc := f32pack ((f32dec c.acc).add (a.mul w)) }
  | _ =>
    match a.mul w with
    | .nan => { c with nan := true }
    | .inf s => if s then { c with ninf := true } else { c with pinf := true }
    | .fin s m e =>
      let half : Int := f.lsb / 2
      { c with value := c.value + BitVec.ofInt 96 (scaled s m (e + f.lsb) 0),
               pred := (c.pred + sideResidue half a * sideResidue half w) % 7 }

/-- A window that opens: cleared, but for the faults that it holds until its drain (R47, R58) (DEDUCED, log 93). -/
def Cell.opened (c : Cell) (f : Family) : Cell := { family := f, mismatch := c.mismatch, accBad := c.accBad }

/-- Where a cell's window lies in the table. -/
def cellKey (win a i j : Nat) : Nat := win * 4096 + a * 1024 + i * 32 + j

/-- The k-steps whose products enter cell (i, j) at cycle `t` (R33, R34). -/
def Run.stepsAt (r : Run) (t i j : Nat) : List Nat :=
  let base := r.c0 + 4 + r.family.entryDelay + i + j
  if t < base then []
  else
    let k := t - base
    (match r.family with
      | .p4 => [2 * k, 2 * k + 1]
      | .bf16 => if k % 2 = 0 then [k / 2] else []
      | _ => [k]).filter (fun s => decide (s < r.limit))

/-- The products of run `r` that enter one cell at `t` (R47): opening, family change, addition, count (DEDUCED, log 27). -/
def Core.cellStep (c : Core) (r : Run) (t a i j : Nat) : Core × Bool × Family :=
  match r.stepsAt t i j with
  | [] => (c, false, .none)
  | s :: rest =>
    let key := cellKey r.win a i j
    let cell := tget {} c.cells key
    let differs := decide (s = 0) && !r.opens && decide (cell.family ≠ .none) && decide (cell.family ≠ r.family)
    let cell1 := if s = 0 ∧ (r.opens ∨ differs) then cell.opened r.family
      else if cell.family = .none then { cell with family := r.family } else cell
    let (v, c) := c.draw
    let pair := fun s =>
      let absent := fun (side : Nat) => f32dec (BitVec.ofNat 32 (v.toNat / 2 ^ (64 * (s % 2) + 32 * side)))
      ((operand r.family false r.actE5 r.act s i).getD (absent 0), (operand r.family true r.wtE5 r.wt s (32 * a + j)).getD (absent 1))
    let missing := (s :: rest).any (fun s =>
      (operand r.family false r.actE5 r.act s i).isNone || (operand r.family true r.wtE5 r.wt s (32 * a + j)).isNone)
    let c := if missing then c else { c with free := c.free - 1 }
    let cell2 := (s :: rest).foldl (fun (x : Cell) s =>
      { Cell.addProduct r.family x (pair s).1 (pair s).2 with segCount := min 8191 (x.segCount + 1) }) cell1
    ({ c with cells := tset {} c.cells key cell2 }, differs, cell.family)

/-- Active positions of a mask. -/
def maskBits (m : Word) : List Nat := (List.range 32).filter (fun i => m.getLsbD i)

/-- The cycle in which the first product of a run enters a cell: none where it has no active cell or no k-step (R33, R34, R41) (DEDUCED, log 30). -/
def Run.firstEntry (r : Run) : Option Nat :=
  let cols := (r.colMasks.take 4).foldl (fun (m : Word) x => m ||| x) 0
  match maskBits r.rowMask, maskBits cols with
  | i :: _, j :: _ => if r.limit = 0 then none else some (r.c0 + 4 + r.family.entryDelay + i + j)
  | _, _ => none

/-- The run opens its window at `t`: with OPEN at its first product, without it at the first product that meets another family (R47) (DEDUCED, log 27; DEDUCED, log 30). -/
def Core.opensAt (c : Core) (r : Run) (t : Nat) : Bool :=
  if r.opens then decide (r.firstEntry = some t)
  else decide (t ≤ r.c0 + 66 + r.family.entryDelay) && !r.logged && (maskBits r.rowMask).any (fun i => (List.range 4).any (fun a => (maskBits (r.colMasks.getD a 0)).any (fun j =>
    let f := (tget {} c.cells (cellKey r.win a i j)).family
    decide ((r.stepsAt t i j).head? = some 0) && decide (f ≠ .none) && decide (f ≠ r.family))))

/-- At the opening of a window the predictions of all its rows restart (R56) (DEDUCED, log 30). -/
def Core.clearPredictions (c : Core) (win : Nat) : Core :=
  { c with cells := (c.cells.map (fun x => (x.1, if x.1 / 4096 = win then { x.2 with pred := 0 } else x.2))).filter (fun x => decide (x.2 ≠ {})) }

/-- Residue modulo 7 of one BF16 operand, or of an exact product of two: its significand times the residue of its power of two (R58). -/
def fpResidue : Fp → Nat
  | .fin s m e => (((if s then -(m : Int) else m) * (2 : Int) ^ (e % 3).toNat) % 7).toNat
  | _ => 0

/-- The check of k-step `s` on row `i` of array `a` fails: the residues of its exact products do not add up to the row side times the sum
of the column sides, products with a not-a-number or infinite operand left out (R58). -/
def Run.stepMismatch (r : Run) (s i a : Nat) : Bool :=
  let pairs := (maskBits (r.colMasks.getD a 0)).filterMap (fun j =>
    match operand r.family false r.actE5 r.act s i, operand r.family true r.wtE5 r.wt s (32 * a + j) with
    | some x, some y => if x.nonFinite || y.nonFinite then none else some (x, y)
    | _, _ => none)
  decide ((pairs.foldl (fun n p => n + fpResidue (p.1.mul p.2)) 0) % 7 ≠
    ((pairs.head?).elim 0 (fun p => fpResidue p.1) * pairs.foldl (fun n p => n + fpResidue p.2) 0) % 7)

/-- The residue check of a BF16 k-step whose last product of row `i` enters at `t`; a mismatch is held in that cell (R58). -/
def Core.checkStep (c : Core) (r : Run) (t a i j : Nat) : Core :=
  if r.family = .bf16 ∧ (maskBits (r.colMasks.getD a 0)).getLast? = some j ∧ (r.stepsAt t i j).any (fun s => r.stepMismatch s i a) then
    { c with cells := tmod {} c.cells (cellKey r.win a i j) (fun x => { x with mismatch := true }) }
  else c

/-- Every product of run `r` that enters at `t`; SEGMENT_FORMAT is logged once for a run (R47). -/
def Core.runStep (c : Core) (r : Run) (t : Nat) : Core × Run :=
  (maskBits r.rowMask).foldl (fun cr i =>
    (List.range 4).foldl (fun cr a =>
      (maskBits (r.colMasks.getD a 0)).foldl (fun (cr : Core × Run) j =>
        let (c, r) := cr
        let (c, differs, old) := c.cellStep r t a i j
        let c := c.checkStep r t a i j
        if differs && !r.logged then
          (c.log 1 0x0206#16 [(1, r.win), (2, old.code), (2, r.family.code)], { r with logged := true })
        else (c, r)) cr) cr) (c, r)

/-- Port A reads of cycle `t` (R40). -/
def Core.feed (c : Core) (r : Run) (t : Nat) : Core × Run :=
  let now := r.reads.filter (fun x => x.1 = t)
  let r := { r with reads := r.reads.filter (fun x => x.1 ≠ t) }
  now.foldl (fun (cr : Core × Run) x =>
    let (c, r) := cr
    let addr := (if x.2.1 then r.wtLine else r.actLine) + x.2.2
    let (bs, c) := c.portRead 3 1 addr
    let l : Line := BitVec.ofNat 2048 (leNat bs)
    (c, if x.2.1 then { r with wt := tput r.wt x.2.2 (some l) } else { r with act := tput r.act x.2.2 (some l) })) (c, r)

/-- The arrays' cycle: predictions of windows that open now restart; then feeders and product entries, run by run in issue order. Products of
two runs that enter one window cell in one cycle take effect in that order: the rules give none (R34, R47) (DESIGN CHOICE, log 94). -/
def Core.arrays (c : Core) (t : Nat) : Core :=
  let rs := c.runs
  let c := rs.foldl (fun d r => if c.opensAt r t then d.clearPredictions r.win else d) c
  let (c, rs) := rs.foldr (fun r (cr : Core × List Run) =>
    let (c, r) := cr.1.feed r t
    let (c, r) := c.runStep r t
    (c, r :: cr.2)) (c, [])
  { c with runs := rs.filter (fun r => decide (t < r.c0 + 4 + r.family.entryDelay + 62 + r.interval)) }

/-! ### Drains (R49 to R53) -/

/-- A window's FP32 value (R51); the BF16 accumulator is written unchanged (R48). -/
def Cell.segment (c : Cell) : Word :=
  match c.family with
  | .bf16 => c.acc
  | f =>
    if c.nan || (c.pinf && c.ninf) then f32nan
    else if c.pinf then f32inf
    else if c.ninf then f32ninf
    else if c.value = 0 then f32zero
    else f32pack (.fin (decide (c.value.toInt < 0)) c.value.toInt.natAbs (-f.lsb))

/-- The cells of a window that hold anything, with their position in the window. -/
def Core.windowCells (c : Core) (win : Nat) : List (Nat × Cell) :=
  (c.cells.filter (fun x => x.1 / 4096 = win)).map (fun x => (x.1 % 4096, x.2))

/-- Rows of array `a` whose residue check fails (R56, R58). -/
def badRows (cs : List (Nat × Cell)) (a : Nat) : Word :=
  (List.range 32).foldl (fun (w : Word) i =>
    let row := cs.filter (fun x => x.1 / 32 = a * 32 + i)
    let got := row.foldl (fun s x => (s + (x.2.value.toInt % 7).toNat) % 7) 0
    let pred := row.foldl (fun s x => (s + x.2.pred) % 7) 0
    if got ≠ pred ∨ row.any (fun x => x.2.mismatch) then w ||| (1 <<< i) else w) 0

/-- The records of a drain's residue verdict (R59): one per array, then one per parity error. -/
def verdictRecs (cs : List (Nat × Cell)) (win : Nat) : List ErrRec :=
  ((List.range 4).filterMap (fun a =>
    match (List.range 32).find? (fun i => (badRows cs a).getLsbD i) with
    | none => none
    | some i =>
      let row := cs.filter (fun x => x.1 / 32 = a * 32 + i)
      let fam := (row.find? (fun x => x.2.family ≠ .none)).elim 0 (fun x => x.2.family.code)
      let seg := row.foldl (fun m x => max m x.2.segCount) 0
      some { cls := 2, code := 0x0201#16, detail := [(2, a), (5, i), (1, win), (2, fam), (13, seg)] })) ++
  (cs.filter (fun x => x.2.accBad)).map (fun x =>
    { cls := 2, code := 0x0205#16, detail := [(2, x.1 / 1024), (5, x.1 / 32 % 32), (5, x.1 % 32), (1, win)] })

/-- Reads and clears a window at d + 2 (R49); the verdict reaches the registers at d + 8. -/
def Core.readWindow (c : Core) (d : Drain) : Core × Drain :=
  let cs := c.windowCells d.win
  let c := { c with cells := c.cells.filter (fun x => x.1 / 4096 ≠ d.win) }
  let seg : Nat := cs.foldl (fun m x => max m x.2.segCount) 0
  let c := if 4096 < seg then c.log 1 0x0204#16 [(1, d.win), (13, seg)] else c
  let recs := verdictRecs cs d.win
  let low := ((List.range 4).find? (fun a => badRows cs a ≠ 0)).map (fun a => (a, badRows cs a))
  let c := if recs = [] then c else c.land (d.d + 8) 3 (.verdict recs low (decide (d.win = 1)))
  (c, { d with isRead := true,
               values := cs.foldl (fun t x => tset 0 t x.1 x.2.segment) [] })

/-- The lines a drain writes (R50): row, half and active columns, in ascending address order. -/
def drainLines (rowWr : Word) (m : RunMark) : List (Nat × Nat × List Bool) :=
  (List.range 64).filterMap (fun x =>
    let i := x / 2
    let cols := (List.range 64).map (fun c =>
      m.rowMask.getLsbD i && (m.colMasks.getD (2 * (x % 2) + c / 32) 0).getLsbD (c % 32))
    if rowWr.getLsbD i && cols.any id then some (i, x % 2, cols) else none)

/-- The last run into a window that qualifies for a drain issued at `d` (R50); marks stand newest first (DEDUCED, log 28). -/
def lastRun (marks : List RunMark) (win d : Nat) : Option RunMark :=
  marks.find? (fun m => decide (m.win = win) && decide (m.entry0 ≤ d + 1))

/-- A drain's issue interval (R53). -/
def Drain.interval (d : Drain) : Nat := max 1 d.lines.length

/-- One line of a drain (R50 to R53). -/
def Core.drainLine (c : Core) (d : Drain) (t : Nat) : Core :=
  if d.isRead = true ∧ d.d + 6 ≤ t then
    match d.lines[t - (d.d + 6)]? with
    | none => c
    | some (i, h, cols) =>
      if d.limit ≤ t - (d.d + 6) then c
      else
        let line := 64 * d.dest + 2 * i + h
        let word := fun k => tget 0 d.values ((2 * h + k / 32) * 1024 + i * 32 + k % 32)
        let active := (List.range 64).filter (fun k => cols.getD k false)
        if d.add then
          let (bs, c) := c.portRead 4 2 line
          c.land (t + 5) 0 (.tileWords line (active.map (fun k => (k, fadd (BitVec.ofNat 32 (leNat ((bs.drop (4 * k)).take 4))) (word k)))))
        else c.land (t + 1) 0 (.tileWords line (active.map (fun k => (k, word k))))
  else c

/-- The drains' cycle: window reads first (R49). -/
def Core.drainReads (c : Core) (t : Nat) : Core :=
  let (c, ds) := c.drains.foldr (fun d (cd : Core × List Drain) =>
    if d.d + 2 = t then
      let (c, d) := cd.1.readWindow d
      (c, d :: cd.2)
    else (cd.1, d :: cd.2)) (c, [])
  { c with drains := ds }

def Core.drainWrites (c : Core) (t : Nat) : Core :=
  let c := c.drains.foldr (fun d c => c.drainLine d t) c
  { c with drains := c.drains.filter (fun d => decide (t < d.d + 6 + d.lines.length)) }

/-! ### Vector row operations (R96 to R114) -/

/-- FP32 or BF16 element of a byte list. -/
def elemAt (bf : Bool) (bs : List Byte) (e : Nat) : Word :=
  if bf then bfWiden (BitVec.ofNat 16 (leNat ((bs.drop (2 * e)).take 2))) else BitVec.ofNat 32 (leNat ((bs.drop (4 * e)).take 4))

/-- A result in the source format: FP32, or rounded once to BF16 (R99). -/
def elemBytes (bf : Bool) (w : Word) : List Byte := if bf then leBytes 2 (toBf w).toNat else leBytes 4 w.toNat

/-- Counts non-finite element results under NF (R100). -/
def Core.countNf (c : Core) (nf : Bool) (ws : List Word) : Core :=
  if nf then { c with nonfinite := c.nonfinite + (ws.filter (fun w => (f32dec w).nonFinite)).length } else c

/-- Query and key position and validity of column `col` (R113, R114): valid, and whether a position was out of range. -/
def agenValid (desc : DWord) (table : List Nat) (r col : Nat) : Bool × Bool :=
  let q := (table.getD (bits desc 39 36) 0 + bits desc 15 0 + r) % 2 ^ 22
  let k := (table.getD (bits desc 43 40) 0 + bits desc 31 16 + col) % 2 ^ 22
  let w := bits desc 63 44
  if 1048575 < q ∨ 1048575 < k then (false, true)
  else
    (match bits desc 35 34 with
      | 0 => true
      | 1 => decide (k ≤ q)
      | 2 => decide (k ≤ q) && decide (q - k ≤ w)
      | _ => decide (q - k ≤ w) && decide (k - q ≤ w), false)

/-- The identity lanes of R101. -/
def lanes (w : Word) : List Word := List.replicate 64 w

/-- One lane step (R101). -/
def laneStep (f : Word → Word → Word) (ls : List Word) (e : Nat) (x : Word) : List Word :=
  ls.set (e % 64) (f (ls.getD (e % 64) 0) x)

/-- The tree of R101. -/
def laneTree (f : Word → Word → Word) (ls : List Word) : Word :=
  let fold := fun w (ls : List Word) => (List.range w).map (fun l => f (ls.getD l 0) (ls.getD (l + w) 0))
  ([32, 16, 8, 4, 2, 1].foldl (fun ls w => fold w ls) ls).getD 0 0

/-- Bytes that `n` source elements of VWIDEN format `fmt` take (R135). -/
def widenBytes (fmt n : Nat) : Nat :=
  match fmt with
  | 0 => 2 * n
  | 3 => 17 * cdiv n 32
  | _ => n

/-- Element `e` of a VWIDEN source group (R73). -/
def widenElem (fmt : Nat) (bs : List Byte) (e : Nat) : Fp :=
  match fmt with
  | 0 => bfdec (BitVec.ofNat 16 (leNat ((bs.drop (2 * e)).take 2)))
  | 1 => e4m3dec (bs.getD e 0)
  | 2 => e5m2dec (bs.getD e 0)
  | _ => p4elem ((bs.drop (17 * (e / 32))).take 17) (e % 32)

/-- The target of a cast descriptor (R138). -/
def castTarget (d : BitVec 128) : Option Target := Target.ofCode (bits d 54 52)

/-- Bytes of `n` cast elements (R39, R138). -/
def castBytes (t : Target) (n : Nat) : Nat :=
  match t with
  | .p4 => 17 * cdiv n 32
  | t => t.bytes * n

/-- An infinite or not-a-number output code. -/
def codeNonFinite (t : Target) (bs : List Byte) : Bool :=
  match t with
  | .fp32 => (f32dec (BitVec.ofNat 32 (leNat bs))).nonFinite
  | .bf16 => (bfdec (BitVec.ofNat 16 (leNat bs))).nonFinite
  | .e4m3 => (e4m3dec (bs.getD 0 0)).nonFinite
  | .e5m2 => (e5m2dec (bs.getD 0 0)).nonFinite
  | .p4 => false

/-- What a group of cast elements gives: bytes, non-finite results, OVER and UNDER counts. -/
structure CastGroup where
  bytes : List Byte := []
  nonfinite : Nat := 0
  above : Nat := 0
  below : Nat := 0

/-- Casts a group of elements, FP32 or widened from BF16, whose first has index `e0` in the operation; a cast to FP32 takes a subnormal as
zero and gives the canonical not-a-number as any cast does (R67, R73 to R81) (DEDUCED, log 119); `fill` completes a
short P4 block (DEDUCED, log 26; DESIGN CHOICE, log 31). -/
def castGroup (d : BitVec 128) (key : RngKey) (scaleExp : Int) (e0 : Nat) (xs : List Word) (fill : Word) : CastGroup :=
  let t := (castTarget d).getD .fp32
  let base := bits d 127 88
  let sr := bit d 55
  let dr := fun e => if sr then some (draw key (base + e)) else none
  match t with
  | .fp32 => { bytes := xs.flatMap (fun x => leBytes 4 (f32pack (f32dec x)).toNat), nonfinite := (xs.filter (fun x => (f32dec x).nonFinite)).length }
  | .p4 =>
    (List.range (cdiv xs.length 32)).foldl (fun (g : CastGroup) b =>
      let blk := (xs.drop (32 * b)).take 32
      let full := blk ++ List.replicate (32 - blk.length) fill
      let r := castP4 scaleExp ((List.range 32).map (fun i => dr (e0 + 32 * b + i))) (full.map (fun x => (f32dec x, f32subnormal x)))
      let cnt := r.2.take blk.length
      { bytes := g.bytes ++ r.1,
        nonfinite := g.nonfinite + (if (r.1.getD 16 0).toNat ≥ 0xF8 then blk.length else 0),
        above := g.above + (cnt.filter (fun x => x.1)).length,
        below := g.below + (cnt.filter (fun x => x.2)).length }) {}
  | t =>
    let outs := (List.range xs.length).map (fun i =>
      let x := xs.getD i 0
      castElem t (bit d 56) scaleExp (dr (e0 + i)) (f32dec x) (f32subnormal x))
    let bytes := outs.map (fun o => leBytes t.bytes o.code)
    { bytes := bytes.flatMap id, nonfinite := (bytes.filter (codeNonFinite t)).length,
      above := (outs.filter (fun o => o.above)).length, below := (outs.filter (fun o => o.below)).length }

/-- Cycles from the end of the issue interval to the write of the last line (R143) (DEDUCED, log 22). -/
def VecOp.writeDelay (v : VecOp) : Nat :=
  match v.op with
  | .widen _ => 8
  | .cast _ => if bits v.cdesc 54 52 = 4 then 12 else 10
  | .fn _ => if v.newton then 22 else 14
  | .smexp _ => 14
  | _ => 10

/-- A soft-maximum pass: the scores of a group with invalid ones at −∞ (R108), and whether a position left the range. -/
def maskScores (v : VecOp) (r : Nat) (xs : List Word) : List Word × Bool :=
  let vs := (List.range xs.length).map (fun i => agenValid v.agenDesc v.agenTable r (v.done + i))
  ((List.range xs.length).map (fun i => if (vs.getD i (false, false)).1 then xs.getD i 0 else f32ninf), vs.any (fun x => x.2))

/-- AGEN_RANGE, once per pass (R114, R116). VSMNORM has no row index and takes its scores masked already: it never logs (R113, R135)
(DESIGN CHOICE, log 97). -/
def Core.agenLog (c : Core) (v : VecOp) (opcode r : Nat) (out : Bool) : Core × VecOp :=
  if out && !v.rangeLogged then
    (c.log 1 0x0207#16 [(6, opcode), (4, bits v.agenDesc 39 36), (4, bits v.agenDesc 43 40), (5, r)], { v with rangeLogged := true })
  else (c, v)

/-- One element of pass two: +0 in an empty row and for a score at −∞, but not-a-number throughout a row whose maximum is not a number
(R108, R109) (DESIGN CHOICE, log 98). -/
def smExp (m k s : Word) : Word :=
  if m = f32ninf then f32zero
  else if s = f32ninf ∧ f32dec m ≠ .nan then f32zero
  else fnExp2 (fmul (fsub s m) k)

/-- One element of pass three (R108): the reciprocal of a zero sum is +∞ and marks an empty row (DEDUCED, log 25). -/
def smNorm (r e : Word) : Word := if r = f32inf then f32zero else fmul e r

/-- The `len` source bytes from byte `off` of a row: what the line in hand holds, then lines read now, one access each (R37, R96) (DEDUCED, log 21; DEDUCED, log 26). -/
def Core.rowBytes (c : Core) (v : VecOp) (off len : Nat) : List Byte × Core × VecOp :=
  let first := if off % 256 = 0 then off / 256 else off / 256 + 1
  (List.range ((off + len + 255) / 256 - first)).foldl (fun (r : List Byte × Core × VecOp) i =>
    let l := v.src + first + i
    let (bs, c) := r.2.1.portRead 5 2 l
    ((r.1 ++ bs).take len, c, { r.2.2 with line := bs }))
    ((if off % 256 = 0 then [] else v.line.drop (off % 256)).take len, c, v)

/-- Result bytes follow those before them; a line that is complete is written, one line per access (R37, R96) (DEDUCED, log 21). -/
def Core.rowOut (c : Core) (v : VecOp) (w : Nat) (bs : List Byte) : Core × VecOp :=
  let all := v.out ++ bs
  if all.length < 256 then (c, { v with out := all })
  else (c.land w 1 (.tile (256 * v.dst + v.written) (all.take 256)), { v with out := all.drop 256, written := v.written + 256 })

/-- A cast group's bytes and counts (R84, R100) (DESIGN CHOICE, log 31). -/
def Core.rowCastOut (c : Core) (v : VecOp) (w : Nat) (g : CastGroup) : Core × VecOp :=
  ({ c with nonfinite := c.nonfinite + (if v.nf then g.nonfinite else 0) } : Core).rowOut
    { v with above := v.above + g.above, below := v.below + g.below } w g.bytes

/-- The group of elements a row operation reads in one cycle (R97) and what it does with them. -/
def Core.rowGroup (c : Core) (v : VecOp) (t : Nat) : Core × VecOp :=
  let cnt := min v.rate (v.n - v.done)
  let off := match v.op with
    | .widen f => widenBytes f v.done
    | _ => (if v.bf then 2 else 4) * v.done
  let len := match v.op with
    | .widen f => widenBytes f cnt
    | _ => (if v.bf then 2 else 4) * cnt
  let (bs, c, v) := c.rowBytes v off len
  let xs := (List.range cnt).map (elemAt v.bf bs)
  let (fill, c) := c.draw
  let w := t + 2 + v.writeDelay
  let words := fun (ys : List Word) => ys.flatMap (fun (y : Word) => leBytes 4 y.toNat)
  let key : RngKey := ⟨v.seed, v.step, v.attempt, bits v.cdesc 87 64⟩
  let (c, v) := match v.op with
    | .widen f =>
      let ys := (List.range cnt).map (fun e => f32pack (widenElem f bs e))
      (c.countNf v.nf ys).rowOut v w (words ys)
    | .cast _ => c.rowCastOut v w (castGroup v.cdesc key v.scaleExp v.done xs (BitVec.ofNat 32 fill.toNat))
    | .rowstat _ =>
      (c, { v with
        lanesMax := (List.range cnt).foldl (fun ls i => laneStep fmax ls (v.done + i) (xs.getD i 0)) v.lanesMax,
        lanesSum := (List.range cnt).foldl (fun ls i => laneStep fadd ls (v.done + i) (xs.getD i 0)) v.lanesSum,
        lanesSq := (List.range cnt).foldl (fun ls i => laneStep (fun p x => ffma x x p) ls (v.done + i) (xs.getD i 0)) v.lanesSq })
    | .fn code =>
      let ys := xs.map (fun x => let y := vfn code v.newton x; if v.bf then bfWiden (toBf y) else y)
      (c.countNf v.nf ys).rowOut v w (ys.flatMap (elemBytes v.bf))
    | .smmax r =>
      let (ss, out) := maskScores v r xs
      let (c, v) := c.agenLog v 0x24 r out
      (c, { v with lanesMax := (List.range cnt).foldl (fun ls i => laneStep fmax ls (v.done + i) (ss.getD i 0)) v.lanesMax })
    | .smexp r =>
      let (ss, out) := maskScores v r xs
      let (c, v) := c.agenLog v 0x25 r out
      let es := ss.map (smExp v.m v.k)
      (c.countNf v.nf es).rowOut
        { v with lanesSum := (List.range cnt).foldl (fun ls i => laneStep fadd ls (v.done + i) (es.getD i 0)) v.lanesSum } w (words es)
    | .smnorm _ => c.rowCastOut v w (castGroup v.cdesc key v.scaleExp v.done (xs.map (smNorm v.m)) (BitVec.ofNat 32 fill.toNat))
  (c, { v with done := v.done + cnt })

/-- The range-monitor count of a cast that ends with `v.done` elements read (R84, R85). -/
def Core.castCount (c : Core) (v : VecOp) (endCycle : Nat) : Core :=
  let slot := bits v.cdesc 63 58
  let t := bits v.cdesc 54 52
  if bit v.cdesc 57 && decide (t ≠ 0) && decide ((tget {} c.rmon slot).format ≠ 0) then
    c.land (endCycle + v.writeDelay + 1) 3 (.rmon slot v.done v.above v.below)
  else c

/-- What is left of an operation whose reading ended at `endCycle`: its last line in part, and its row results at the cycles that its
whole issue interval gives (R98, R101, R102, R110, R145) (DEDUCED, log 21; DEDUCED, log 22). -/
def Core.rowEnd (c : Core) (v : VecOp) (endCycle : Nat) : Core :=
  if v.done = 0 then c
  else
    let c := if v.out.isEmpty then c else c.land (endCycle + 1 + v.writeDelay) 1 (.tile (256 * v.dst + v.written) v.out)
    let ready := v.t0 + cdiv v.n v.rate
    match v.op with
    | .rowstat reg =>
      let ws := [laneTree fmax v.lanesMax, laneTree fadd v.lanesSum, laneTree fadd v.lanesSq]
      (c.countNf v.nf ws).land (ready + 30) 1 (.vreg reg 0 (ws.flatMap (fun (w : Word) => leBytes 4 w.toNat)))
    | .smmax _ =>
      let m := laneTree fmax v.lanesMax
      (c.countNf v.nf [m]).land (ready + 30) 1 (.vreg 30 0 (leBytes 4 m.toNat))
    | .smexp _ =>
      let z := laneTree fadd v.lanesSum
      (c.countNf v.nf [z]).land (ready + 38) 1 (.vreg 30 4 (leBytes 4 z.toNat))
    | .cast _ => c.castCount v endCycle
    | .smnorm _ => c.castCount v endCycle
    | _ => c

/-- The vector unit's cycle. -/
def Core.vectorCycle (c : Core) (t : Nat) : Core :=
  match c.vop with
  | none => c
  | some v =>
    let (c, v) := c.rowGroup v t
    if v.n ≤ v.done then ({ c with vop := none } : Core).rowEnd v (t + 1) else { c with vop := some v }

/-- A new vector operation at `t` truncates the one before it (R98). -/
def Core.vectorCut (c : Core) (t : Nat) : Core :=
  match c.vop with
  | none => c
  | some v => ({ c with vop := none } : Core).rowEnd v t

/-! ### Move and control operations in progress (R139, R140, R143) -/

/-- VAGEN.TABLE reads its line in its issue cycle, and the table changes at issue + 5 (R112, R143): nonzero high bits are ignored and logged,
under the slices of the descriptor in force and AUX as the row index (R116) (DESIGN CHOICE, log 97). -/
def Core.tableCycle (c : Core) (t : Nat) : Core :=
  match c.table with
  | none => c
  | some (line, aux) =>
    let (bs, c) := c.portRead 5 2 line
    let ws := (List.range 16).map (fun i => leNat ((bs.drop (4 * i)).take 4))
    let c := if ws.any (fun v => decide (2 ^ 20 ≤ v)) then
      c.log 1 0x0207#16 [(6, 0x27), (4, bits c.agenDesc 39 36), (4, bits c.agenDesc 43 40), (5, aux)] else c
    { c with table := none }.land (t + 5) 1 (.agenTable (ws.map (fun v => v % 2 ^ 20)))

/-- VLD reads its line in its issue cycle; its register is readable at issue + 5 (R143). -/
def Core.vldCycle (c : Core) (t : Nat) : Core :=
  match c.vld with
  | none => c
  | some (reg, line) =>
    let (bs, c) := c.portRead 6 2 line
    { c with vld := none }.land (t + 5) 2 (.vreg reg 0 bs)

/-- SEND reads line j at issue + j; it enters the core's router 4 core cycles later (R143) (DEDUCED, log 120). -/
def Core.sendCycle (c : Core) (t : Nat) : Core :=
  match c.mop with
  | none => c
  | some m =>
    let (bs, c) := c.portRead 6 2 (m.src + m.done)
    let c := c.land (t + 4) 2 (.sent m.target (m.dst + m.done) (BitVec.ofNat 2048 (leNat bs)))
    { c with mop := if m.done + 1 < m.count then some { m with done := m.done + 1 } else none }

/-- MSETLD and CDLD: the records of line j are usable from issue + 5 + j (R143). Entries past the table do not exist. -/
def Core.loadCycle (c : Core) (t : Nat) : Core :=
  match c.cop with
  | none => c
  | some m =>
    let per := if m.casts then 16 else 8
    let size := if m.casts then 16 else 32
    let j := m.done / per
    let (bs, c) := c.portRead 7 2 (m.line + j)
    let cnt := min per (m.count - m.done)
    let c := (List.range cnt).foldl (fun (c : Core) i =>
      let rec_ := leNat ((bs.drop (size * i)).take size)
      let idx := m.first + m.done + i
      if m.casts then (if idx < 32 then c.land (t + 5) 3 (.cdesc idx (BitVec.ofNat 128 rec_)) else c)
      else (if idx < 64 then c.land (t + 5) 3 (.mset idx (BitVec.ofNat 160 rec_)) else c)) c
    { c with cop := if m.done + cnt < m.count then some { m with done := m.done + cnt } else none }

/-! ### Stalls (R37) -/

/-- One stage cycle of accesses: a bank and a port take one each, the fixed ones first; the accesses that go on waiting. An access that waits
keeps its place ahead of later ones at its port and at its bank (DEDUCED, log 24). Two runs whose port A reads fall in one cycle are served
so too, the earlier run's read before the later run's: R37 orders no two port A reads (DESIGN CHOICE, log 95). -/
def serveStage (fixed : List (Bool × Nat)) (pend : List (Nat × Nat × Nat)) : List (Nat × Nat × Nat) :=
  let start : List Nat × List Nat × List (Nat × Nat × Nat) := (fixed.map (fun f => if f.1 then 2 else 0), fixed.map (fun f => f.2), [])
  (pend.foldl (fun (s : List Nat × List Nat × List (Nat × Nat × Nat)) a =>
    (a.2.1 :: s.1, a.2.2 % 64 :: s.2.1, if s.1.contains a.2.1 || s.2.1.contains (a.2.2 % 64) then s.2.2 ++ [a] else s.2.2)) start).2.2

/-- The lines that core accesses write at the end of core cycle `t`, in the order of R37: one access for each. -/
def Core.writesAt (c : Core) (t : Nat) : List (Nat × Nat × Nat) :=
  (c.landings.filter (fun l => decide (l.cycle = t + 1))).filterMap (fun l =>
    match l.eff with
    | .tile a _ => some (l.prio, 0, a / 256)
    | .tileWords line _ => some (l.prio, 0, line)
    | _ => none)

/-- The accesses of core cycle `t`, once its operations have noted them, in the order of R37. -/
def Core.accesses (c : Core) (t : Nat) : List (Nat × Nat × Nat) :=
  let all := c.writesAt t ++ c.acc
  (List.range 8).flatMap (fun o => all.filter (fun a => a.1 = o))

/-- An inbound line is written in its stage cycle (R36, R37). Accesses of the core cycle in hand that have been served by then came first:
a read has its line already, and a write stands beneath the inbound line (DEDUCED, log 24). -/
def Core.takeInbound (served : List (Nat × Nat × Nat)) (c : Core) (m : Nat × Nat × Line) : Core :=
  let c := served.foldl (fun (c : Core) a =>
    if a.2.2 = m.2.1 ∧ a.2.1 ≠ 0 ∧ c.seen.any (fun x => decide (x.1 = a.1) && decide (x.2.1 = a.2.2)) = false then
      let (l, c) := c.readLine m.2.1
      { c with seen := c.seen ++ [(a.1, a.2.2, l)] }
    else c) c
  let c := if served.any (fun a => decide (a.2.1 = 0) && decide (a.2.2 = m.2.1)) then { c with again := c.again ++ [(m.2.1, m.2.2)] } else c
  c.tileWrite (256 * m.2.1) (leBytes 256 m.2.2.toNat)

end Sys2Proof.Machine
end

