-- ==== Sys2Proof/Machine/Ops.lean ====
section
/-!
DEFINITION. The operations every family shares: named access to the parts of State, grants and positions (R8, R370 to R375), what
the wings masters of the module read and write (R17), rings (R378 to R381), the error logger (R422 to R431), counters, watches and holds
(R156, R158, R394 to R399), and violations (R401, R402).
-/

namespace Sys2Proof.Machine

/-! ### Parts of State -/

def State.co (s : State) (k : Nat) : Co := tget {} s.cos k
def State.modCo (s : State) (k : Nat) (f : Co → Co) : State := { s with cos := tmod {} s.cos k f }
def State.core (s : State) (p : Nat) : Core := tget {} s.cores p
def State.modCore (s : State) (p : Nat) (f : Core → Core) : State := { s with cores := tmod {} s.cores p f }
def State.queue (s : State) (q : Nat) : Queue := tget {} s.queues q
def State.modQueue (s : State) (q : Nat) (f : Queue → Queue) : State := { s with queues := tmod {} s.queues q f }
def State.ctr (s : State) (i : Nat) : Counter := tget {} s.counters i
def State.modCtr (s : State) (i : Nat) (f : Counter → Counter) : State := { s with counters := tmod {} s.counters i f }
def State.watch (s : State) (w : Nat) : Watch := tget {} s.watches w
def State.modWatch (s : State) (w : Nat) (f : Watch → Watch) : State := { s with watches := tmod {} s.watches w f }
def State.func (s : State) (f : Nat) : Func := tget {} s.funcs f
def State.modFunc (s : State) (n : Nat) (f : Func → Func) : State := { s with funcs := tmod {} s.funcs n f }
def State.port (s : State) (p : Nat) : Port := tget {} s.tor.ports p
def State.modPort (s : State) (p : Nat) (f : Port → Port) : State :=
  { s with tor := { s.tor with ports := tmod {} s.tor.ports p f } }
def State.chan (s : State) (c : Nat) : Channel := tget {} s.channels c
def State.modChan (s : State) (c : Nat) (f : Channel → Channel) : State := { s with channels := tmod {} s.channels c f }
def State.fly (s : State) (e : Nat) : Fly := tget {} s.flys e
def State.modFly (s : State) (e : Nat) (f : Fly → Fly) : State := { s with flys := tmod {} s.flys e f }
def State.engine (s : State) (e : Nat) : Engine := tget {} s.engines e
def State.modEngine (s : State) (e : Nat) (f : Engine → Engine) : State := { s with engines := tmod {} s.engines e f }
def State.farPort (s : State) (p : Nat) : FarPort := tget {} s.farPorts p
def State.modFarPort (s : State) (p : Nat) (f : FarPort → FarPort) : State := { s with farPorts := tmod {} s.farPorts p f }
def State.modSeq (s : State) (k : Nat) (f : Seq → Seq) : State := s.modCo k (fun c => { c with seq := f c.seq })
def State.modUpd (s : State) (k : Nat) (f : Upd → Upd) : State := s.modCo k (fun c => { c with upd := f c.upd })
def State.modFar (s : State) (k : Nat) (f : Far → Far) : State := s.modCo k (fun c => { c with far := f c.far })
def State.modCol (s : State) (k : Nat) (f : Col → Col) : State := s.modCo k (fun c => { c with col := f c.col })
def State.modPak (s : State) (k : Nat) (f : Pak → Pak) : State := s.modCo k (fun c => { c with pak := f c.pak })

/-- A free value (DESIGN CHOICE, log 1). -/
def State.draw (s : State) : BitVec 2048 × State := (Config.freeValue s.free, { s with free := s.free + 1 })

/-- Bytes of DRAM, 64 bytes of one access, and stores (R510, R515). -/
def State.dramNat (s : State) (a n : Nat) : Nat := mnat s.dram a n
def State.dramWrite (s : State) (a : Nat) (bs : List Byte) : State :=
  { s with dram := mwrite s.dram a bs,
           dramFlips := s.dramFlips.filter (fun x => decide (64 * x.1 + 64 ≤ a) || decide (a + bs.length ≤ 64 * x.1)) }

/-- DRAM bytes of the module (R15, R372). -/
def dramBytes : Nat := 768 * 2 ^ 30

/-- One DRAM quarter (R372). -/
def quarterBytes : Nat := 2 ^ 34

/-! ### Grants and positions (R8, R370 to R375, R62) -/

/-- The companies that the house has created. -/
def companyList : List Nat := [1, 2, 3, 4, 5, 6, 7, 8, 9, 10, 11, 12, 13, 14, 15]

/-- An index lies in a grant. -/
def inRange (r : Option Range) (i : Nat) : Bool :=
  match r with
  | some r => decide (r.first ≤ i) && decide (i < r.first + r.count)
  | none => false

/-- The company that holds index `i` under the grant `sel`; the house holds the rest (R371) (DEDUCED, log 33). -/
def State.owner (s : State) (sel : Co → Option Range) (i : Nat) : Nat :=
  (companyList.find? (fun k => (s.co k).present && inRange (sel (s.co k)) i)).getD 0

/-- The absolute index of a company's local index (R375); none outside its grant, and for the house where a company holds it. -/
def State.absIndex (s : State) (sel : Co → Option Range) (limit k i : Nat) : Option Nat :=
  if k = 0 then (if i < limit ∧ s.owner sel i = 0 then some i else none)
  else match sel (s.co k) with
    | some r => if i < r.count then some (r.first + i) else none
    | none => none

/-- The local index of an absolute one (R375). -/
def State.localIndex (s : State) (sel : Co → Option Range) (k i : Nat) : Nat :=
  if k = 0 then i else match sel (s.co k) with
    | some r => i - r.first
    | none => i

def State.absQueue (s : State) (k i : Nat) : Option Nat := s.absIndex (fun c => c.queues) 32768 k i
def State.absCtr (s : State) (k i : Nat) : Option Nat := s.absIndex (fun c => c.counters) 8192 k i
def State.absWatch (s : State) (k i : Nat) : Option Nat := s.absIndex (fun c => c.watches) 16384 k i
def State.absSlot (s : State) (k i : Nat) : Option Nat := s.absIndex (fun c => c.keySlots) 64 k i
def State.absChan (s : State) (k i : Nat) : Option Nat := s.absIndex (fun c => c.chans) 256 k i
def State.queueCo (s : State) (q : Nat) : Nat := s.owner (fun c => c.queues) q

/-- The company that a function serves (R370). -/
def State.funcCo (s : State) (f : Nat) : Option Nat :=
  if f = 0 then some 0 else companyList.find? (fun k => (s.co k).present && decide ((s.co k).function = f))

/-- The function that serves a company. -/
def State.coFunc (s : State) (k : Nat) : Nat := if k = 0 then 0 else (s.co k).function

/-- Quarters of a company: granted ones, and for the house those that nobody holds (R371, R372) (DEDUCED, log 33). -/
def State.quarterOwner (s : State) (n : Nat) : Nat :=
  (companyList.find? (fun k => (s.co k).present && (s.co k).quarters.getLsbD n)).getD 0

/-- `n` bytes at `a` lie wholly in the company's DRAM (R372). -/
def State.ownsDram (s : State) (k a n : Nat) : Bool :=
  decide (a + n ≤ dramBytes) &&
    (List.range 48).all (fun q =>
      decide (a + n ≤ q * quarterBytes) || decide ((q + 1) * quarterBytes ≤ a) || decide (n = 0) || decide (s.quarterOwner q = k))

/-- The role a core has before any repair: column 16 of each die is spare, and on a PV8-A768 physical row 24 (DESIGN CHOICE, log 3). -/
def defaultRole (a768 : Bool) (p : Nat) : CoreRole :=
  let row := p % 425 / 17
  let col := p % 17
  if col = 16 ∨ (a768 ∧ row = 24) then { role := 0, lrow := 0x1F, lcol := 0x1F }
  else { role := 1, lrow := row, lcol := p / 425 * 16 + col }

/-- ROLE, LROW and LCOL of a physical core in the grid in force (R62, R374). -/
def State.roleOf (s : State) (p : Nat) : CoreRole :=
  let r := (tget none s.roles p).getD (defaultRole s.gradeA768 p)
  if r.role = 1 ∧ r.lrow < s.grid then r
  else { role := if r.role = 1 then 0 else r.role, lrow := 0x1F, lcol := 0x1F }

/-- The physical core at a logical position. -/
def State.physOf (s : State) (lrow lcol : Nat) : Option Nat :=
  let here := fun p => decide ((s.roleOf p).role = 1) && decide ((s.roleOf p).lrow = lrow) && decide ((s.roleOf p).lcol = lcol)
  let guess := lcol / 16 * 425 + lrow * 17 + lcol % 16
  if here guess then some guess else (List.range 850).find? here

/-- A logical position lies in a rectangle. -/
def Rect.has (r : Rect) (lrow lcol : Nat) : Bool :=
  decide (r.row0 ≤ lrow) && decide (lrow < r.row0 + r.rows) && decide (r.col0 ≤ lcol) && decide (lcol < r.col0 + r.cols)

/-- The company that owns a core: that of its rectangle, or the house (R62, R373) (DEDUCED, log 33). -/
def State.coreCo (s : State) (p : Nat) : Nat :=
  let r := s.roleOf p
  if r.role = 1 then
    (companyList.find? (fun k => (s.co k).present && ((s.co k).rect.elim false (fun x => x.has r.lrow r.lcol)))).getD 0
  else 0

/-- The physical core at a position relative to the company's rectangle (R375). -/
def State.relPhys (s : State) (k lrow lcol : Nat) : Option Nat :=
  match (s.co k).rect with
  | none => none
  | some r => if lrow < r.rows ∧ lcol < r.cols then s.physOf (r.row0 + lrow) (r.col0 + lcol) else none

/-- The physical cores of a company, in row-major order of its rectangle (DEDUCED, log 33). -/
def State.coreList (s : State) (k : Nat) : List Nat :=
  match (s.co k).rect with
  | none => []
  | some r => (List.range (r.rows * r.cols)).filterMap (fun i => s.physOf (r.row0 + i / r.cols) (r.col0 + i % r.cols))

/-- The update and fly engines of a company: those of its granted quarters (R372). -/
def State.engineList (s : State) (k : Nat) : List Nat := (List.range 48).filter (fun n => (s.co k).quarters.getLsbD n)

/-- A company's far-port share of a port; the house holds what the companies leave (R371). -/
def State.hasShare (s : State) (k p : Nat) : Bool :=
  if k = 0 then
    decide ((companyList.flatMap (fun j => ((s.co j).farShare.filter (fun x => x.1 = p)).map (fun x => x.2))).foldl (· + ·) 0 < 64)
  else (s.co k).farShare.any (fun x => x.1 = p)

/-! ### What the module's wings masters have read, and have still to write (R17, R21) -/

/-- The 64-byte accesses that cover `n` bytes at `a`. -/
def accessesOf (a n : Nat) : List Nat := (List.range (cdiv (a % 64 + n) 64)).map (fun i => a / 64 * 64 + 64 * i)

/-- A master's access that has been read. -/
def State.wingsFind (s : State) (m : WingsMaster) (u : Nat) : Option WingsGot :=
  s.wingsGot.find? (fun g => decide (g.master = m) && decide (g.addr = u))

/-- Every access of `n` bytes at `a` has been read. -/
def State.wingsHas (s : State) (m : WingsMaster) (a n : Nat) : Bool := (accessesOf a n).all (fun u => (s.wingsFind m u).isSome)

/-- `n` bytes at `a` as a master has read them, and whether any bears an error mark. -/
def State.wingsBytes (s : State) (m : WingsMaster) (a n : Nat) : List Byte × Bool :=
  let gs := (accessesOf a n).map (fun u => s.wingsFind m u)
  (((gs.flatMap (fun g => g.elim (List.replicate 64 0) (fun g => leBytes 64 g.data.toNat))).drop (a % 64)).take n,
    gs.any (fun g => g.elim false (fun g => g.error)))

/-- Uses up a master's accesses of `n` bytes at `a`. -/
def State.wingsUse (s : State) (m : WingsMaster) (a n : Nat) : State :=
  { s with wingsGot := s.wingsGot.filter (fun g => decide (g.master ≠ m) || !(accessesOf a n).contains g.addr) }

/-- Bytes that a master is to write at `a`, cut at 64-byte boundaries. -/
def State.wingsPut (s : State) (m : WingsMaster) (a : Nat) (bs : List Byte) : State :=
  { s with wingsOut := s.wingsOut ++ (accessesOf a bs.length).map (fun u =>
      { master := m, addr := max u a, data := (bs.drop (u - a)).take (64 - (max u a) % 64) }) }

/-- A master has still something to write. -/
def State.wingsBusy (s : State) (m : WingsMaster) : Bool := s.wingsOut.any (fun w => decide (w.master = m))

/-- A master forgets what it has read, and what it still had to read and to write (R404). -/
def State.wingsDrop (s : State) (m : WingsMaster) : State :=
  let s := (s.channels.map (fun c => c.1)).foldl (fun s c => s.modChan c (fun x => { x with waiting := x.waiting.filter (fun r => decide (r.master ≠ m)) })) s
  { s with wingsGot := s.wingsGot.filter (fun g => decide (g.master ≠ m)), wingsOut := s.wingsOut.filter (fun w => decide (w.master ≠ m)) }

/-! ### Rings (R378, R379) -/

def Queue.depth (q : Queue) : Nat := 2 ^ q.depthLog2.toNat

/-- Entries from HEAD to TAIL (R379). -/
def Queue.count (q : Queue) : Nat := (q.tail + 2 * q.depth - q.head) % (2 * q.depth)

def Queue.full (q : Queue) : Bool := decide (q.count = q.depth)

/-- The address of the entry at a pointer. -/
def Queue.entryAddr (q : Queue) (ptr : Nat) : Nat := q.base.toNat * 4096 + 64 * (ptr % q.depth)

/-- Bytes in host memory, or in DRAM in the wings slot that their access has taken, as LOC says (R378). -/
def State.ringWrite (s : State) (loc : Bool) (a : Nat) (bs : List Byte) : State :=
  if loc then s.dramWrite a bs else { s with hostMem := mwrite s.hostMem a bs }

/-- Pads a byte list with zeros to `n`. -/
def padTo (n : Nat) (bs : List Byte) : List Byte := (bs ++ List.replicate n 0).take n

/-- A queue is frozen by itself or with its function (R402). -/
def State.queueFrozen (s : State) (q : Nat) : Bool := (s.queue q).frozen || (s.func (s.coFunc (s.queueCo q))).frozen

/-- MSI-X vectors of a function: 256 of the physical one, 112 of a virtual one (R370). -/
def vectors (f : Nat) : Nat := if f = 0 then 256 else 112

/-- Writes one entry at TAIL with its PHASE, moves TAIL and signals the vector where the function's table has it (R370, R379, R380)
(DESIGN CHOICE, log 91; DEDUCED, log 107). -/
def State.produce (s : State) (q : Nat) (bs : List Byte) : State :=
  let x := s.queue q
  let f := s.coFunc (s.queueCo q)
  let phase : Byte := if x.tail < x.depth then 1 else 0
  let s := s.ringWrite x.loc (x.entryAddr x.tail) (padTo 63 bs ++ [phase])
  let s := s.modQueue q (fun x => { x with tail := (x.tail + 1) % (2 * x.depth) })
  if x.irq ∧ x.vector.toNat < vectors f then s.modFunc f (fun y => { y with irqs := x.vector.toNat :: y.irqs }) else s

/-- An entry can be written at once: the ring has room, nothing waits for it, and it lies in host memory. A ring in DRAM takes its entries
in wings slots (R378, R379). -/
def Queue.takes (x : Queue) : Bool := !x.loc && !x.full && x.waiting.isEmpty

/-- Writes an entry, or lets it wait for space (R379). An entry for a disabled queue is discarded. `src` is the command queue whose reply
it is. -/
def State.post (s : State) (q : Nat) (bs : List Byte) (src : Option Nat) : State :=
  let x := s.queue q
  if x.enable then
    if x.takes then s.produce q bs else s.modQueue q (fun x => { x with waiting := x.waiting ++ [(bs, src)] })
  else s

/-- Entries that wait in the completion queue of queue `q` hold `q` back (R379, R385, R391, R392). -/
def State.entryWaits (s : State) (q : Nat) : Bool :=
  (s.absQueue (s.queueCo q) (s.queue q).pair.toNat).elim false (fun p => !(s.queue p).waiting.isEmpty)

/-! ### The error logger (R422 to R428) -/

/-- Packs fields from bit 0 upward (R383). -/
def packBits : List (Nat × Nat) → Nat
  | [] => 0
  | (w, v) :: t => v % 2 ^ w + 2 ^ w * packBits t

/-- Stage clock of a point in MHz (R444). -/
def stageMhz (op : Nat) : Nat := [600, 750, 900, 1050, 1200, 1350, 1550, 1750].getD op 1750

/-- Stage-clock periods of the house epoch in progress: those of the wall time since it began, less the stretched ones (R24, R422)
(DEDUCED, log 106). -/
def State.epochPeriods (s : State) : Nat := (s.nowNs - s.tor.epochNs) * stageMhz s.pwr.op.toNat / 1000 - s.pwr.stretch

/-- The cue timestamp (R422). -/
def State.stamp (s : State) : DWord :=
  BitVec.ofNat 64 (fld 16 (s.tor.houseEpoch.toNat % 2 ^ 48) + min 65535 s.epochPeriods)

/-- A record's 32 bytes (R422). -/
def errBytes (r : ErrRec) : List Byte :=
  leBytes 8 r.stamp.toNat ++ leBytes 2 r.source.toNat ++ [BitVec.ofNat 8 (r.cls.toNat + 16 * r.company)] ++
    [BitVec.ofNat 8 (b2n r.closed + 2 * b2n r.update + 4 * b2n r.injected + 8 * b2n r.merged + 16 * b2n r.house)] ++
    leBytes 2 r.code.toNat ++ leBytes 4 r.rept.toNat ++ leBytes 14 (packBits r.detail)

/-- Mirrors a record to every enabled error queue of its company and of the house (R428). -/
def State.mirror (s : State) (r : ErrRec) : State :=
  s.queues.foldl (fun s x =>
    if x.2.enable ∧ x.2.typ = 5 ∧ (s.queueCo x.1 = 0 ∨ s.queueCo x.1 = r.company) then
      if (s.queue x.1).depth ≤ (s.queue x.1).count + (s.queue x.1).waiting.length then
        { s with err := { s.err with mirrorDrops := s.err.mirrorDrops + 1 } }
      else s.post x.1 (errBytes r) none
    else s) s

/-- Writes a record into the pinned or circular region and mirrors it (R425, R428). -/
def State.writeRing (s : State) (r : ErrRec) : State :=
  let e := s.err
  let above := (tget none e.ring e.next).isSome
  let e := { e with
    ring := tset none e.ring e.next (some r)
    overwritten := e.overwritten + (if above then 1 else 0)
    pinned := min 1024 (e.pinned + 1)
    next := if e.next = 4031 then 1024 else e.next + 1 }
  State.mirror { s with err := e } r

/-- Puts a fatal record into a fatal slot (R426). -/
def ErrState.fatalSlot (e : ErrState) (r : ErrRec) : ErrState :=
  let at_ := fun n => tget none e.ring (4032 + n)
  match (List.range 64).find? (fun n => e.occ.getLsbD n && (at_ n).elim false (fun x => decide (x.source = r.source) && decide (x.code = r.code))) with
  | some n => { e with ring := tmod none e.ring (4032 + n) (fun x => x.map (fun x => { x with rept := satAdd x.rept 1 })) }
  | none =>
    match (List.range 64).find? (fun n => !e.occ.getLsbD n) with
    | some n => { e with ring := tset none e.ring (4032 + n) (some r), occ := e.occ ||| (1 <<< n) }
    | none =>
      { e with fatalFull := true,
               ring := tmod none e.ring 4095 (fun x => x.map (fun x => { x with rept := satAdd x.rept 1, merged := true })) }

/-- A record enters the logger: fatal ones at once, others through the input buffer (R426, R427). -/
def State.logNow (s : State) (r : ErrRec) : State :=
  if r.cls = 3 then
    let s := s.writeRing r
    { s with err := s.err.fatalSlot r, svc := { s.svc with alert := s.svc.powered || s.svc.alert } }
  else if s.err.buffer.length < 256 then { s with err := { s.err with buffer := s.err.buffer ++ [r] } }
  else match r.cls.toNat with
    | 0 => { s with err := { s.err with dropCorrected := satAdd s.err.dropCorrected 1 } }
    | 1 => { s with err := { s.err with dropDeferred := satAdd s.err.dropDeferred 1 } }
    | _ => { s with err := { s.err with dropUncorrected := satAdd s.err.dropUncorrected 1 } }

/-- The closing copy of a group, over its open record where that still stands in the ring (R424, R425) (DEDUCED, log 83). -/
def State.closeGroup (s : State) (g : ErrGroup) (n : Word) : State :=
  if n = 0 then s
  else
    let copy := { g.first with rept := n, closed := true }
    match s.err.ring.find? (fun x => x.2 = some g.first ∧ x.1 < 4032) with
    | some (i, _) => State.mirror { s with err := { s.err with ring := tset none s.err.ring i (some copy) } } { copy with update := true }
    | none => s.writeRing copy

/-- A record is raised at its source and coalesced (R424) (DEDUCED, log 83). -/
def State.raise (s : State) (r : ErrRec) : State :=
  let r := { r with stamp := s.stamp }
  if r.cls = 3 then s.logNow r
  else
    let same := fun (g : ErrGroup) => decide (g.first.source = r.source) && decide (g.first.code = r.code) && decide (g.first.company = r.company)
    match s.err.groups.find? same with
    | some g =>
      if s.nowNs < g.openedNs + 1000000 then
        { s with err := { s.err with groups := s.err.groups.map (fun x => if same x then { x with repeats := satAdd x.repeats 1 } else x) } }
      else
        let s := s.closeGroup g g.repeats
        State.logNow { s with err := { s.err with groups := s.err.groups.filter (fun x => !same x) ++ [{ first := r, openedNs := s.nowNs }] } } r
    | none => State.logNow { s with err := { s.err with groups := s.err.groups ++ [{ first := r, openedNs := s.nowNs }] } } r

/-- SOURCE of R423. -/
def srcOf (kind index : Nat) : BitVec 16 := BitVec.ofNat 16 (fld 12 kind + index)

/-- Raises a record of one kind, class and code. -/
def State.log (s : State) (kind index : Nat) (cls : BitVec 2) (company : Nat) (code : BitVec 16) (detail : List (Nat × Nat)) : State :=
  s.raise { source := srcOf kind index, cls := cls, company := company, code := code, detail := detail }

/-- Adds to a company's FAULTS of the step (R254, R274). -/
def State.addFaults (s : State) (k n : Nat) : State := s.modUpd k (fun u => { u with faults := satAdd u.faults n })

/-! ### Violations (R401, R402, R410) -/

/-- A master of R401. -/
inductive Master where
  | function (f : Nat)
  | queue (q : Nat)
  | channel (c : Nat)

/-- MASTER and ID of R389 for a record's detail. -/
def Master.number : Master → Nat
  | .function f => f
  | .queue q => fld 16 1 + q
  | .channel c => fld 16 2 + c

/-- Logs a violation and freezes its master; a house master is never frozen (R401, R402, R430). -/
def State.violation (s : State) (k : Nat) (cause : Nat) (m : Master) (detail : List (Nat × Nat)) : State :=
  let s := s.raise { source := srcOf 8 0, cls := 2, company := k, code := 0x0003#16, house := decide (k = 0),
                     detail := [(4, k), (8, cause), (18, m.number)] ++ detail }
  match m with
  | .function f =>
    let s := s.queues.foldl (fun s x => if s.queueCo x.1 = k then s.modQueue x.1 (fun q => { q with cause := BitVec.ofNat 8 cause }) else s) s
    if k = 0 then s else s.modFunc f (fun x => { x with frozen := true })
  | .queue q =>
    s.modQueue q (fun x => { x with cause := BitVec.ofNat 8 cause, frozen := x.frozen || decide (k ≠ 0) })
  | .channel c => if k = 0 then s else { s with frozenChans := c :: s.frozenChans.filter (fun x => x ≠ c) }

/-! ### Counters, holds and watches (R156, R158, R395 to R399) -/

/-- A condition of R156. -/
def condHolds (cond : Nat) (c v : Word) : Bool :=
  match cond with
  | 0 => decide ((c - v).toNat < 2 ^ 31)
  | 1 => decide (c = v)
  | _ => decide (c &&& v = v)

/-- Port p is bit 211 − p of PORTS, hence bit 7 − p of the field (R155, R175). -/
def portNamed (ports p : Nat) : Bool := (BitVec.ofNat 8 ports).getLsbD (7 - p)

/-- Sends a frame on a port (DESIGN CHOICE, log 91). -/
def State.send (s : State) (p : Nat) (f : Frame) : State := { s with tor := { s.tor with tx := (p, f) :: s.tor.tx } }

/-- The hold-table entry in force. -/
def Seq.hold (q : Seq) : Option HoldEntry :=
  if q.held then q.image.bind (fun i => i.holds[q.entry.toNat]?) else none

/-- The condition of a hold is met: RELEASE markers leave on the ports it names; on one that is not ACTIVE,
once it is (R158, R193). -/
def State.meetHold (s : State) (k : Nat) (h : HoldEntry) : State :=
  let q := (s.co k).seq
  let s := s.modSeq k (fun q => { q with met := true })
  (List.range 8).foldl (fun s p =>
    if portNamed h.ports p ∧ (s.port p).state = .active then s.send p (.release k q.entry (BitVec.ofNat 16 q.step.toNat)) else s) s

/-- The index in HOLDS of a hold of KIND 0x3 at which the round in progress has a phase due in this step (R318, R319). -/
def State.roundDue (s : State) (k entry : Nat) : Option Nat :=
  let f := (s.co k).far
  let step := (s.co k).seq.step.toNat
  match f.table with
  | none => none
  | some t =>
    if f.inRound then
      (List.range 3).find? (fun i => decide (t.holds.getD i 0 = entry) &&
        decide (step = f.s0 + (if i = 0 then 2 else if i = 1 then t.land else t.land + 1)))
    else none

/-- The value a hold compares its counter with: VALUE, and VALUE + r where a phase of round r is due (R319). -/
def State.holdValue (s : State) (k : Nat) (h : HoldEntry) : Word :=
  if h.kind = 3 then h.value + BitVec.ofNat 32 (s.co k).far.round.toNat else h.value

/-- Evaluates a company's hold; a repair hold is met by the repair alone (R463), and a curtain hold waits for
the snapshot guard as well (R279). Once met it stays met; a handle that was stale at entry never meets it (R156, R158, R161). -/
def State.evalHold (s : State) (k : Nat) : State :=
  let q := (s.co k).seq
  match q.hold with
  | none => s
  | some h =>
    if h.kind = 2 ∨ (h.kind = 1 ∧ (s.co k).pak.guard) then s else
    match s.absCtr k h.index with
    | none => s
    | some i =>
      let c := s.ctr i
      if q.met = false ∧ q.heldStale = false ∧ c.gen = h.gen ∧ condHolds h.cond c.value (s.holdValue k h) then
        s.meetHold k h
      else s

/-- Counts a dropped watch message in LOST and logs SYN_EVENT_LOST (R398). -/
def State.loseMessage (s : State) (k w cause : Nat) : State :=
  (s.modCo k (fun c => { c with synLost := satAdd c.synLost 1 })).log 9 0 1 k 0x0D02#16 [(4, k), (14, w), (2, cause)]

/-- A message of a watch of company `k` finds its event queue gone: CAUSE 1 where it is disabled or is no event queue any more, 2 where its
generation is not QUE_GEN (R398) (DEDUCED, log 108). -/
def State.targetLost (s : State) (q : Nat) (gen : BitVec 8) : Option Nat :=
  let y := s.queue q
  if y.enable = false ∨ y.typ ≠ 4 then some 1 else if y.gen ≠ gen then some 2 else none

/-- A watch sends its message (R398): it is written, waits in the company's list, or is lost. -/
def State.watchMessage (s : State) (w : Nat) : State :=
  let x := s.watch w
  let k := x.company
  let loc := s.localIndex (fun c => c.watches) k w
  let bs := leBytes 8 x.cookie.toNat ++ leBytes 4 (s.ctr ((s.absCtr k x.ctrIndex.toNat).getD 0)).value.toNat ++ leBytes 2 loc ++
    [x.gen] ++ [0] ++ leBytes 8 s.stamp.toNat
  match s.absQueue k x.queue.toNat with
  | none => s.loseMessage k loc 1
  | some q =>
    match s.targetLost q x.queGen with
    | some cause => s.loseMessage k loc cause
    | none =>
      if (s.queue q).takes = false ∨ (s.co k).watchPending.any (fun p => p.1 = q) then
        if (s.co k).watchPending.length < 256 then s.modCo k (fun c => { c with watchPending := c.watchPending ++ [(q, x.gen, w, bs)] })
        else s.loseMessage k loc 0
      else s.produce q bs

/-- Evaluates one watch at the value its counter has taken (R398). -/
def State.evalWatch (s : State) (w : Nat) : State :=
  let x := s.watch w
  if x.enable then
    match s.absCtr x.company x.ctrIndex.toNat with
    | none => s
    | some i =>
      let c := s.ctr i
      if c.gen = x.ctrGen then
        let now := condHolds x.cond.toNat c.value x.value
        let s := s.modWatch w (fun x => { x with held := now })
        if now = true ∧ x.held = false ∧ x.fired = false then
          (s.watchMessage w).modWatch w (fun x => { x with fired := !x.persist })
        else s
      else s
  else s

/-- Holds and watches see the value a counter has taken (R395). -/
def State.evalCtr (s : State) (i : Nat) : State :=
  let s := (0 :: companyList).foldl (fun s k =>
    match (s.co k).seq.hold with
    | some h => if s.absCtr k h.index = some i then s.evalHold k else s
    | none => s) s
  s.watches.foldl (fun s x => if s.absCtr x.2.company x.2.ctrIndex.toNat = some i then s.evalWatch x.1 else s) s

/-- Adds to a counter, modulo 2^32 (R395). -/
def State.addCtr (s : State) (i amount : Nat) : State :=
  (s.modCtr i (fun c => { c with value := c.value + BitVec.ofNat 32 amount })).evalCtr i

/-- Counts an increment that bore a stale generation (R399). -/
def State.countStale (s : State) (k : Nat) : State := s.modCo k (fun c => { c with synStale := satAdd c.synStale 1 })

/-- Nanoseconds until an identifier's generation may change again: 100 ms after its last change (R400). -/
def State.tooSoon (s : State) (changed : Option Nat) : Nat := changed.elim 0 (fun t => t + 100000000 - s.nowNs)

/-- GEN_TOO_SOON: kind 0 queue, 1 counter, 2 watch (R400, R410). -/
def State.logTooSoon (s : State) (k kind index : Nat) (changed : Option Nat) : State :=
  s.log 9 0 1 k 0x0D03#16 [(4, k), (2, kind), (15, index), (7, cdiv (s.tooSoon changed) 1000000)]

/-- A counter's generation advances (R399). -/
def State.retireCtr (s : State) (i : Nat) : State :=
  s.modCtr i (fun c => { c with gen := c.gen + 1, changedNs := some s.nowNs })

/-- A RESET of a counter: within 100 ms of its last generation change it is ignored (R394, R400). -/
def State.resetCtr (s : State) (k index i value : Nat) : State :=
  if s.tooSoon (s.ctr i).changedNs ≠ 0 then s.logTooSoon k 1 index (s.ctr i).changedNs
  else ((s.retireCtr i).modCtr i (fun c => { c with value := BitVec.ofNat 32 value })).evalCtr i

/-- The company that issues an increment. -/
def State.incCo (s : State) (x : Inc) : Nat :=
  match x.src with
  | .stage k => k
  | .dma q => s.queueCo q
  | .engine k _ => k
  | .host k => k

/-- Applies one change of a counter (R394 to R396, R399). -/
def State.applyInc (s : State) (x : Inc) : State :=
  let k := s.incCo x
  match s.absCtr k x.index with
  | some i =>
    if (s.ctr i).gen ≠ x.gen then s.countStale k
    else if x.reset then s.resetCtr k x.index i x.amount else s.addCtr i x.amount
  | none =>
    let s := s.modCo k (fun c => { c with synBlocked := satAdd c.synBlocked 1 })
    match x.src with
    | .stage k => (s.addFaults k 1).log 9 0 2 k 0x0D01#16 [(4, k), (13, x.index)]
    | .dma q => s.violation k 0x13 (.queue q) [(32, x.index)]
    | .engine k c => s.violation k 0x14 (.channel c) [(32, x.index)]
    | .host k => s.violation k 0x11 (.function (s.coFunc k)) [(32, x.index)]

/-- The stage posts an increment into the dual-clock queue (R142, R216, R258). -/
def State.stagePost (s : State) (k index : Nat) (gen : BitVec 8) (amount : Nat) : State :=
  { s with incStage := s.incStage ++ [{ src := .stage k, index := index, gen := gen, amount := amount }] }

/-- A wings engine posts an increment (R395). -/
def State.wingsPost (s : State) (k chan index : Nat) (gen : BitVec 8) (amount : Nat) : State :=
  { s with incWings := s.incWings ++ [{ src := .engine k chan, index := index, gen := gen, amount := amount }] }

/-- A handle (index, generation) of a counter is current (R399): none outside the grant. -/
def State.ctrCurrent (s : State) (k index : Nat) (gen : BitVec 8) : Option Bool :=
  (s.absCtr k index).map (fun i => decide ((s.ctr i).gen = gen))

end Sys2Proof.Machine
end

