-- ==== Sys2Proof/Machine/Operands.lean ====
section
/-!
DEFINITION. The operand forms of the bundle slots (R129 to R140): their fields, the values that R130 reserves, and what each
operation does to its core in its issue cycle. `none` says that the slot executes as NOP under R130.
-/

namespace Sys2Proof.Machine

/-- What an issue takes from outside its core: the key fields of R80, and for SEND the cores of the rectangle. -/
structure SlotCtx where
  seed : Nat
  step : Nat
  attempt : Nat
  /-- physical index of the core at (LROW, LCOL); none outside the rectangle (R139) -/
  dest : Nat → Nat → Option Nat

/-- OP of a slot (R129). -/
def slotOp (w : DWord) : Nat := bits w 63 58

/-- A tile line address is not reserved (R130). -/
def lineOk (l : Nat) : Bool := decide (l < tileLines)

/-! ### Matrix slot (R131 to R133) -/

/-- PAIR: family and the E5M2 flags of activation and weight; none for a reserved code (R131). -/
def runPair (p : Nat) : Option (Family × Bool × Bool) :=
  match p with
  | 0 => some (.fp8, false, false)
  | 1 => some (.fp8, false, true)
  | 2 => some (.fp8, true, false)
  | 3 => some (.fp8, true, true)
  | 4 => some (.p4, false, false)
  | 5 => some (.bf16, false, false)
  | _ => none

/-- k-steps of a run (R131). -/
def runCount (f : Family) (w : DWord) : Nat :=
  match f with
  | .p4 => 32 * (bits w 47 41 + 1)
  | _ => bits w 52 41 + 1

/-- A run slot carries no reserved value (R130, R131). -/
def runOk (w : DWord) : Bool :=
  decide (slotOp w = 1) && !bit w 0 && lineOk (bits w 40 24) && lineOk (bits w 23 7) &&
    (match runPair (bits w 55 53) with
      | none => false
      | some (f, _, _) => decide (f ≠ .p4) || decide (bits w 52 48 = 0))

/-- A new run cuts the run whose issue interval has not elapsed; the cut run still counts for R50, which asks only for the cycle of its
k-step 0 (R32, R50) (DEDUCED, log 28). -/
def Core.cutRun (c : Core) (t : Nat) : Core :=
  match c.runs with
  | r :: rs =>
    if t < r.c0 + r.interval then
      let k := r.enteredBefore t
      { c with runs := { r with limit := k, reads := r.reads.filter (fun x => decide (x.1 < t)) } :: rs }
    else c
  | [] => c

/-- RUN in its issue cycle (R32, R131, R132). -/
def Core.issueRun (c : Core) (w : DWord) : Option Core :=
  if runOk w then
    (runPair (bits w 55 53)).map (fun p =>
      let c := c.cutRun c.cycle
      let m := tget 0 c.msets (bits w 6 1)
      let win := bits w 56 56
      let n := runCount p.1 w
      let rows := BitVec.ofNat 32 m.toNat
      let cols := (List.range 4).map (fun a => BitVec.ofNat 32 (m.toNat / 2 ^ (32 * (a + 1))))
      { c with
        runs := { c0 := c.cycle, steps := n, family := p.1, actE5 := p.2.1, wtE5 := p.2.2, win := win, opens := bit w 57,
                  actLine := bits w 40 24, wtLine := bits w 23 7, rowMask := rows, colMasks := cols, limit := n,
                  reads := portAReads p.1 n c.cycle, act := [], wt := [], logged := false } :: c.runs
        marks := { win := win, entry0 := c.cycle + 4 + p.1.entryDelay, rowMask := rows, colMasks := cols } :: c.marks })
  else none

/-- A drain slot carries no reserved value (R130, R133). -/
def drainOk (w : DWord) : Bool :=
  decide (slotOp w = 2) && decide (bits w 55 43 = 0) && decide (bits w 42 32 < 1280)

/-- A new drain cuts the drain whose issue interval has not elapsed (R53). -/
def Core.cutDrain (c : Core) (t : Nat) : Core :=
  match c.drains with
  | d :: ds => if t < d.d + d.interval then { c with drains := { d with limit := min d.limit (t - d.d) } :: ds } else c
  | [] => c

/-- DRAIN in its issue cycle (R49, R50, R133). -/
def Core.issueDrain (c : Core) (w : DWord) : Option Core :=
  if drainOk w then
    let c := c.cutDrain c.cycle
    let win := bits w 57 57
    let lines := (lastRun c.marks win c.cycle).elim [] (drainLines (BitVec.ofNat 32 (bits w 31 0)))
    some { c with drains := { d := c.cycle, win := win, add := bit w 56, dest := bits w 42 32, lines := lines, values := [],
                              isRead := false, limit := lines.length } :: c.drains }
  else none

/-! ### Vector slot, register forms (R134, R135) -/

/-- Elements an operation writes: ELEM alone under S, else all (R134). -/
def vecElems (w : DWord) : List Nat :=
  if bit w 54 then [bits w 53 48] else List.range (if bit w 57 then 128 else 64)

/-- Element `e` of a register in the format that BF gives. -/
def Core.velem (c : Core) (bf : Bool) (r e : Nat) : Word :=
  if bf then bfWiden (BitVec.ofNat 16 (lineBits (tget 0 c.vregs r) (16 * e) 16)) else c.vword r e

/-- No reserved bit of a register form is set (R130, R134). -/
def vecRegOk (op : Nat) (w : DWord) : Bool := decide (slotOp w = op) && decide (bits w 23 0 = 0)

/-- A register operation over `es`: results land `lat` cycles after issue, element by element (R143). `copy` says that the
operation copies bits and neither flushes nor rounds (R135, log 15). -/
def Core.vecLand (c : Core) (w : DWord) (es : List Nat) (lat : Nat) (f : Nat → Word) : Core :=
  let bf := bit w 57
  es.foldl (fun c e => c.land (c.cycle + lat) 1 (.vreg (bits w 47 43) ((if bf then 2 else 4) * e) (elemBytes bf (f e)))) c

/-- The vector unit's elementwise arithmetic: a function of the elements of VA, VB and VC (R97, R99, R100). -/
def Core.vecArith (op lat : Nat) (f : Word → Word → Word → Word) (c : Core) (w : DWord) : Option Core :=
  if vecRegOk op w then
    let bf := bit w 57
    let c := c.vectorCut c.cycle
    let g := fun e => f (c.velem bf (bits w 42 38) e) (c.velem bf (bits w 37 33) e) (c.velem bf (bits w 32 28) e)
    let es := vecElems w
    some ((c.vecLand w es lat g).countNf (bit w 56) (es.map (fun e => if bf then bfWiden (toBf (g e)) else g e)))
  else none

/-- Copies raw elements (VSEL, VBCAST): the bits pass unchanged (DEDUCED, log 15). -/
def Core.vecCopy (op : Nat) (pick : Core → Nat → Nat × Nat) (c : Core) (w : DWord) : Option Core :=
  if vecRegOk op w then
    let bf := bit w 57
    let n := if bf then 2 else 4
    let c := c.vectorCut c.cycle
    let es := vecElems w
    let raw := fun e => leBytes n (lineBits (tget 0 c.vregs (pick c e).1) (8 * n * (pick c e).2) (8 * n))
    let val := fun e => c.velem bf (pick c e).1 (pick c e).2
    some ((es.foldl (fun c e => c.land (c.cycle + 2) 1 (.vreg (bits w 47 43) (n * e) (raw e))) c).countNf (bit w 56) (es.map val))
  else none

/-- VCMP's condition (R134). -/
def vcmpHolds (fn : Nat) (a b : Word) : Bool :=
  let x := f32dec a
  let y := f32dec b
  match fn with
  | 0 => Fp.eqv x y
  | 1 => Fp.lt x y
  | 2 => Fp.lt x y || Fp.eqv x y
  | _ => !Fp.eqv x y

/-- VADD: VA + VB (R99, R135). -/
def Core.issueVadd (c : Core) (w : DWord) : Option Core := Core.vecArith 0x01 4 (fun a b _ => fadd a b) c w

/-- VSUB: VA − VB (R99, R135). -/
def Core.issueVsub (c : Core) (w : DWord) : Option Core := Core.vecArith 0x02 4 (fun a b _ => fsub a b) c w

/-- VMUL: VA × VB (R99, R135). -/
def Core.issueVmul (c : Core) (w : DWord) : Option Core := Core.vecArith 0x03 4 (fun a b _ => fmul a b) c w

/-- VFMA: VA × VB + VC with one rounding (R99, R135). -/
def Core.issueVfma (c : Core) (w : DWord) : Option Core := Core.vecArith 0x04 4 ffma c w

/-- VMAX (R99). -/
def Core.issueVmax (c : Core) (w : DWord) : Option Core := Core.vecArith 0x05 2 (fun a b _ => fmax a b) c w

/-- VMIN (R99). -/
def Core.issueVmin (c : Core) (w : DWord) : Option Core := Core.vecArith 0x06 2 (fun a b _ => fmin a b) c w

/-- VABS of VA (R135). -/
def Core.issueVabs (c : Core) (w : DWord) : Option Core := Core.vecArith 0x07 2 (fun a _ _ => fabs a) c w

/-- VNEG of VA (R135). -/
def Core.issueVneg (c : Core) (w : DWord) : Option Core := Core.vecArith 0x08 2 (fun a _ _ => fneg a) c w

/-- VCMP: 1.0 where the condition FN holds, +0.0 elsewhere; other codes are reserved (R134, R135). -/
def Core.issueVcmp (c : Core) (w : DWord) : Option Core :=
  if bits w 27 24 < 4 then Core.vecArith 0x09 2 (fun a b _ => if vcmpHolds (bits w 27 24) a b then f32one else f32zero) c w else none

/-- VSEL: VA where VC is nonzero, VB elsewhere; the chosen bits pass unchanged (R135, log 15). -/
def Core.issueVsel (c : Core) (w : DWord) : Option Core :=
  Core.vecCopy 0x0A (fun c e => (if (f32dec (c.velem (bit w 57) (bits w 32 28) e)).isZero then bits w 37 33 else bits w 42 38, e)) c w

/-- VBCAST: every element becomes VA[ELEM] (R135, log 15). -/
def Core.issueVbcast (c : Core) (w : DWord) : Option Core :=
  Core.vecCopy 0x0B (fun _ _ => (bits w 42 38, bits w 53 48)) c w

/-- VFN on a register (R97, R135, R143): its elements are read at issue, and with N and without S it takes two cycles (DEDUCED, log 23). -/
def Core.vecFn (c : Core) (w : DWord) : Option Core :=
  let code := bits w 27 24
  if vecRegOk 0x0C w && fnDefined code then
    let bf := bit w 57
    let n := bit w 55
    let c := c.vectorCut c.cycle
    let g := fun e => vfn code n (c.velem bf (bits w 42 38) e)
    let es := vecElems w
    some ((c.vecLand w es (if n then 20 else 12) g).countNf (bit w 56) (es.map (fun e => if bf then bfWiden (toBf (g e)) else g e)))
  else none

/-- VAGEN.DESC (R113, R135): an odd ELEM is reserved. -/
def Core.vecDesc (c : Core) (w : DWord) : Option Core :=
  let e := bits w 53 48
  if vecRegOk 0x0D w && decide (e % 2 = 0) then
    let c := c.vectorCut c.cycle
    let d := lineBits (tget 0 c.vregs (bits w 42 38)) (32 * e) 64
    some (c.land (c.cycle + 2) 1 (.agenDesc (BitVec.ofNat 64 d)))
  else none

/-! ### Vector slot, row forms (R134 to R138) -/

/-- SRC and DST of a row form are not reserved (R130). -/
def vecRowOk (op : Nat) (w : DWord) : Bool := decide (slotOp w = op) && lineOk (bits w 54 38) && lineOk (bits w 37 21)

/-- Row length N (R134). -/
def rowLen (w : DWord) : Nat := bits w 20 5 + 1

/-- Starts a row operation, sampling what R137 names, and with it SCALE_EXP, step and attempt: a cast that goes on over a curtain keeps
those of its issue (R80, R95, R137) (DESIGN CHOICE, log 96). -/
def Core.startRow (c : Core) (x : SlotCtx) (w : DWord) (op : RowOp) (rate : Nat) (m k : Word) (cd : BitVec 128) : Core :=
  let c := c.vectorCut c.cycle
  let slot := tget {} c.rmon (bits cd 63 58)
  let scale : Int := if bit cd 57 ∧ slot.format ≠ 0 then slot.scaleExp.toInt else 0
  { c with
    vop := some {
      t0 := c.cycle, op := op, bf := bit w 57, nf := bit w 56, newton := bit w 55, src := bits w 54 38, dst := bits w 37 21,
      n := rowLen w, rate := rate, done := 0, lanesMax := lanes f32ninf, lanesSum := lanes f32zero, lanesSq := lanes f32zero,
      m := m, k := k, cdesc := cd, agenDesc := c.agenDesc, agenTable := c.agenTable, seed := x.seed, step := x.step,
      attempt := x.attempt, scaleExp := scale, above := 0, below := 0, rangeLogged := false, line := [], out := [], written := 0 } }

/-- Takes cast descriptor AUX and adds N to its ELEMENT_BASE (R138); none when its TARGET is reserved; its reserved bits [51:0] are ignored (DEDUCED, log 29). -/
def Core.useCast (c : Core) (i n : Nat) : Option (BitVec 128 × Core) :=
  let d := tget 0 c.cdescs i
  (castTarget d).map (fun _ =>
    (d, { c with cdescs := tset 0 c.cdescs i (d + (BitVec.ofNat 128 n <<< 88)) }))

/-- VWIDEN: AUX[1:0] names the format. AUX bits that an operation does not use are no reserved bits and are ignored, here and in a row VFN
(R130, R135) (DESIGN CHOICE, log 99). -/
def Core.rowWiden (x : SlotCtx) (c : Core) (w : DWord) : Option Core :=
  let f := bits w 1 0
  if vecRowOk 0x20 w && (decide (f ≠ 3) || decide (bits w 9 5 = 31)) then some (c.startRow x w (.widen f) 64 0 0 0) else none

/-- VCAST through cast descriptor AUX (R74, R138). -/
def Core.rowCast (x : SlotCtx) (c : Core) (w : DWord) : Option Core :=
  if vecRowOk 0x21 w then
    (c.useCast (bits w 4 0) (rowLen w)).map (fun dc => dc.2.startRow x w (.cast (bits w 4 0)) 64 0 0 dc.1)
  else none

/-- VROWSTAT into register AUX (R101). -/
def Core.rowStat (x : SlotCtx) (c : Core) (w : DWord) : Option Core :=
  if vecRowOk 0x22 w then some (c.startRow x w (.rowstat (bits w 4 0)) 64 0 0 0) else none

/-- VFN on a row (R104, R135) (DESIGN CHOICE, log 99). -/
def Core.rowFn (x : SlotCtx) (c : Core) (w : DWord) : Option Core :=
  if vecRowOk 0x23 w && fnDefined (bits w 3 0) then
    some (c.startRow x w (.fn (bits w 3 0)) (if bit w 55 then 16 else 32) 0 0 0)
  else none

/-- VSMMAX (R108, R136). -/
def Core.rowSmMax (x : SlotCtx) (c : Core) (w : DWord) : Option Core :=
  if vecRowOk 0x24 w then some (c.startRow x w (.smmax (bits w 4 0)) 64 0 0 0) else none

/-- VSMEXP samples m and k (R136, R137). -/
def Core.rowSmExp (x : SlotCtx) (c : Core) (w : DWord) : Option Core :=
  if vecRowOk 0x25 w then some (c.startRow x w (.smexp (bits w 4 0)) 32 (c.vword 30 0) (c.vword 31 0) 0) else none

/-- VSMNORM samples r (R136, R137). -/
def Core.rowSmNorm (x : SlotCtx) (c : Core) (w : DWord) : Option Core :=
  if vecRowOk 0x26 w then
    (c.useCast (bits w 4 0) (rowLen w)).map (fun dc => dc.2.startRow x w (.smnorm (bits w 4 0)) 64 (dc.2.vword 31 1) 0 dc.1)
  else none

/-- VAGEN.TABLE (R112, R135). -/
def Core.rowTable (c : Core) (w : DWord) : Option Core :=
  if vecRowOk 0x27 w then some { c.vectorCut c.cycle with table := some (bits w 54 38, bits w 4 0) } else none

/-! ### Move slot (R139) -/

/-- VLD and VST carry no reserved value. -/
def moveOk (op : Nat) (w : DWord) : Bool := decide (slotOp w = op) && decide (bits w 35 0 = 0) && lineOk (bits w 52 36)

/-- VLD (R139, R143). -/
def Core.issueVld (c : Core) (w : DWord) : Option Core :=
  if moveOk 1 w then some { c with mop := none, vld := some (bits w 57 53, bits w 52 36) } else none

/-- VST (R139, R143). -/
def Core.issueVst (c : Core) (w : DWord) : Option Core :=
  if moveOk 2 w then
    some (({ c with mop := none } : Core).land (c.cycle + 3) 2 (.tile (256 * bits w 52 36) (c.vbytes (bits w 57 53))))
  else none

/-- SEND carries no reserved value and names a core of the rectangle. -/
def sendOk (w : DWord) : Bool :=
  decide (slotOp w = 3) && decide (bits w 5 0 = 0) && lineOk (bits w 57 41) && lineOk (bits w 40 24)

/-- SEND (R139, R143); a position outside the rectangle is reserved. -/
def Core.issueSend (x : SlotCtx) (c : Core) (w : DWord) : Option Core :=
  if sendOk w then
    (x.dest (bits w 23 19) (bits w 18 14)).map (fun d => { c with
      mop := some {
        t0 := c.cycle, src := bits w 57 41, dst := bits w 40 24, target := d, count := bits w 13 6 + 1, done := 0 } })
  else none

/-! ### Control slot (R140, R141) -/

/-- LOOP; a fifth level is reserved (R140, R141). -/
def Core.issueLoop (c : Core) (w : DWord) : Option Core :=
  if slotOp w = 1 ∧ bits w 29 0 = 0 ∧ c.loops.length < 4 then
    some { c with cop := none, loops := ((c.addr + 1) % 4096, (c.addr + 1 + bits w 41 30) % 4096, bits w 57 42) :: c.loops }
  else none

/-- MSETLD (R132, R140). -/
def Core.issueMsetld (c : Core) (w : DWord) : Option Core :=
  if slotOp w = 2 ∧ bits w 28 0 = 0 ∧ lineOk (bits w 57 41) then
    some { c with cop := some { t0 := c.cycle, casts := false, line := bits w 57 41, first := bits w 40 35,
                                count := bits w 34 29 + 1, done := 0 } }
  else none

/-- CDLD (R138, R140). -/
def Core.issueCdld (c : Core) (w : DWord) : Option Core :=
  if slotOp w = 3 ∧ bits w 30 0 = 0 ∧ lineOk (bits w 57 41) then
    some { c with cop := some { t0 := c.cycle, casts := true, line := bits w 57 41, first := bits w 40 36,
                                count := bits w 35 31 + 1, done := 0 } }
  else none

/-- SINC posts its increment two cycles after issue (R142). -/
def Core.issueSinc (c : Core) (w : DWord) : Option Core :=
  if slotOp w = 4 ∧ bits w 20 0 = 0 then
    some (({ c with cop := none } : Core).land (c.cycle + 2) 3 (.sinc (bits w 57 45) (BitVec.ofNat 8 (bits w 44 37)) (bits w 36 21)))
  else none

/-- PARTEND ends the part's step: its bundle still issues its other slots, and the core is gated from the next cycle (R128, R129). -/
def Core.issuePartend (c : Core) (w : DWord) : Option Core :=
  if slotOp w = 5 ∧ bits w 57 0 = 0 then some { c with cop := none, ending := true } else none

/-- BUNDLE_RESERVED, once per part per step (R130). -/
def Core.reserved (c : Core) (slot : Nat) : Core :=
  if c.reservedLogged then c
  else { c.log 1 0x0B02#16 [(12, c.addr), (2, slot)] with reservedLogged := true }

/-- Issues one slot: a slot that carries a reserved value executes as NOP and is logged (R130). -/
def Core.issue (c : Core) (slot : Nat) (f : Core → Option Core) : Core :=
  match f c with
  | some c' => c'
  | none => c.reserved slot

end Sys2Proof.Machine
end

