-- ==== Sys2Proof/Machine/Sequencer.lean ====
section
/-!
DEFINITION. The cue sequencer of a core (R126 to R130, R141, R149): how it fetches part-store lines, splits a bundle into its four slots,
issues them, and follows loops and PARTEND; and how a core runs on, cycle by cycle.
-/

namespace Sys2Proof.Machine

/-! ### Fetching bundles (R126, R129, R149) -/

/-- The sequencer issues a bundle per cycle: its part has not ended, and the core is not gated (R127, R128, R261). -/
def Core.issuing (c : Core) : Bool := !c.ended && !c.gated

/-- Bundles of part-store line `l` as a fetch four core cycles before the present one sees them: a write that such a fetch comes too early
for leaves what stood there before it (R149) (DEDUCED, log 100). -/
def Core.lineSeen (c : Core) (l : Nat) : List (BitVec 256) :=
  match c.partOld.find? (fun o => decide (c.cycle < o.1 + 4) && decide (o.2.1 = l)) with
  | some o => o.2.2
  | none => (List.range 8).map (fun i => tget 0 c.part (8 * l + i))

/-- The line of the bundle address is in hand: it is fetched again when the address comes to another line, and when a LOOP pass returns to
it (R149). -/
def Core.fetched (c : Core) : Core :=
  match c.line with
  | some (l, _) => if l = c.addr / 8 then c else { c with line := some (c.addr / 8, c.lineSeen (c.addr / 8)) }
  | none => { c with line := some (c.addr / 8, c.lineSeen (c.addr / 8)) }

/-- The bundle at the bundle address (R129). -/
def Core.bundle (c : Core) : BitVec 256 := (c.fetched.line).elim 0 (fun l => l.2.getD (c.addr % 8) 0)

/-- The slot at `position` of a bundle: 3 matrix, 2 vector, 1 move, 0 control (R129). -/
def bundleSlot (b : BitVec 256) (position : Nat) : DWord := b.extractLsb' (64 * position) 64

/-! ### Issuing a bundle (R129, R130) -/

/-- The operation of a matrix slot; `none` for one that is reserved (R129, R130). -/
def Core.matrixSlot (c : Core) (w : DWord) : Option Core :=
  match slotOp w with
  | 0x00 => some c
  | 0x01 => c.issueRun w
  | 0x02 => c.issueDrain w
  | _ => none

/-- The operation of a vector slot (R129, R130, R135). -/
def Core.vectorSlot (x : SlotCtx) (c : Core) (w : DWord) : Option Core :=
  match slotOp w with
  | 0x00 => some c
  | 0x01 => c.issueVadd w
  | 0x02 => c.issueVsub w
  | 0x03 => c.issueVmul w
  | 0x04 => c.issueVfma w
  | 0x05 => c.issueVmax w
  | 0x06 => c.issueVmin w
  | 0x07 => c.issueVabs w
  | 0x08 => c.issueVneg w
  | 0x09 => c.issueVcmp w
  | 0x0A => c.issueVsel w
  | 0x0B => c.issueVbcast w
  | 0x0C => c.vecFn w
  | 0x0D => c.vecDesc w
  | 0x20 => c.rowWiden x w
  | 0x21 => c.rowCast x w
  | 0x22 => c.rowStat x w
  | 0x23 => c.rowFn x w
  | 0x24 => c.rowSmMax x w
  | 0x25 => c.rowSmExp x w
  | 0x26 => c.rowSmNorm x w
  | 0x27 => c.rowTable w
  | _ => none

/-- The operation of a move slot (R129, R130, R139). -/
def Core.moveSlot (x : SlotCtx) (c : Core) (w : DWord) : Option Core :=
  match slotOp w with
  | 0x00 => some c
  | 0x01 => c.issueVld w
  | 0x02 => c.issueVst w
  | 0x03 => c.issueSend x w
  | _ => none

/-- The operation of a control slot (R129, R130, R140). -/
def Core.controlSlot (c : Core) (w : DWord) : Option Core :=
  match slotOp w with
  | 0x00 => some c
  | 0x01 => c.issueLoop w
  | 0x02 => c.issueMsetld w
  | 0x03 => c.issueCdld w
  | 0x04 => c.issueSinc w
  | 0x05 => c.issuePartend w
  | _ => none

/-- A slot at `position` issues its operation. -/
def Core.slotEffect (x : SlotCtx) (position : Nat) (c : Core) (w : DWord) : Option Core :=
  match position with
  | 3 => c.matrixSlot w
  | 2 => c.vectorSlot x w
  | 1 => c.moveSlot x w
  | _ => c.controlSlot w

/-- Marks the slot at `position` of the bundle in hand as issued. -/
def Core.marked (c : Core) (position : Nat) : Core := { c with issued := c.issued ||| (1#4 <<< position) }

/-- The slots of the bundle in hand that have not issued yet issue, matrix to control: all four slots of a bundle issue in one cycle
(R129) (DEDUCED, log 100). -/
def Core.issueBundle (x : SlotCtx) (c : Core) : Core :=
  if c.issuing then
    let c := c.fetched
    [3, 2, 1, 0].foldl (fun c p =>
      if c.issued.getLsbD p then c
      else (c.issue p (fun c => c.slotEffect x p (bundleSlot c.bundle p))).marked p) c
  else c

/-! ### The next bundle (R127, R128, R141) -/

/-- The address after `a` under the loops entered, the innermost first, and whether a LOOP pass returns to it. -/
def nextAddr (a : Nat) : List (Nat × Nat × Nat) → Nat × Bool × List (Nat × Nat × Nat)
  | [] => ((a + 1) % 4096, false, [])
  | (first, last, left) :: rest =>
    if a = last then (if left = 0 then nextAddr a rest else (first, true, (first, last, left - 1) :: rest))
    else ((a + 1) % 4096, false, (first, last, left) :: rest)

/-- The sequencer moves to the next bundle, or the part has ended with this one (R127, R128, R141). -/
def Core.nextBundle (c : Core) : Core :=
  let c := { c with issued := 0 }
  if c.ending then { c with ending := false, ended := true, gated := true, line := none, loops := [] }
  else if c.issuing then
    let n := nextAddr c.addr c.loops
    { c with addr := n.1, loops := n.2.2, line := if n.2.1 then none else c.line }
  else c

/-- What the units do in core cycle `t`, with the accesses they make (R143). -/
def Core.unitCycle (c : Core) (t : Nat) : Core :=
  (((((((c.drainReads t).arrays t).drainWrites t).vectorCycle t).tableCycle t).vldCycle t).sendCycle t).loadCycle t

/-- Core cycle `t` is over: the next bundle is in hand, and what is due lands (R37, R129, R143). -/
def Core.endCycle (c : Core) (t : Nat) : Core :=
  let c : Core := { c with acc := [], waiting := [], seen := [], partOld := c.partOld.filter (fun o => decide (t + 1 < o.1 + 4)) }
  let c := ({ c.nextBundle with cycle := t + 1 } : Core).applyDue (t + 1)
  { c.again.foldl (fun c m => c.tileWrite (256 * m.1) (leBytes 256 m.2.toNat)) c with again := [] }

/-- One stage cycle of a core. At the first one of a core cycle the bundle issues; accesses are served, and while one waits the whole core
stalls; the units move in the stage cycle that serves the last one (R37, R118, R129). -/
def Core.tick (x : SlotCtx) (c : Core) : Core :=
  let t := c.cycle
  let v := c.stageCycle
  let c := c.issueBundle x
  let now := c.incoming.filter (fun m => m.1 = v)
  let fixed := (c.fixed.filter (fun f => f.1 = v)).map (fun f => f.2)
  let c : Core := { c with incoming := c.incoming.filter (fun m => decide (v < m.1)), fixed := c.fixed.filter (fun f => decide (v < f.1)) }
  let d := c.unitCycle t
  let all := d.accesses t
  let left := serveStage fixed (if c.waiting = [] then all else c.waiting)
  let served := all.filter (fun a => !left.contains a)
  if left = [] then (now.foldl (Core.takeInbound served) d).endCycle t
  else { now.foldl (Core.takeInbound served) c with waiting := left, stalls := c.stalls + 1, lag := c.lag + 1 }

/-- Nothing is in flight and nothing but NOPs can issue, so cycles change only the count and the address. -/
def Core.quiet (c : Core) : Bool :=
  c.runs.isEmpty && c.drains.isEmpty && c.landings.isEmpty && c.vop.isNone && c.mop.isNone && c.cop.isNone
    && c.fixed.isEmpty && c.acc.isEmpty && c.waiting.isEmpty && c.incoming.isEmpty && c.vld.isNone && c.table.isNone && c.loops.isEmpty && c.partOld.isEmpty && !c.ending && decide (c.issued = 0)
    && (!c.issuing || (c.part.isEmpty && c.line.elim true (fun l => l.2.all (fun b => decide (b = 0)))))

/-- `n` cycles of a quiet core: its sequencer walks through NOPs (R127, R129). -/
def Core.idle (n : Nat) (c : Core) : Core :=
  if c.issuing then
    let a := (c.addr + n) % 4096
    { c with cycle := c.cycle + n, addr := a, line := if a % 8 = 0 then none else some (a / 8, []) }
  else { c with cycle := c.cycle + n }

/-- Runs the core until its stage cycle reaches `s`; `fuel` bounds the stage cycles (R118). -/
def Core.runToStage (x : SlotCtx) : Nat → Core → Nat → Core
  | 0, c, _ => c
  | fuel + 1, c, s =>
    if s ≤ c.stageCycle then c
    else if c.quiet then c.idle (s - c.stageCycle)
    else Core.runToStage x fuel (c.tick x) s

/-- A tile line as a fixed read sees it in the stage cycle in hand: in a stall, with the core's writes that have been served (R37). -/
def Core.fixedRead (c : Core) (line : Nat) : Line × Core :=
  if c.waiting.isEmpty then c.readLine line
  else
    let d := c.unitCycle c.cycle
    let due := d.landings.filter (fun l => decide (l.cycle = c.cycle + 1) &&
      match l.eff with
      | .tile a _ => decide (a / 256 = line) && !c.waiting.contains (l.prio, 0, a / 256)
      | .tileWords n _ => decide (n = line) && !c.waiting.contains (l.prio, 0, n)
      | _ => false)
    if due.isEmpty || c.again.any (fun m => decide (m.1 = line)) then c.readLine line
    else
      let (l, e) := ([0, 1, 2].foldl (fun c p => (due.filter (fun l => l.prio = p)).foldl (fun c l => c.apply l.eff) c) c).readLine line
      (l, { c with errs := e.errs, faults := e.faults, ceCount := e.ceCount, ueCount := e.ueCount, eccBank := e.eccBank, free := e.free })

end Sys2Proof.Machine
end

