-- ==== Sys2Proof/Machine/MeshLines.lean ====
section
/-!
DEFINITION. How a core's results reach the module (R59, R60, R63), and how lines cross the mesh (R168 to R173, R517) and enter tile memory
and part store (R36, R37, R149).
-/

namespace Sys2Proof.Machine

/-- Arms a unit for repair, once, and logs RPR_ARMED (R461). -/
def State.arm (s : State) (kind phys addr : Nat) : State :=
  let a : Armed := { kind := kind, phys := phys, addr := addr }
  if s.rpr.armed.any (fun x => decide (x.kind = kind) && decide (x.phys = phys) && decide (x.addr = addr)) ∨ (kind = 0 ∧ s.rpr.armed.any (fun x => x.kind = 0 ∧ x.phys = phys)) then s
  else State.log { s with rpr := { s.rpr with armed := s.rpr.armed ++ [a] } } 0xD 0 1 0 0x0401#16 [(2, kind), (10, phys), (32, addr)]

/-- Uncorrected core faults toward repair (R461): a tile word whose bank has a spare row arms that row, others count toward the core. -/
def State.countRepair (s : State) (p k : Nat) (errs : List ErrRec) : State :=
  let bank := fun (r : ErrRec) => (r.detail.getD 0 (0, 0)).2
  let row := fun (r : ErrRec) => r.code = 0x0203#16 ∧ tget 0 (s.core p).tileSpares (bank r) < 8
  let bad := errs.filter (fun r => r.cls = 2)
  let s := (bad.filter (fun r => row r)).foldl (fun s r => s.arm 1 p (64 * (r.detail.getD 1 (0, 0)).2 + bank r)) s
  let n := (bad.filter (fun r => ¬ row r)).length
  if n = 0 then s
  else
    let now := (s.co k).upd.commits.toNat
    let s := s.modCore p (fun c => { c with
      faultCommits := (List.replicate n now ++ c.faultCommits).filter (fun x => decide (now < x + s.rpr.window.toNat)) })
    if s.rpr.threshold.toNat ≤ (s.core p).faultCommits.length then s.arm 0 p 0 else s

/-! ### Lines on the mesh (R168 to R173, R517) -/

/-- The mesh latency between two logical positions (R169). -/
def meshLatency (r1 c1 r2 c2 : Nat) : Nat :=
  2 * ((r1 - r2) + (r2 - r1) + (c1 - c2) + (c2 - c1) + 1) + (if decide (c1 < 16) = decide (c2 < 16) then 0 else 6)

/-- The edge-plane latency from die `east` to a logical position (R170). -/
def edgeLatency (east : Bool) (lcol : Nat) : Nat :=
  4 + 2 * ((if lcol < 16 then lcol else 31 - lcol) + 1) + (if east = decide (16 ≤ lcol) then 0 else 8)

/-- Logical index of a position (R171). -/
def logicalIndex (r c : Nat) : Nat := 32 * r + c

/-- Positions between two coordinates, from one to the other, both included. -/
def between (a b : Nat) : List Nat :=
  if a ≤ b then (List.range (b - a + 1)).map (fun i => a + i) else (List.range (a - b + 1)).map (fun i => a - i)

/-- Positions that a core-plane line passes: along its row, then along the column (R169). -/
def meshRoute (r1 c1 r2 c2 : Nat) : List (Nat × Nat) :=
  (between c1 c2).map (fun c => (r1, c)) ++ ((between r1 r2).drop 1).map (fun r => (r, c2))

/-- The points of a core-plane line: the link to each next router, and at last the core's inbound port; a router costs 2 cycles, and the
hop between the dies 8 in its place (R169). -/
def meshPath (dest : Nat) : List (Nat × Nat) → List (Nat × MeshPoint)
  | [] => []
  | [_] => [(2, .inbound dest)]
  | a :: b :: rest =>
    (if decide (a.2 < 16) = decide (b.2 < 16) then 2 else 8, .link (logicalIndex a.1 a.2) (logicalIndex b.1 b.2)) :: meshPath dest (b :: rest)

/-- Cycles from the head of a path. -/
def headDelay (path : List (Nat × MeshPoint)) : Nat := (path.head?).elim 0 (fun x => x.1)

/-- A SEND's line from core `p` enters the mesh (R139, R169). -/
def State.meshSend (s : State) (p : Nat) (o : SentLine) : State :=
  let a := s.roleOf p
  let b := s.roleOf o.target
  let path := meshPath o.target (meshRoute a.lrow a.lcol b.lrow b.lcol)
  { s with mesh := s.mesh ++ [{ core := o.target, part := false, line := o.line, data := o.data, edge := false,
                                rank := logicalIndex a.lrow a.lcol, east := false, left := o.enters,
                                entered := o.enters, want := o.enters + headDelay path, path := path }] }

/-- The points of an edge-plane line: on its own die its row channel 4 cycles on; from the other die its bridge path at once and its row
channel 12 cycles on; then the core's inbound port, 2 cycles for each logical position (R170, R517). -/
def edgePath (east : Bool) (p lrow lcol : Nat) : List (Nat × MeshPoint) :=
  let home := decide (16 ≤ lcol)
  let last := (2 * ((if lcol < 16 then lcol else 31 - lcol) + 1), MeshPoint.inbound p)
  if east = home then [(4, .rowChannel lrow home), last] else [(0, .bridge lrow home), (12, .rowChannel lrow home), last]

/-- The first of `fuel` stage cycles from `v` in which no line of company `k` leaves edge source `rank` of die `east` (R170). -/
def State.leaveAt (s : State) (k : Nat) (east : Bool) (rank : Nat) : Nat → Nat → Nat
  | 0, v => v
  | fuel + 1, v =>
    if s.mesh.any (fun m => m.edge && decide (m.east = east) && decide (m.rank = rank) && decide (m.left = v) && decide (s.coreCo m.core = k))
    then State.leaveAt s k east rank fuel (v + 1) else v

/-- A line is ready to leave an edge-plane source at stage cycle `leave` for a core; the source passes one line per cycle (R170, R517). -/
def State.edgeSend (s : State) (east : Bool) (rank leave p line : Nat) (part : Bool) (data : Line) : State :=
  let r := s.roleOf p
  let path := edgePath east p r.lrow r.lcol
  let v := s.leaveAt (s.coreCo p) east rank (s.mesh.length + 1) leave
  { s with mesh := s.mesh ++ [{ core := p, part := part, line := line, data := data, edge := true, rank := rank, east := east, left := v,
                                entered := v, want := v + headDelay path, path := path }] }

/-- Place of an edge source in the order of R171: the collective engine, the ports, the update engines, the fly engines. -/
def collectiveRank : Nat := 0
/-- Rank of a fly engine; the ports and the update engines would stand between it and the collective engine, and deliver no line to tile
memory of themselves (R171). -/
def flyRank (e : Nat) : Nat := 64 + e

/-- Line `a` is served before line `b` where both want one point in one cycle (R171, R173): at a core's port the edge-plane line; on the
edge plane by the order of the sources; on the core plane the line that entered the router earlier, then the lower source index. -/
def meshBefore (a b : MeshLine) : Bool :=
  if a.edge ≠ b.edge then a.edge
  else if a.edge then decide (a.rank < b.rank)
  else decide (a.entered < b.entered) || (decide (a.entered = b.entered) && decide (a.rank < b.rank))

/-- The point that a line wants in cycle `v`. -/
def MeshLine.wants (m : MeshLine) (v : Nat) : Option MeshPoint := if m.want ≤ v then (m.path.head?).map (fun x => x.2) else none

/-- Line `i` of `ls` is served in cycle `v`: no line that wants its point goes before it; between equals the one that left first
(R171) (DEDUCED, log 101). -/
def meshServed (ls : List MeshLine) (v i : Nat) (m : MeshLine) : Bool :=
  ls.zipIdx.all (fun n => decide (n.2 = i) || decide (n.1.wants v ≠ m.wants v) || meshBefore m n.1 || (!meshBefore n.1 m && decide (i < n.2)))

/-- A line passes the point it wanted in cycle `v`. -/
def MeshLine.passed (m : MeshLine) (v : Nat) : MeshLine :=
  let rest := m.path.drop 1
  { m with entered := v, want := v + headDelay rest, path := rest }

/-- One stage cycle of the mesh for a company's lines: those still on their way, those that leave their destination router in this cycle,
and how many waited (R171). -/
def meshStep (v : Nat) (ls : List MeshLine) : List MeshLine × List MeshLine × Nat :=
  let out := ls.zipIdx.map (fun x =>
    if (x.1.wants v).isNone then (x.1, false)
    else if meshServed ls v x.2 x.1 then (x.1.passed v, false) else ({ x.1 with want := v + 1 }, true))
  ((out.filter (fun x => !x.1.path.isEmpty)).map (fun x => x.1), (out.filter (fun x => x.1.path.isEmpty)).map (fun x => x.1),
    (out.filter (fun x => x.2)).length)

/-! ### What a core produces -/

/-- Moves what a core has produced into the module: records under its own source, mesh lines, increments, counts (R59, R60, R100, R142). -/
def State.collect (s : State) (p : Nat) : State :=
  let c := s.core p
  let k := s.coreCo p
  let s := { s with free := c.free, cores := tmod {} s.cores p (fun c =>
    { c with free := 0, errs := [], out := [], incs := [], nonfinite := 0, faults := 0 }) }
  let s := c.out.foldl (fun s o => s.meshSend p o) s
  let s := c.incs.foldl (fun s i => s.stagePost k i.1 i.2.1 i.2.2) s
  let s := if c.nonfinite = 0 ∧ c.faults = 0 then s
    else s.modUpd k (fun u => { u with nonfinite := satAdd u.nonfinite c.nonfinite, faults := satAdd u.faults c.faults })
  State.countRepair (c.errs.foldl (fun s r => s.raise { r with source := srcOf 0 p, company := k }) s) p k c.errs

/-- Changes one core under its company's stage and collects what it produced. -/
def State.onCore (s : State) (p : Nat) (f : Core → Core) : State :=
  State.collect (s.modCore p (fun c => f { c with free := s.free })) p

/-- What an issue on core `p` takes from its company (R80, R139). -/
def State.slotCtx (s : State) (p : Nat) : SlotCtx :=
  let k := s.coreCo p
  let q := (s.co k).seq
  { seed := q.image.elim 0 (fun i => i.seed), step := q.step.toNat, attempt := q.attempt.toNat, dest := fun r c => s.relPhys k r c }

/-! ### Arrivals (R36, R37, R149) -/

/-- The first core cycle whose fetch sees a part-store line written in stage cycle `w`, on a core that has come to that stage cycle
(R149) (DEDUCED, log 100). -/
def Core.visibleFrom (c : Core) (w : Nat) : Nat := if w < c.stageCycle then c.cycle else c.cycle + 1

/-- A line arrives in stage cycle `cycle`: a part-store line is written at once; a tile line in its stage cycle through the write port, a
fixed access, readable from the next cycle (R36, R37, R149) (DEDUCED, log 32). -/
def Core.inbound (x : SlotCtx) (c : Core) (cycle : Nat) (m : MeshLine) : Core :=
  if m.part then
    let c := c.runToStage x (cycle + 1) cycle
    let bs := leBytes 256 m.data.toNat
    let old := (List.range 8).map (fun i => tget 0 c.part (8 * m.line + i))
    { c with partOld := c.partOld ++ [(c.visibleFrom cycle, m.line, old)],
             part := iter 8 (fun i t => tset 0 t ((8 * m.line + i) % 4096) (BitVec.ofNat 256 (leNat ((bs.drop (32 * i)).take 32)))) c.part }
  else if c.stageCycle ≤ cycle then
    { c with fixed := c.fixed ++ [(cycle, false, m.line % 64)], incoming := c.incoming ++ [(cycle, m.line, m.data)] }
  else c.tileWrite (256 * m.line) (leBytes 256 m.data.toNat)

/-- One stage cycle of a company's mesh: lines move, waits are counted, and lines that arrive are written (R36, R171). -/
def State.meshCycle (s : State) (k v : Nat) : State :=
  let mine := s.mesh.filter (fun m => decide (s.coreCo m.core = k))
  if mine.isEmpty then s
  else
    let r := meshStep v mine
    let s := { s with mesh := s.mesh.filter (fun m => decide (s.coreCo m.core ≠ k)) ++ r.1 }
    let s := if r.2.2 = 0 then s
      else s.modCo k (fun c => { c with tor := { c.tor with meshWaits := c.tor.meshWaits + BitVec.ofNat 32 r.2.2 } })
    r.2.1.foldl (fun s m => s.onCore m.core (fun c => c.inbound (s.slotCtx m.core) v m)) s

/-- The line that arrives at core `p` in stage cycle `v` goes into tile memory bank `bank` (R36, R37). -/
def State.arrives (s : State) (k v p bank : Nat) : Bool :=
  (meshStep v (s.mesh.filter (fun m => decide (s.coreCo m.core = k)))).2.1.any (fun m => decide (m.core = p) && !m.part && decide (m.line % 64 = bank))

end Sys2Proof.Machine
end

