-- ==== Sys2Proof/Machine/Journal.lean ====
section
/-!
DEFINITION. How a host command comes to run: rings as the module reads them (R378, R379, R393), the fetch of a command into the list of the
stage manager and its completion journal (R383, R385, R414, R418), whose turn it is (R413), the checks of R384, and the reply (R386, R387).
-/

namespace Sys2Proof.Machine

/-! ### Status codes (R12) and answers -/

def stDone : Byte := 0x00
def stBusy : Byte := 0x01
def stDenied : Byte := 0x02
def stBadOpcode : Byte := 0x03
def stBadArg : Byte := 0x04
def stNoResource : Byte := 0x05
def stTxnAborted : Byte := 0x06
def stStale : Byte := 0x07
def stReset : Byte := 0x08
def stLocked : Byte := 0x09
def stFault : Byte := 0x0A

/-- What a command's body answers. -/
structure Answer where
  state : State
  status : Byte := 0
  detail : Byte := 0
  retry : Nat := 0
  result : List Byte := []
  txn : Option Word := none
  /-- the reply waits for the hardware, or for a restart (R418) -/
  waits : Bool := false
  journal : JournalState := .waiting

/-! ### The first of a list -/

/-- Changes the first entry that satisfies `p`. -/
def modFirst {α : Type} (p : α → Bool) (f : α → α) : List α → List α
  | [] => []
  | x :: xs => if p x then f x :: xs else x :: modFirst p f xs

/-- Drops the first entry that satisfies `p`. -/
def dropFirst {α : Type} (p : α → Bool) : List α → List α
  | [] => []
  | x :: xs => if p x then xs else x :: dropFirst p xs

/-- The values of `f` on a list, where there is one for every entry. -/
def allSome {α β : Type} (f : α → Option β) : List α → Option (List β)
  | [] => some []
  | x :: xs => (f x).bind (fun y => (allSome f xs).map (fun ys => y :: ys))

/-! ### Rings as the module reads them (R378, R379, R393) -/

/-- A host read can go out for a queue: of the 2,048 read slots one is free, and the queue holds fewer than 64 (R393). -/
def State.slotFree (s : State) (q : Nat) : Bool :=
  decide ((s.readSlots.filter (fun x => decide (x.2.use ≠ 0))).length < 2048) &&
    decide ((s.readSlots.filter (fun x => decide (x.2.use = 1) && decide (x.2.queue = q))).length < 64)

/-- Entry `i` from HEAD as the module has it: read from host memory through a read slot, or from DRAM in a wings slot (R17, R378, R393)
(DEDUCED, log 109). -/
def State.ringEntry (s : State) (q i : Nat) : Option (List Byte) :=
  let x := s.queue q
  let a := x.entryAddr (x.head + i)
  if x.loc then (s.wingsFind (.ring q) a).map (fun g => leBytes 64 g.data.toNat)
  else if s.slotFree q then some (mread s.hostMem a 64) else none

/-- The module has taken `n` entries: HEAD moves past them (R379, R383). -/
def State.takeEntries (s : State) (q n : Nat) : State :=
  let x := s.queue q
  let s := if x.loc then (List.range n).foldl (fun s i => s.wingsUse (.ring q) (x.entryAddr (x.head + i)) 64) s else s
  s.modQueue q (fun x => { x with head := (x.head + n) % (2 * x.depth) })

/-! ### Replies (R385 to R387, R418) -/

/-- A completion-queue entry: 32 bytes and the tail of R387. -/
def completionEntry (body : List Byte) (kind : Byte) (src : Nat) (gen : BitVec 8) : List Byte :=
  padTo 32 body ++ [kind, 0] ++ leBytes 2 src ++ [gen]

/-- The bytes of a reply (R386). -/
def replyBytes (h : Pkt) (opcode : BitVec 16) (company : Nat) (status detail : Byte) (retry : Nat) (txn : Word) (result : List Byte) : List Byte :=
  leBytes 4 h.tag.toNat ++ leBytes 2 opcode.toNat ++ [status, detail] ++ leBytes 2 retry ++ [BitVec.ofNat 8 company, 0] ++
    leBytes 4 txn.toNat ++ padTo 16 result

/-- The command has been run or is waiting to: no reply has been made for it. -/
def Journal.unanswered (j : Journal) : Bool := decide (j.state ≠ .replied) && decide (j.state ≠ .posting)

/-- Changes the entry of a command that has no reply yet. -/
def State.modEntry (s : State) (j : Journal) (f : Journal → Journal) : State :=
  { s with sm := { s.sm with journal := modFirst (fun x => x.unanswered && decide (x.pkt = j.pkt) && decide (x.gen = j.gen)) f s.sm.journal } }

/-- Replies to a command in PAIR of its queue, unless QUIET suppresses it or its generation has advanced, and notes it in the journal
(R383, R386, R399, R418). -/
def State.reply (s : State) (j : Journal) (status detail : Byte) (retry : Nat) (txn : Word) (result : List Byte) : State :=
  let x := s.queue j.pkt.queue
  let k := s.queueCo j.pkt.queue
  let put := if (bit j.pkt.flags 0 = true ∧ status = stDone) ∨ x.gen ≠ j.gen then none else s.absQueue k x.pair.toNat
  match put with
  | none => s.modEntry j (fun y => { y with state := .replied, status := status })
  | some p =>
    let waits := (s.queue p).enable && !(s.queue p).takes
    let bs := completionEntry (replyBytes j.pkt j.opcode k status detail retry txn result) 1 (s.localIndex (fun c => c.queues) k j.pkt.queue) j.gen
    (s.post p bs (some j.pkt.queue)).modEntry j (fun y => { y with state := if waits then .posting else .replied, status := status })

/-- A reply that waited for space has been written, or is discarded: its command counts as answered (R379, R404). -/
def State.replied (s : State) (src : Option Nat) : State :=
  match src with
  | none => s
  | some q =>
    let js := modFirst (fun j => decide (j.pkt.queue = q) && decide (j.state = .posting)) (fun j => { j with state := .replied }) s.sm.journal
    { s with sm := { s.sm with journal := js } }

/-! ### The fetch (R383, R385, R414, R418) -/

/-- Ring entries of a command (R383). -/
def pktEntries (h : Pkt) : Nat := if 256 < h.length then 1 else 1 + cdiv h.length 64

/-- The header of a command (R383). -/
def readPkt (q : Nat) (b : List Byte) : Pkt :=
  let n := fun (a c : Nat) => leNat ((b.drop a).take c)
  { queue := q, flags := BitVec.ofNat 16 (n 2 2), company := n 4 1, reserved := n 5 1 + 256 * n 0x10 48, length := n 6 2,
    tag := BitVec.ofNat 32 (n 8 4), txn := BitVec.ofNat 32 (n 0x0C 4) }

/-- The commands that wait in the list of the stage manager, oldest first (R414); the image of a command that is being staged is no longer
waiting (R420). -/
def Sm.list (m : Sm) : List Journal :=
  m.journal.filter (fun j => decide (j.state = .accepted) && m.staging.elim true (fun x => decide (x.cmd ≠ j.pkt)))

/-- The journal has an entry for one more command: of its 1,024 one is unused, or holds a command that has been replied to (R418)
(DEDUCED, log 73). -/
def Sm.hasEntry (m : Sm) : Bool := decide (m.journal.length < 1024) || m.journal.any (fun j => decide (j.state = .replied))

/-- A fetched command takes an entry of the journal, the oldest replied one where all are in use (R418). -/
def State.enter (s : State) (j : Journal) : State :=
  let js := if s.sm.journal.length < 1024 then s.sm.journal else dropFirst (fun x => decide (x.state = .replied)) s.sm.journal
  { s with sm := { s.sm with journal := js ++ [j] } }

/-- The queue fetches: it is enabled and not frozen, the stage manager is up, and its command before has been replied to (R385, R402,
R417). -/
def State.fetchReady (s : State) (q : Nat) : Bool :=
  let x := s.queue q
  s.sm.ready && x.enable && decide (x.typ = 1) && !s.queueFrozen q && decide (0 < x.count) && s.sm.hasEntry &&
    s.sm.journal.all (fun j => decide (j.pkt.queue ≠ q) || decide (j.gen ≠ x.gen) || decide (j.state = .replied))

/-- The command at HEAD, once TAIL covers all of its entries: header, opcode and payload bits (R383). Payload bytes beyond LENGTH are zero
(DESIGN CHOICE, log 11). -/
def State.atHead (s : State) (q : Nat) : Option (Pkt × BitVec 16 × Nat) :=
  (s.ringEntry q 0).bind (fun b =>
    let h := readPkt q b
    if pktEntries h ≤ (s.queue q).count then
      (allSome (fun i => s.ringEntry q (1 + i)) (List.range (pktEntries h - 1))).map (fun bs =>
        (h, BitVec.ofNat 16 (leNat (b.take 2)), leNat (bs.flatten.take h.length)))
    else none)

/-- RETRY_US for `n` commands ahead (R414). -/
def Sm.retryUs (m : Sm) (n : Nat) : Nat := max 1 (min 65535 (cdiv (n * m.serviceNs) 1000))

/-- One command is fetched: it waits in the list, or is answered BUSY where its company has 16 there or the module 128 (R414). -/
def State.fetchOne (s : State) (q : Nat) : Option State :=
  if s.fetchReady q then (s.atHead q).map (fun c =>
    let k := s.queueCo q
    let list := s.sm.list
    let j : Journal := { pkt := c.1, payload := c.2.2, gen := (s.queue q).gen, opcode := c.2.1, txn := c.1.txn }
    let s := (s.takeEntries q (pktEntries c.1)).enter j
    if 128 ≤ list.length ∨ 16 ≤ (list.filter (fun x => decide (s.queueCo x.pkt.queue = k))).length then
      s.reply j stBusy 0 (s.sm.retryUs list.length) j.txn []
    else s)
  else none

def State.fetchMany (q : Nat) : Nat → State → State
  | 0, s => s
  | n + 1, s => (s.fetchOne q).elim s (fun t => State.fetchMany q n t)

/-- A command queue fetches what it can (R383, R385). -/
def State.fetch (s : State) (q : Nat) : State := State.fetchMany q (s.queue q).count s

/-- Every command queue fetches what it can. -/
def State.fetchAll (s : State) : State := s.queues.foldl (fun s x => if x.2.typ = 1 then s.fetch x.1 else s) s

/-- Replies to a command that waits on hardware, or at a restart; its queue goes on (R385, R418). -/
def State.answer (s : State) (h : Pkt) (status detail : Byte) (result : List Byte) : State :=
  match s.sm.journal.find? (fun j => j.unanswered && decide (j.pkt = h)) with
  | none => s
  | some j => (s.reply j status detail 0 j.txn result).fetch h.queue

/-! ### Service (R384, R405, R409, R413) -/

/-- Into which transactions a command may be staged (R409). -/
inductive Staging where
  | never
  | epoch
  | curtain
deriving DecidableEq, Repr

/-- The command whose turn it is: the house's oldest; where it has none, the oldest of the company that comes next after the one served
last (R413) (DEDUCED, log 110). -/
def State.turn (s : State) : Option Journal :=
  let oldest := fun (k : Nat) => s.sm.list.find? (fun j => decide (s.queueCo j.pkt.queue = k))
  (oldest 0).orElse (fun _ => ((List.range 15).map (fun i => (s.sm.lastCo + i) % 15 + 1)).findSome? oldest)

/-- The checks of R384 up to its fifth row, for a command whose payload fields take `w` bits: none when they pass. -/
def State.precheck (s : State) (j : Journal) (w : Nat) (house : Bool) (st : Staging) : Option Byte :=
  let h := j.pkt
  let k := s.queueCo h.queue
  if h.reserved ≠ 0 ∨ bits h.flags 15 1 ≠ 0 ∨ 256 < h.length ∨ j.payload / 2 ^ w ≠ 0 then some stBadArg
  else if h.company ≠ k then some stDenied
  else if house = true ∧ k ≠ 0 then some stDenied
  else if h.txn = 0 then (if st = .curtain then some stBadArg else none)
  else
    let x := (s.co k).txn
    match x.opened with
    | some o =>
      if o.id = h.txn then
        (if (st = .curtain ∧ o.curtain = true) ∨ (st = .epoch ∧ o.curtain = false) then none else some stBadArg)
      else if x.aborted.contains h.txn then some stTxnAborted else some stBadArg
    | none => if x.aborted.contains h.txn then some stTxnAborted else some stBadArg

/-- Pair M takes up a command: its company has been served, and its effect goes with the journal's COMMITTED (R413, R418). -/
def State.begin_ (s : State) (j : Journal) : State :=
  let k := s.queueCo j.pkt.queue
  State.modEntry { s with sm := { s.sm with lastCo := if k = 0 then s.sm.lastCo else k } } j (fun y => { y with state := .committed })

/-- Runs a command: its checks, its body, its reply (R384, R386, R418). -/
def State.runCommand (s : State) (j : Journal) (w : Nat) (house : Bool) (st : Staging) (body : State → Nat → Answer) : State :=
  let s := s.begin_ j
  match s.precheck j w house st with
  | some e => s.reply j e 0 0 j.txn []
  | none =>
    let a := body s (s.queueCo j.pkt.queue)
    if a.waits then a.state.modEntry j (fun y => { y with state := a.journal, status := a.status, detail := a.detail, result := a.result })
    else a.state.reply j a.status a.detail a.retry (a.txn.getD j.txn) a.result

/-- The bits of payload fields. -/
def fieldBits (fields : List (Nat × Nat)) : Nat := (fields.map (fun f => f.1)).foldl (· + ·) 0

/-- The command whose turn it is, where it is this one: its header, its opcode, and its payload fields packed as R383 says. -/
def State.turnOf (s : State) (h : Pkt) (opcode : BitVec 16) (fields : List (Nat × Nat)) : Option Journal :=
  if s.sm.ready then
    s.turn.filter (fun j => decide (j.pkt = h) && decide (j.opcode = opcode) && decide (j.payload % 2 ^ fieldBits fields = packBits fields))
  else none

/-- Serves a host command: its queue fetches, and when its turn has come it runs and its queue goes on (R383 to R387, R413, R414)
(DESIGN CHOICE, log 11; DESIGN CHOICE, log 12; DESIGN CHOICE, log 13). -/
def State.serve (s : State) (h : Pkt) (opcode : BitVec 16) (fields : List (Nat × Nat)) (house : Bool) (st : Staging)
    (body : State → Nat → Answer) : State :=
  let s := s.fetch h.queue
  match s.turnOf h opcode fields with
  | none => s
  | some j => (s.runCommand j (fieldBits fields) house st body).fetch h.queue

/-- A body that stages its command (R406): checked now, applied with the transaction. -/
def stageOr (h : Pkt) (i : Instr) (check : State → Nat → Option (Byte × Nat)) (apply : State → Nat → State) (s : State) (k : Nat) : Answer :=
  match check s k with
  | some (e, retry) => { state := s, status := e, retry := retry }
  | none =>
    if h.txn = 0 then { state := apply s k }
    else { state := s.modCo k (fun c => { c with txn := { c.txn with
      opened := c.txn.opened.map (fun o => { o with staged := o.staged ++ [i] }) } }) }

end Sys2Proof.Machine
end

