-- ==== Sys2Proof/Machine/Pacer.lean ====
section
/-!
DEFINITION. The operating point in force (R444 to R450, R516): the pacer, phase requests, fixed mode and island ceilings.
-/

namespace Sys2Proof.Machine

/-- A company's script runs: it is running or held. -/
def State.runs (s : State) (k : Nat) : Bool :=
  decide ((s.co k).seq.state = .running) || decide ((s.co k).seq.state = .held)

/-- The pacer (R445): none in fixed mode. -/
def State.pacerNow (s : State) : Option Nat :=
  let rs := (0 :: companyList).filter (fun k => s.runs k)
  match rs.filter (fun k => !(s.co k).lanes.isEmpty) with
  | [k] => some k
  | [] => rs.head?
  | _ => none

/-- The module is a warm understudy (R487). -/
def State.isWarm (s : State) : Bool :=
  decide (s.boot.phase = 3) && decide (s.island.role = 2) &&
    (s.cip.sealedMode || s.island.sheet.elim false (fun x => decide (x.active ≤ 64))) &&
    (0 :: companyList).all (fun k => decide ((s.co k).seq.state = .empty))

/-- The point that PWR_FIXED_OP gives, or OP0 for a warm understudy (R445). -/
def State.fixedPoint (s : State) : BitVec 3 := if s.isWarm then 0 else s.pwr.fixedOp

/-- The last entry of a list that satisfies `p`. -/
def lastThat {α : Type} (p : α → Bool) (xs : List α) : Option α := xs.foldl (fun o x => if p x then some x else o) none

/-- The request of a company's phase table at an epoch boundary: the last entry whose STEP_CYCLE has been reached; before the first entry of
an attempt of a step, and in a recast or re-shard phase between two, the last entry that an attempt reaches, and until an attempt has ended
INITIAL_OP (R446, R447). -/
def Seq.phaseRequest (q : Seq) : Nat :=
  match q.image with
  | none => 7
  | some im =>
    let before := if q.stepped then (lastThat (fun p => decide (p.1 < im.stepCycles)) im.phases).elim im.initialOp (fun p => p.2) else im.initialOp
    if (q.phase = .step ∨ q.phase = .reshardWait) ∧ q.starting = false then
      (lastThat (fun p => decide (p.1 ≤ q.stepCycle.toNat)) im.phases).elim before (fun p => p.2)
    else before

/-- A stage manager reset is under way, in which setpoints and the operating point hold their last values (R417). -/
def State.smHolds (s : State) : Bool :=
  !s.sm.ready && (decide (s.sm.mode = .adopting) || decide (s.sm.mode = .handover))

/-- The point in force becomes `op`, outside a stage manager reset (R417). -/
def State.setPoint (s : State) (op : BitVec 3) : State := if s.smHolds then s else { s with pwr := { s.pwr with op := op } }

/-- A company epoch boundary numbered `n` after its barrier: when the company is the pacer, its request and the due island ceiling take
effect and fixed mode ends (R447, R450, R516). -/
def State.pacerBoundary (s : State) (k n : Nat) : State :=
  if s.pacerNow = some k then
    let due := fun (w : Nat × BitVec 3) => decide (256 * w.1 + 64 ≤ n)
    let ceil := (lastThat due s.pwr.windows).elim s.pwr.ceiling (fun w => w.2)
    let req := BitVec.ofNat 3 (s.co k).seq.phaseRequest
    State.setPoint { s with pwr := { s.pwr with
      pacer := k, fixed := false, request := req, ceiling := ceil, windows := s.pwr.windows.filter (fun w => !due w) } }
      (if req.toNat ≤ ceil.toNat then req else ceil)
  else s

/-- A house epoch boundary: fixed mode is entered where it is due, and in fixed mode the fixed point takes effect (R516). -/
def State.houseBoundaryPoint (s : State) : State :=
  if s.pacerNow.isNone then
    State.setPoint { s with pwr := { s.pwr with fixed := true } } s.fixedPoint
  else s

end Sys2Proof.Machine
end

