-- ==== Sys2Proof/Machine/ChunkLines.lean ====
section
/-!
DEFINITION. The lines of collective chunks (R205 to R222): the geometry of a sum (R212, R213), add() (R214), how source lines are read and
become ready (R207, R215, R219, R254, R255), where results go (R207), and the transmit positions of a sub-link (R178, R218).
-/

namespace Sys2Proof.Machine

/-! ### Lanes, ports and axes -/

/-- A company holds lanes on port `p`. -/
def Co.onPort (c : Co) (p : Nat) : Bool := c.lanes.any (fun l => l.1 = p)

/-- Lanes that a company holds on a port. -/
def Co.laneCount (c : Co) (p : Nat) : Nat := ((c.lanes.filter (fun l => l.1 = p)).map (fun l => l.2.2)).foldl (· + ·) 0

/-- ACTIVE ports on which a company holds lanes (R188). -/
def State.activePorts (s : State) (k : Nat) : List Nat :=
  (List.range 8).filter (fun p => (s.co k).onPort p && decide ((s.port p).state = .active))

/-- Length of axis 0 T, 1 Q, 2 P, 3 D of a company's image (R119). -/
def Seq.axisLen (q : Seq) (ax : Nat) : Nat := q.image.elim 1 (fun i => i.axes.getD ax 1)

/-- This module's coordinate on axis 0 T to 3 D (R175). -/
def State.coordOn (s : State) (ax : Nat) : Nat := s.island.coord.toNat / 256 ^ ax % 256

/-- The port that carries an axis in a direction (R175). -/
def dirPort (ax : Nat) (plus : Bool) : Nat := 2 * ax + (if plus then 0 else 1)

/-- Half E serves the axes P and D (R205). -/
def halfE (ax : Nat) : Bool := decide (2 ≤ ax)

/-- The cycles of a bridge crossing from one half or die to the other (R205, R215). -/
def crossing (a b : Bool) : Nat := if a = b then 0 else 8

/-! ### Geometry of a sum (R212 to R214) -/

/-- One axis of a sum at this module: axis code, length, coordinate, the lines summed on it in order, and whether the tail is. -/
structure SumStage where
  ax : Nat
  len : Nat
  me : Nat
  lines : List Nat
  tail : Bool

/-- Lines `floor(j H / L)` to `floor((j + 1) H / L) − 1` of a half (R212). -/
def shardLines (half : List Nat) (len j : Nat) : List Nat :=
  let h := half.length
  (half.take ((j + 1) * h / len)).drop (j * h / len)

/-- The two halves of a chunk or sub-chunk (R212). -/
def plusHalf (ls : List Nat) : List Nat := ls.take (cdiv ls.length 2)
def minusHalf (ls : List Nat) : List Nat := ls.drop (cdiv ls.length 2)

/-- Lines that a member owns at a stage: its + shard followed by its − shard (R212, R213). -/
def SumStage.own (t : SumStage) : List Nat := shardLines (plusHalf t.lines) t.len t.me ++ shardLines (minusHalf t.lines) t.len t.me

/-- The stages of a sum: each axis of length 2 or more sums the lines owned on the axis before it (R213). -/
def sumStages : List (Nat × Nat × Nat) → List Nat → Bool → List SumStage
  | [], _, _ => []
  | (ax, len, me) :: rest, ls, tail =>
    let t : SumStage := { ax := ax, len := len, me := me, lines := ls, tail := tail }
    t :: sumStages rest t.own (tail && decide (me = 0))

/-- Direction (true for +) and shard of a line at a stage; the tail is a one-line shard of coordinate 0 (R212, R214). -/
def SumStage.shardOf (t : SumStage) (tailIndex idx : Nat) : Option (Bool × Nat) :=
  if idx = tailIndex then (if t.tail then some (true, 0) else none)
  else
    let find := fun (half : List Nat) => (List.range t.len).find? (fun j => (shardLines half t.len j).contains idx)
    match find (plusHalf t.lines) with
    | some j => some (true, j)
    | none => (find (minusHalf t.lines)).map (fun j => (false, j))

/-- The order in which a member's contributions to the first axis are wanted: by the transfer of R212 that takes them, its own shards last,
then by line; the tail goes with the + shard of coordinate 0 (R214, R215). -/
def SumStage.sendOrder (t : SumStage) (tailIndex : Nat) : List Nat :=
  (List.range t.len).flatMap (fun h =>
    let plus := (t.me + t.len - (h + 1) % t.len) % t.len
    let minus := (t.me + h + 1) % t.len
    shardLines (plusHalf t.lines) t.len plus ++ shardLines (minusHalf t.lines) t.len minus ++
      (if t.tail ∧ plus = 0 then [tailIndex] else []))

/-- Axes of a plan with their lengths and this module's coordinates, but for those of length 1 (R212). -/
def State.planAxes (s : State) (k : Nat) (p : Plan) : List (Nat × Nat × Nat) :=
  (p.axes.map (fun ax => (ax, (s.co k).seq.axisLen ax, s.coordOn ax))).filter (fun a => decide (2 ≤ a.2.1))

def State.stagesOf (s : State) (k : Nat) (p : Plan) (c : Chunk) : List SumStage :=
  sumStages (s.planAxes k p) (List.range c.lines) c.tail

/-- Result lines that a sum delivers on this module, the tail among them (R213, R214). -/
def State.resultCount (s : State) (k : Nat) (p : Plan) (c : Chunk) : Nat :=
  (if p.owned then ((s.stagesOf k p c).getLast?).elim c.lines (fun t => t.own.length) else c.lines) + b2n c.tail

/-! ### Adding lines (R214) -/

/-- Combines two lines element by element. -/
def zipLine (width : Nat) (f : Nat → Nat → Nat) (a b : Line) : Line :=
  BitVec.ofNat 2048 (leNat ((List.range (2048 / width)).flatMap (fun i =>
    leBytes (width / 8) (f (lineBits a (width * i) width) (lineBits b (width * i) width)))))

/-- add() of R214 for FORMAT 0 FP32, 1 BF16, 2 INT32, 3 INT64. -/
def addLines (format : Nat) (a b : Line) : Line :=
  match format with
  | 0 => zipLine 32 (fun x y => (fadd (BitVec.ofNat 32 x) (BitVec.ofNat 32 y)).toNat) a b
  | 1 => zipLine 16 (fun x y => (bfpack ((bfdec (BitVec.ofNat 16 x)).add (bfdec (BitVec.ofNat 16 y)))).toNat) a b
  | 2 => zipLine 32 (fun x y => (x + y) % 2 ^ 32) a b
  | _ => zipLine 64 (fun x y => (x + y) % 2 ^ 64) a b

/-- Elements of a contribution line that are not finite (R254). -/
def lineNonFinite (format : Nat) (l : Line) : Nat :=
  match format with
  | 0 => ((List.range 64).filter (fun i => (f32dec (BitVec.ofNat 32 (lineBits l (32 * i) 32))).nonFinite)).length
  | 1 => ((List.range 128).filter (fun i => (bfdec (BitVec.ofNat 16 (lineBits l (16 * i) 16))).nonFinite)).length
  | _ => 0

/-! ### Plans of a company -/

/-- Plans of the phase in hand: those of the image, and in the re-shard phase those of the re-shard (R206, R228). -/
def Co.plansNow (c : Co) : List Plan :=
  if c.seq.phase = .reshard then c.col.reshard.elim [] (fun r => r.1) else c.seq.image.elim [] (fun i => i.plans)

/-- A plan that the company's engine knows (R206, R228). -/
def Co.plan (c : Co) (id : Nat) : Option Plan := c.plansNow.find? (fun p => p.id = id)

/-- A mirror plan runs in a step alone: one for bank B where the step began with bank A committed, and the reverse (R292). -/
def Seq.mirrorRuns (q : Seq) (id : Nat) : Bool :=
  if id < 0xE000 ∨ 0xEFFF < id then true else q.stepBank = decide (0xE800 ≤ id)

/-- A plan may run in the present phase (R228, R261, R292). -/
def Co.planRuns (c : Co) (id : Nat) : Bool :=
  let mirror := decide (0xE000 ≤ id) && decide (id ≤ 0xEFFF)
  let recast := (c.seq.image.bind (fun i => i.update)).elim false (fun u => decide (u.recastFirst ≤ id) && decide (id ≤ u.recastLast))
  match c.seq.phase with
  | .recast => recast && !mirror && !c.upd.recastArmed
  | .reshard => true
  | _ => !recast && c.seq.mirrorRuns id

/-- The stage cycle at which the step, or the recast or re-shard phase, began, from which ISSUE counts (R209, R228, R261). -/
def Seq.issueBase (q : Seq) : Nat :=
  if q.phase = .step ∨ q.phase = .reshardWait then q.stageCycle.toNat - q.stepCycle.toNat else q.stageCycle.toNat - q.phaseCycle

/-- The chunk that carries the curtain tail (R256). -/
def Co.curtainChunk (c : Co) (plan ci : Nat) : Bool :=
  (c.seq.image.bind (fun i => i.update)).elim false (fun v => decide (v.curtainPlan = plan) && decide (v.curtainChunk = ci))

/-- Changes an active chunk. -/
def State.modActive (s : State) (k plan chunk : Nat) (f : ActiveChunk → ActiveChunk) : State :=
  s.modCol k (fun c => { c with active := c.active.map (fun (a : ActiveChunk) => if a.plan = plan ∧ a.index = chunk then f a else a) })

def Co.activeChunk (c : Co) (plan chunk : Nat) : Option ActiveChunk :=
  c.col.active.find? (fun a => decide (a.plan = plan) && decide (a.index = chunk))

/-- Direction and number of links of a permute (R218). -/
def permuteWay (len : Nat) (dist : Int) : Bool × Nat :=
  let d := (dist % (len : Int)).toNat
  if 2 * d ≤ len then (true, d) else (false, len - d)

/-- The port through which a permute chunk of a plan leaves (R218). -/
def Co.wayPort (c : Co) (p : Plan) (ch : Chunk) : Nat :=
  dirPort (p.axes.getD 0 0) (permuteWay (c.seq.axisLen (p.axes.getD 0 0)) ch.dist).1

/-! ### Moving lines -/

/-- A line becomes ready to leave on a port (R215). -/
def State.ready (s : State) (p : Nat) (l : TorLine) : State := s.modPort p (fun x => { x with txq := x.txq ++ [l] })

/-- The transfer of R212 in which a member sends a line, over all stages in order (R213). -/
def sumRank (stages stage : Nat) (t : SumStage) (back plus : Bool) (shard : Nat) : Nat :=
  let hop := if plus then (t.me + t.len - shard) % t.len else (shard + t.len - t.me) % t.len
  if back then 128 * (2 * stages - stage) + hop + 1 else 128 * stage + hop

/-- Puts a line of a sum in the queue of its port. -/
def State.sumReady (s : State) (k : Nat) (p : Plan) (ci : Nat) (c : Chunk) (stage : Nat) (back : Bool) (idx due : Nat) (data : Line) : State :=
  let st := s.stagesOf k p c
  match st[stage]? with
  | none => s
  | some t =>
    match t.shardOf c.lines idx with
    | none => s
    | some (plus, j) =>
      s.ready (dirPort t.ax plus) { company := k, plan := p.id, place := { chunk := ci, stage := stage, back := back, line := idx }, due := due,
                                    issue := c.issue, rank := sumRank st.length stage t back plus j, forwarded := false, data := data }

/-- A line of a chunk is delivered in stage cycle `leave`: to tile memory over the edge plane of its half, to DRAM in free slots, or to an
update engine (R207, R210, R216). The tail follows the last line and is never handed to an update engine (DEDUCED, log 50). -/
def State.deliver (s : State) (k plan ci : Nat) (c : Chunk) (east : Bool) (idx leave : Nat) (data : Line) : State :=
  let s := s.modActive k plan ci (fun a => { a with delivered := a.delivered + 1, lastEvent := max a.lastEvent leave })
  let s := if idx = c.lines ∧ (s.co k).curtainChunk plan ci then s.modCol k (fun x => { x with tail := some (leave, data) }) else s
  match c.dstKind with
  | 1 => match s.relPhys k (nbits c.dst 26 22) (nbits c.dst 21 17) with
    | some p => s.edgeSend east collectiveRank leave p (nbits c.dst 16 0 + idx) false data
    | none => s
  | 2 => s.modCol k (fun x => { x with writes := x.writes ++
      [{ addr := c.dst + 256 * idx, data := data, due := leave + crossing east (decide (24 ≤ c.dst / quarterBytes)) }] })
  | _ => if idx = c.lines then s
    else s.modCol k (fun x => { x with forEngine := x.forEngine ++ [(c.dst, leave + crossing east (decide (24 ≤ c.dst)), data)] })

/-- A completed line is sent on along the axes before stage `n`, from the last of them to the first (R212, R213, R215). -/
def State.sendOn (s : State) (k : Nat) (p : Plan) (ci : Nat) (c : Chunk) (n : Nat) (half : Bool) (idx due : Nat) (data : Line) : State :=
  let st := s.stagesOf k p c
  (List.range n).reverse.foldl (fun s i =>
    s.sumReady k p ci c i true idx (due + crossing half ((st[i]?).elim half (fun t => halfE t.ax))) data) s

/-- A line is a contribution of this member at a stage: its shard starts here, or it waits for a partial sum; past the last stage it is a
result (R212, R213). -/
def State.contribute (s : State) (k : Nat) (p : Plan) (ci : Nat) (c : Chunk) (stage idx due : Nat) (data : Line) : State :=
  let st := s.stagesOf k p c
  let s := s.modActive k p.id ci (fun a => { a with lines := tset 0 a.lines idx data })
  match st[stage]? with
  | some t =>
    match t.shardOf c.lines idx with
    | none => s
    | some (plus, j) =>
      if j = (if plus then (t.me + t.len - 1) % t.len else (t.me + 1) % t.len) then s.sumReady k p ci c stage false idx due data else s
  | none =>
    let half := halfE ((st.getLast?).elim (p.axes.getD 0 0) (fun t => t.ax))
    let s := s.deliver k p.id ci c half idx due data
    if p.owned = false ∨ idx = c.lines then s.sendOn k p ci c st.length half idx due data else s

/-! ### Reading source lines (R207, R215, R219, R254, R255) -/

/-- Cores armed and not yet repaired (R462). -/
def State.repairCount (s : State) : Nat := (s.rpr.armed.filter (fun a => a.kind = 0)).length

/-- A tail line with the five values that the module places (R255). -/
def State.placeTail (s : State) (k : Nat) (l : Line) : Line :=
  let u := (s.co k).upd
  BitVec.ofNat 2048 (leNat (leBytes 8 u.nonfinite.toNat ++ leBytes 8 u.faults.toNat ++ leBytes 8 s.repairCount ++ leBytes 8 1 ++
    leBytes 8 (b2n u.diverged) ++ (leBytes 256 l.toNat).drop 40))

/-- A contribution line of a sum has been read: its elements that are not finite are counted; the tail takes its placed values, and those of
the curtain tail are kept (R254 to R256). -/
def State.sumRead (s : State) (k : Nat) (p : Plan) (a : ActiveChunk) (i due : Nat) (l : Line) : State :=
  if i = a.chunk.lines then
    let u := (s.co k).upd
    let l := s.placeTail k l
    let s := if (s.co k).curtainChunk p.id a.index then s.modUpd k (fun x => { x with placedNonfinite := u.nonfinite, placedFaults := u.faults }) else s
    s.contribute k p a.index a.chunk 0 i due l
  else
    let n := lineNonFinite p.format l
    let s := if n = 0 then s else s.modUpd k (fun u => { u with nonfinite := satAdd u.nonfinite n })
    s.contribute k p a.index a.chunk 0 i due l

/-- Source line `i` of an active chunk has been read in stage cycle `v`, and is ready at `due` (R215, R218, R219). -/
def State.lineRead (s : State) (k : Nat) (a : ActiveChunk) (i v due : Nat) (l : Line) : State :=
  match (s.co k).plan a.plan with
  | none => s
  | some p =>
    let s := s.modActive k a.plan a.index (fun a => { a with fetch := a.fetch.erase i, fetchAt := max a.fetchAt (v + 1), reads := tset 0 a.reads i 0 })
    if p.permute then
      s.ready ((s.co k).wayPort p a.chunk) { company := k, plan := p.id, place := { chunk := a.index, stage := 1, back := false, line := i },
                                             due := due, issue := a.chunk.issue, rank := 0, forwarded := false, blank := decide (a.count ≤ i), data := l }
    else s.sumRead k p a i due l

/-- The half that serves a plan's first axis (R205, R215). -/
def Plan.half (p : Plan) : Bool := halfE (p.axes.getD 0 0)

/-- A chunk reads its next tile line in stage cycle `v`, where port B and the bank are free: a fixed access (R36, R37, R207, R215)
(DEDUCED, log 49). -/
def State.chunkFetch (s : State) (k v : Nat) (a : ActiveChunk) : State :=
  match a.fetch, s.relPhys k (nbits a.chunk.src 26 22) (nbits a.chunk.src 21 17), (s.co k).plan a.plan with
  | i :: _, some p, some pl =>
    if a.chunk.srcKind = 1 ∧ a.fetchAt ≤ v then
      let line := nbits a.chunk.src 16 0 + i
      let s := s.onCore p (fun c => c.runToStage (s.slotCtx p) (v + 1) v)
      if (s.core p).fixed.any (fun f => decide (f.1 = v) && (f.2.1 || decide (f.2.2 = line % 64))) then s
      else
        let s := s.modCore p (fun c => { c with fixed := c.fixed ++ [(v, true, line % 64)] })
        let (l, c) := ({ s.core p with free := s.free } : Core).fixedRead line
        ((s.modCore p (fun _ => c)).collect p).lineRead k a i v (v + edgeLatency pl.half (s.roleOf p).lcol) l
    else s
  | _, _, _ => s

/-- The collective engine reads a tile line of core `p` in stage cycle `v` (R37, R207). -/
def State.chunkWants (s : State) (k v p : Nat) : Bool :=
  (s.co k).col.active.any (fun a =>
    match a.fetch, s.relPhys k (nbits a.chunk.src 26 22) (nbits a.chunk.src 21 17), (s.co k).plan a.plan with
    | i :: _, some q, some _ => decide (q = p) && decide (a.chunk.srcKind = 1) && decide (a.fetchAt ≤ v) && !s.arrives k v p ((nbits a.chunk.src 16 0 + i) % 64)
    | _, _, _ => false)

/-- One stage cycle of a company's chunks: each reads at most one tile line (R215). -/
def State.fetchCycle (s : State) (k v : Nat) : State := (s.co k).col.active.foldl (fun s a => s.chunkFetch k v a) s

/-- A chunk has tile lines still to read. -/
def State.fetching (s : State) (k : Nat) : Bool := (s.co k).col.active.any (fun a => decide (a.chunk.srcKind = 1) && !a.fetch.isEmpty)

/-! ### Transmit positions (R178, R215, R218 to R220) -/

/-- A transmit position of a sub-link of k lanes (R178). -/
def transmitAt (lanes cycle : Nat) : Bool :=
  decide (0 < lanes) && (decide (cycle = 0) || decide ((cycle - 1) * (7 * lanes) / 128 < cycle * (7 * lanes) / 128))

/-- The first transmit position of a sub-link from stage cycle `v` on (R178). -/
def positionFrom (lanes v : Nat) : Nat := if v = 0 then 0 else cdiv (128 * ((v - 1) * (7 * lanes) / 128 + 1)) (7 * lanes)

/-- The order in which ready lines leave (R215). -/
def TorLine.before (a b : TorLine) : Bool :=
  let key := fun (l : TorLine) => [b2n (!l.forwarded), l.issue, l.plan, l.rank, l.place.line]
  decide (key a < key b)

/-- The permute chunk whose positions take up a port (R218, R219). -/
def Co.occupant (c : Co) (port : Nat) : Option ActiveChunk :=
  c.col.active.find? (fun a => a.occupying && decide (a.used < a.chunk.lines) &&
    (c.plan a.plan).elim false (fun p => decide (c.wayPort p a.chunk = port)))

/-- Lines of a company that may leave on a port once they are ready: a forwarded line always; while a permute chunk takes up the port its
next line only; else every line of a sum, and the first of a permute (R215, R218, R219) (DESIGN CHOICE, log 102). -/
def State.sendable (s : State) (k p : Nat) : List TorLine :=
  let c := s.co k
  let next := fun (l : TorLine) => match c.activeChunk l.plan l.place.chunk with
    | some a => !(c.plan l.plan).elim false (fun q => q.permute) || decide (l.place.line = a.used)
    | none => true
  ((s.port p).txq.filter (fun l => decide (l.company = k))).filter (fun l => l.forwarded ||
    (next l && (c.occupant p).elim true (fun a => decide (l.plan = a.plan) && decide (l.place.chunk = a.index))))

/-- The line of a company that leaves next on a port at `cycle`. -/
def State.nextLine (s : State) (k p cycle : Nat) : Option TorLine :=
  ((s.sendable k p).filter (fun l => decide (l.due ≤ cycle))).foldl (fun o l => match o with
    | none => some l
    | some x => if l.before x then some l else some x) none

/-- The first position, from stage cycle `base` on, at which a line of the company leaves on a port (R178, R215). -/
def State.nextSend (s : State) (k p base : Nat) : Option Nat :=
  let ds := (s.sendable k p).map (fun l => l.due)
  match ds with
  | [] => none
  | d :: ds =>
    let lanes := (s.co k).laneCount p
    if lanes = 0 then none else some (positionFrom lanes (max base (max (ds.foldl min d) (tget 0 (s.port p).sentAt k))))

/-! ### Events whose stage cycle the state fixes (R167) -/

/-- A port's one-way latency in stage cycles at the operating point in force, rounded up (R181, R188) (DEDUCED, log 103). -/
def State.latencyNow (s : State) (p : Nat) : Nat := cdiv ((s.port p).latTenth.toNat * stageMhz s.pwr.op.toNat) 10000

/-- The lead with which MARKER and HOUSE frames leave (R187, R188). -/
def State.lead (s : State) (p : Nat) : Nat := s.latencyNow p + 128

/-- Ports whose MARKER of the next boundary has not left. -/
def State.unmarked (s : State) (k : Nat) : List Nat := (s.activePorts k).filter (fun p => !(s.co k).seq.marked.contains p)

/-- An event that lies from stage cycle `base` up to but not in `v` has not come yet: a line that leaves or is handed over, a chunk that
starts, a MARKER (R178, R181, R188, R209). -/
def State.overdue (s : State) (k base v : Nat) : Bool :=
  let c := s.co k
  let past := fun (n : Nat) => decide (max base n < v)
  (List.range 8).any (fun p => (s.nextSend k p base).elim false past || (s.port p).recv.any (fun l => decide (l.company = k) && past l.due)) ||
    c.plansNow.any (fun p => c.planRuns p.id && (p.chunks[tget 0 c.col.next p.id]?).elim false (fun ch => past (c.seq.issueBase + ch.issue))) ||
    (s.unmarked k).any (fun p => past (65536 * (c.seq.epochs + 1) - s.lead p))

end Sys2Proof.Machine
end

