-- ==== Sys2Proof/Machine/Cue.lean ====
section
/-!
DEFINITION. How a company's stage goes from one stage cycle to the next, with its cores, its mesh lines and its collective chunks (R117,
R118, R167), and what a bundle-slot command does (R127 to R130).
-/

namespace Sys2Proof.Machine

/-! ### The stage cycle (R117, R118) -/

/-- The stage of a company advances: it runs, and waits neither in a hold nor at a cue barrier (R157, R189). -/
def Seq.advancing (q : Seq) : Bool := decide (q.state = .running) && !q.held && !q.waiting

/-- Stage cycles left in the step or recast phase; none where no step boundary is ahead. -/
def Seq.cyclesLeft (q : Seq) (recastPending : Bool) : Option Nat :=
  match q.image with
  | none => none
  | some im => match q.phase with
    | .step => some (im.stepCycles - q.stepCycle.toNat)
    | .reshardWait => if q.stepCycle.toNat < im.stepCycles then some (im.stepCycles - q.stepCycle.toNat) else none
    | .recast => if recastPending then none else some (im.update.elim 0 (fun u => u.recastCycles) - q.phaseCycle)
    | .reshard => none

/-- Stage cycles to the hold-table entry that comes next in this step (R155, R157). -/
def Seq.cyclesToHold (q : Seq) : Option Nat :=
  if q.phase = .step ∨ q.phase = .reshardWait then
    (q.image.bind (fun i => i.holds[q.nextHold]?)).map (fun h => h.stepCycle - q.stepCycle.toNat)
  else none

/-- Stage cycles to the next epoch boundary (R117). -/
def Seq.cyclesToEpoch (q : Seq) : Nat := 65536 * (q.epochs + 1) - q.stageCycle.toNat

/-- The stage cycle of the boundary that comes next: an epoch's, a step's or phase's, or a hold. Stage events lie before it; what a
boundary brings comes first (R117, R155, R188). -/
def State.stageEnd (s : State) (k : Nat) : Nat :=
  let q := (s.co k).seq
  let n := min q.cyclesToEpoch ((q.cyclesLeft (s.co k).upd.recastArmed).getD (2 ^ 64))
  q.stageCycle.toNat + min n (q.cyclesToHold.getD (2 ^ 64))

/-- The stage counters advance by `n` (R117). -/
def Seq.count (q : Seq) (n : Nat) : Seq :=
  if q.phase = .step ∨ q.phase = .reshardWait then
    { q with stageCycle := q.stageCycle + BitVec.ofNat 64 n, stepCycle := q.stepCycle + BitVec.ofNat 40 n }
  else { q with stageCycle := q.stageCycle + BitVec.ofNat 64 n, phaseCycle := q.phaseCycle + n }

/-- Nothing moves in a company's cores or on its mesh, and no chunk reads tile memory. -/
def State.stageQuiet (s : State) (k : Nat) : Bool :=
  (s.coreList k).all (fun p => (s.core p).quiet) && s.mesh.all (fun m => decide (s.coreCo m.core ≠ k)) && !s.fetching k

/-- The company's mesh, chunks and cores go from stage cycle `v` to `w`, at most 2 cycles on: a line that a core sends in between leaves its
first router no earlier than `w` (R118, R169). -/
def State.stageWindow (s : State) (k v w : Nat) : State :=
  let s := iter (w - v) (fun i s => (s.meshCycle k (v + i)).fetchCycle k (v + i)) s
  (s.coreList k).foldl (fun s p => s.onCore p (fun c => c.runToStage (s.slotCtx p) (w + 1) w)) s

/-- The company's stage goes on to stage cycle `w`; `fuel` bounds the windows. -/
def State.stageRun : Nat → State → Nat → Nat → State
  | 0, s, _, _ => s
  | fuel + 1, s, k, w =>
    let v := (s.co k).seq.stageCycle.toNat
    if w ≤ v then s
    else
      let e := if s.stageQuiet k then w else min w (v + 2)
      State.stageRun fuel ((s.stageWindow k v e).modSeq k (fun q => q.count (e - v))) k w

/-- The company's stage goes on to stage cycle `w`: its cores, its mesh lines and its counters (R117, R118). -/
def State.stageTo (s : State) (k w : Nat) : State := s.stageRun (w - (s.co k).seq.stageCycle.toNat) k w

/-- A stage event of company `k` falls in stage cycle `v`: the stage advances, has not passed that cycle, and neither a boundary nor an
event whose cycle the state fixes comes first. The stage goes on to it (R167) (DESIGN CHOICE, log 5). -/
def State.stageAt (s : State) (k v : Nat) : Option State :=
  if (s.co k).seq.advancing && decide ((s.co k).seq.stageCycle.toNat ≤ v) && decide (v < s.stageEnd k) then
    let t := s.stageTo k v
    if t.overdue k (s.co k).seq.stageCycle.toNat v then none else some t
  else none

/-- An event whose stage cycle `v` the state fixes comes, in that cycle or, where the stage has passed it, now (DESIGN CHOICE, log 5). -/
def State.stageFrom (s : State) (k v : Nat) : Option State :=
  if v ≤ (s.co k).seq.stageCycle.toNat then (if (s.co k).seq.advancing then some s else none) else s.stageAt k v

/-- The company's stage goes on to a boundary `n` stage cycles ahead, unless an event comes first (R117, R155, R188). -/
def State.stageBy (s : State) (k n : Nat) : Option State :=
  let v := (s.co k).seq.stageCycle.toNat + n
  let t := s.stageTo k v
  if t.overdue k (s.co k).seq.stageCycle.toNat v then none else some t

/-! ### Bundle slots (R127 to R130) -/

/-- The company's stage goes on until core `p` comes to core cycle `cycle`, unless a boundary comes first; `fuel` bounds the stage cycles. -/
def State.coreAt : Nat → State → Nat → Nat → Option State
  | 0, s, p, cycle => if (s.core p).cycle = cycle then some s else none
  | fuel + 1, s, p, cycle =>
    if cycle ≤ (s.core p).cycle then (if (s.core p).cycle = cycle then some s else none)
    else match s.stageAt (s.coreCo p) (cycle + (s.core p).lag) with
      | none => none
      | some t => State.coreAt fuel t p cycle

/-- The state in which core `p` issues slot `w` at `position` in core cycle `cycle`: the core is active, its company's stage advances and
comes to that cycle, its part goes on, and the bundle at its bundle address carries that slot, not yet issued (R28, R127 to R129)
(DESIGN CHOICE, log 12). -/
def State.slotReady (s : State) (p cycle position : Nat) (w : DWord) : Option State :=
  if (s.roleOf p).role = 1 ∧ (s.co (s.coreCo p)).seq.advancing = true then
    match State.coreAt (s.stageEnd (s.coreCo p) - (s.core p).stageCycle) s p cycle with
    | none => none
    | some t =>
      let c := t.core p
      if c.issuing ∧ c.stageCycle < t.stageEnd (t.coreCo p) ∧ c.issued.getLsbD position = false ∧ bundleSlot c.bundle position = w then some t else none
  else none

/-- One bundle slot on core `p` at core cycle `cycle`; where the core does not issue it, nothing changes. -/
def State.slotOn (s : State) (p cycle position : Nat) (w : DWord) (f : SlotCtx → Core → DWord → Option Core) : State :=
  match s.slotReady p cycle position w with
  | none => s
  | some t => t.onCore p (fun c => (c.fetched.issue position (fun c => f (t.slotCtx p) c w)).marked position)

/-- Answers a slot command: a core that does not exist is a fault of the model (DESIGN CHOICE, log 20). -/
def slotOutcome (s : State) (p cycle position : Nat) (w : DWord) (f : SlotCtx → Core → DWord → Option Core) :
    Host.Outcome State Fault Refusal :=
  if p < 850 then .next (s.slotOn p cycle position w f) else .fault (.noSuchUnit p)

end Sys2Proof.Machine
end

