-- ==== Sys2Proof/Machine/DramMap.lean ====
section
/-!
DEFINITION. Where a DRAM address lies (R515), the clocks of a channel's command slots (R150, R157), and reads of DRAM under its
error-correcting code (R154, R461).
-/

namespace Sys2Proof.Machine

/-- The module channel of a DRAM address (R515). -/
def chanOf (a : Nat) : Nat :=
  let n := a / quarterBytes
  32 * (n / 4) + 8 * (n % 4) + a % quarterBytes / 256 % 8

/-- The line's index within its channel (R515). -/
def lineInChan (a : Nat) : Nat := a % quarterBytes / 256 / 8

def bankOf (a : Nat) : Nat := lineInChan a / 8 % 48
def rowOf (a : Nat) : Nat := lineInChan a / 8 / 48

/-- The column in 64-byte units (R515). -/
def colOf (a : Nat) : Nat := 4 * (lineInChan a % 8) + a % 256 / 64

/-! ### Command slots (R150, R157, R189) -/

/-- Slot `k` of a channel begins in this stage cycle (R150). -/
def slotBegin (k : Nat) : Nat := 7 * k / 4

/-- The first slot that begins in stage cycle `v` or later (R150). -/
def slotFrom (v : Nat) : Nat := cdiv (4 * v) 7

/-- Command slots of a wall time, at 4 slots to 7 stage-clock periods (R150, R157). -/
def State.slotsIn (s : State) (ns : Nat) : Nat := ns * stageMhz s.pwr.op.toNat * 4 / 7000

/-- Channels of a company's quarters (R147, R515). -/
def State.chanList (s : State) (k : Nat) : List Nat :=
  (s.engineList k).flatMap (fun e => (List.range 8).map (fun i => 8 * e + i))

/-! ### Bank timing and refresh (R151, R157, R515) -/

/-- The company whose quarter holds a channel (R372, R515). -/
def State.channelCo (s : State) (c : Nat) : Nat := s.quarterOwner (c / 8)

/-- The bank accepts a command: its last refresh, and the wings access that held it, are over (R151, R515). -/
def Channel.refreshed (c : Channel) (bank slot : Nat) : Bool := decide (tget 0 c.freeAt bank ≤ slot)

/-- A refresh position of R151. -/
def refreshSlot (channel slot : Nat) : Bool := decide ((slot + 24 - channel % 24) % 24 = 0) && decide (channel % 24 ≤ slot)

/-- The bank that a refresh slot serves (R151). -/
def refreshBank (slot : Nat) : Nat := slot / 24 % 48

/-- A stored time plus an interval has passed; 0 stands for never. -/
def elapsedSince (t : Table Nat) (bank n slot : Nat) : Bool := decide (tget 0 t bank = 0) || decide (tget 0 t bank + n ≤ slot + 1)

/-- Marks a time: slot + 1. -/
def markSlot (t : Table Nat) (bank slot : Nat) : Table Nat := tset 0 t bank (slot + 1)

/-- A closed bank accepts an activate (R515). -/
def Channel.canActivate (c : Channel) (bank slot : Nat) : Bool :=
  decide (tget 0 c.rows bank = 0) && elapsedSince c.prechargedAt bank 8 slot && elapsedSince c.activatedAt bank 32 slot &&
    c.refreshed bank slot

/-- An open row accepts an access (R515). -/
def Channel.canAccess (c : Channel) (bank row slot : Nat) : Bool :=
  decide (tget 0 c.rows bank = row + 1) && elapsedSince c.activatedAt bank 8 slot && c.refreshed bank slot

/-- An open bank accepts a precharge (R151, R515). -/
def Channel.canPrecharge (c : Channel) (bank slot : Nat) : Bool :=
  decide (tget 0 c.rows bank ≠ 0) && elapsedSince c.accessedAt bank 4 slot && c.refreshed bank slot

/-- A bank refreshed in a slot accepts no command for the next 160 (R151). -/
def Channel.refreshIn (x : Channel) (bank slot : Nat) : Channel :=
  { x with lastRefreshed := some bank, freeAt := tset 0 x.freeAt bank (slot + 160) }

/-- Channel `c` has come to stage slot `till`: the refreshes scheduled before it have been made. Only the latest eight blackouts can still
last (R151). -/
def Channel.scheduled (x : Channel) (c till : Nat) : Channel :=
  let first := (x.slot + 23 - c % 24) / 24
  let last := (till + 23 - c % 24) / 24
  let n := min 8 (last - first)
  (List.range n).foldl (fun (x : Channel) i =>
    let slot := c % 24 + 24 * (last - n + i)
    x.refreshIn (refreshBank slot) slot) { x with slot := max x.slot till }

/-- A channel has come to elapsed slot `till` of a hold or barrier wait: an extra refresh in elapsed slot 23 and every 24th after it, of the
bank that follows the last one refreshed, bank 0 where there is none (R157, R189). -/
def Channel.extras (x : Channel) (till : Nat) : Channel :=
  let first := x.heldSlot / 24
  let last := till / 24
  let bank := x.lastRefreshed.elim 0 (fun b => b + 1)
  let n := min 8 (last - first)
  (List.range n).foldl (fun (x : Channel) i =>
    let j := last - n + i
    x.refreshIn ((bank + (j - first)) % 48) (24 * j + 23)) { x with heldSlot := max x.heldSlot till }

/-- The stage stops at slot `base`: from now on the channel counts elapsed slots, and a blackout goes on in them (R157, R189). -/
def Channel.stopped (x : Channel) (base : Nat) : Channel :=
  { x with slot := max x.slot base, heldSlot := 0, freeAt := (x.freeAt.map (fun f => (f.1, f.2 - base))).filter (fun f => decide (f.2 ≠ 0)) }

/-- The stage resumes at slot `base`: the positions of R151 resume unchanged, and a blackout goes on (R157, R189). -/
def Channel.resumed (x : Channel) (base : Nat) : Channel :=
  { x with heldSlot := 0, freeAt := (x.freeAt.filter (fun f => decide (x.heldSlot < f.2))).map (fun f => (f.1, base + (f.2 - x.heldSlot))) }

/-- The slot at which a company's stage stands. -/
def State.slotNow (s : State) (k : Nat) : Nat := slotFrom (s.co k).seq.stageCycle.toNat

/-- The company's controllers stop with the stage (R157, R189). -/
def State.stopChannels (s : State) (k : Nat) : State :=
  (s.chanList k).foldl (fun s c => s.modChan c (fun x => (x.scheduled c (s.slotNow k)).stopped (s.slotNow k))) s

/-- The company's controllers go on after `ns` of wall time (R157, R189). -/
def State.resumeChannels (s : State) (k ns : Nat) : State :=
  (s.chanList k).foldl (fun s c => s.modChan c (fun x => (x.extras (s.slotsIn ns)).resumed (s.slotNow k))) s

/-! ### The error-correcting code (R154) -/

/-- 16-bit symbols of an access that a pattern of flipped bits touches (R154). -/
def wrongSymbols (f : BitVec 512) : Nat :=
  ((List.range 32).filter (fun i => decide (f.extractLsb' (16 * i) 16 ≠ 0))).length

/-- Lines of a shard's bank: address and bytes. -/
def bankRange (b : Bool) (sh : Shard) : Nat × Nat :=
  (if b then sh.bankB else sh.bankA, 256 * sh.fields * cdiv sh.elements 64)

/-- An address lies in a company's committed bank as the UPDATE section places it (R154). -/
def State.inCommitted (s : State) (k a : Nat) : Bool :=
  let c := s.co k
  match c.seq.image.bind (fun i => i.update) with
  | none => false
  | some u => u.shards.any (fun sh =>
      let r := bankRange c.upd.committed sh
      decide (r.1 ≤ a) && decide (a < r.1 + r.2))

/-- The company in whose committed bank an address lies (R154): a loss there is a failure of the module, which the house handles (R300, R301)
(DEDUCED, log 116). -/
def State.bankCo (s : State) (a : Nat) : Option Nat := (0 :: companyList).find? (fun k => (s.co k).present && s.inCommitted k a)

/-- A corrected error of a DRAM row: at 16 within 24 hours the row is armed for a soft repair (R461). -/
def State.countRow (s : State) (a : Nat) : State :=
  let key := (chanOf a * 64 + bankOf a) * 32768 + rowOf a
  let ts := (s.nowNs :: tget [] s.rpr.dramCounts key).filter (fun t => decide (s.nowNs < t + 86400000000000))
  let s := { s with rpr := { s.rpr with dramCounts := tset [] s.rpr.dramCounts key ts } }
  if 16 ≤ ts.length then s.arm 2 (chanOf a) (bankOf a * 32768 + rowOf a) else s

/-- One 64-byte access of DRAM for company `k`: what its error-correcting code does (R154). The answer tells whether the data bear
an error mark (DESIGN CHOICE, log 1). -/
def State.eccAccess (s : State) (k a : Nat) (wings : Bool) (f : BitVec 512) : BitVec 512 × Bool × State :=
  let data := BitVec.ofNat 512 (s.dramNat a 64)
  let det := [(4, k), (6, bankOf a), (15, rowOf a), (5, colOf a), (1, b2n wings)]
  let bad := fun (s : State) =>
    let s := s.log 0xA (chanOf a) 2 k 0x0F02#16 det
    let s := match s.bankCo a with
      | some j => s.log 0xA (chanOf a) 3 j 0x0F03#16 [(4, j), (6, bankOf a), (15, rowOf a), (48, a / 256 * 256)]
      | none => s
    if wings then s else s.addFaults k 1
  let good := fun (s : State) => (s.log 0xA (chanOf a) 0 k 0x0F01#16 det).countRow a
  match wrongSymbols f with
  | 0 => (data, false, s)
  | 1 => (data, false, good s)
  | 2 => (data ^^^ f, true, bad s)
  | _ =>
    let (v, s) := s.draw
    match v.toNat % 3 with
    | 0 => (data ^^^ f, false, s)
    | 1 => (data ^^^ f, true, bad s)
    | _ => (v.extractLsb' 2 512, false, good s)

/-- Reads `n` accesses from the access that holds `a`. -/
def State.eccAccesses (s : State) (k : Nat) (wings : Bool) : Nat → Nat → List Byte × Bool × State
  | _, 0 => ([], false, s)
  | a, n + 1 =>
    let f := tget 0 s.dramFlips (a / 64)
    let (d, e, s) := s.eccAccess k (a / 64 * 64) wings f
    let (r, e', s) := State.eccAccesses s k wings (a + 64) n
    (leBytes 64 d.toNat ++ r, e || e', s)

/-- `n` bytes of DRAM at `a` as company `k` reads them, with an error mark. -/
def State.dramGet (s : State) (k a n : Nat) (wings : Bool) : List Byte × Bool × State :=
  if s.dramFlips.isEmpty then (mread s.dram a n, false, s)
  else
    let (bs, e, s) := s.eccAccesses k wings (a / 64 * 64) (cdiv (a % 64 + n) 64)
    ((bs.drop (a % 64)).take n, e, s)

/-- A 256-byte line as the stage reads it. -/
def State.stageLine (s : State) (k a : Nat) : Line × State :=
  let (bs, _, s) := s.dramGet k a 256 false
  (BitVec.ofNat 2048 (leNat bs), s)

end Sys2Proof.Machine
end

