-- ==== Sys2Proof/Machine/ScriptImage.lean ====
section
/-!
DEFINITION. Reading a script image from DRAM and the checks of SCRIPT_LOAD (R119 to R122, R126, R147, R155, R208 to R211, R243 to
R247, R446, R511 to R514). Each section reader answers `none` where a limit of its rule is broken (reason 0x0A).
-/

namespace Sys2Proof.Machine

/-- A field of `n` bytes at an offset from `a` (R510). -/
def State.rd (s : State) (a n : Nat) : Nat := s.dramNat a n

/-- Every byte from `a` is zero. -/
def State.zeroAt (s : State) (a n : Nat) : Bool := decide (s.rd a n = 0)

/-- A section: DRAM address and length. -/
structure Sect where
  base : Nat
  len : Nat

/-- What the section readers need of the load. -/
structure LoadCtx where
  company : Nat
  rows : Nat
  cols : Nat
  axes : List Nat
  stepCycles : Nat

/-- Does not fall from one element to the next. -/
def rising : List Nat → Bool
  | a :: b :: t => decide (a ≤ b) && rising (b :: t)
  | _ => true

/-- No key occurs twice. -/
def noRepeat : List Nat → Bool
  | [] => true
  | x :: xs => !xs.contains x && noRepeat xs

/-! ### PARTS (R126) -/

def readParts (s : State) (x : LoadCtx) : Nat → Nat → Nat → Option (List PartHdr × Nat)
  | _, a, 0 => some ([], a)
  | i, a, n + 1 =>
    let b := s.rd (a + 2) 2
    let p : PartHdr := { lrow := s.rd a 1, lcol := s.rd (a + 1) 1, entry := s.rd (a + 4) 2, addr := a + 16, bundles := b }
    if p.lrow = i / x.cols ∧ p.lcol = i % x.cols ∧ 1 ≤ b ∧ b ≤ 4096 ∧ p.entry < 4096 ∧ s.zeroAt (a + 6) 10 then
      (readParts s x (i + 1) (a + 16 + 32 * b) n).map (fun r => (p :: r.1, r.2))
    else none

def readPartsSect (s : State) (x : LoadCtx) (t : Sect) : Option (List PartHdr) :=
  match readParts s x 0 t.base (x.rows * x.cols) with
  | some (ps, e) => if e ≤ t.base + t.len then some ps else none
  | none => none

/-! ### FLY (R147, R511) -/

/-- The quarter of an address range; none when it leaves one quarter. -/
def inQuarter (q a n : Nat) : Bool := decide (q * quarterBytes ≤ a) && decide (a + n ≤ (q + 1) * quarterBytes)

def readFlyCmd (s : State) (x : LoadCtx) (engine a : Nat) : Option FlyCmd :=
  let w := s.rd a 32
  let c : FlyCmd := { issue := nbits w 255 216, kind := nbits w 215 208, lrow := nbits w 207 203, lcol := nbits w 202 198,
                      line := nbits w 197 181, count := nbits w 180 165 + 1, dram := nbits w 159 112, stride := nbits w 111 80 }
  if 1 ≤ c.kind ∧ c.kind ≤ 3 ∧ nbits w 164 160 = 0 ∧ nbits w 79 0 = 0 ∧ c.lrow < x.rows ∧ c.lcol < x.cols ∧ c.dram % 256 = 0 ∧
      c.line + c.count ≤ (if c.kind = 3 then 512 else tileLines) ∧
      inQuarter engine c.dram (256 * c.stride * (c.count - 1) + 256) then some c
  else none

def readFly (s : State) (x : LoadCtx) (t : Sect) : Option (List FlyProg) :=
  let n := s.rd t.base 2
  if 1 ≤ n ∧ n ≤ 48 ∧ s.zeroAt (t.base + 2) 14 ∧ 16 + 16 * n ≤ t.len then
    let ps := allSome (fun i =>
      let a := t.base + 16 + 16 * i
      let e := s.rd a 1
      let cnt := s.rd (a + 4) 4
      let off := s.rd (a + 8) 8
      if e < 48 ∧ (s.co x.company).quarters.getLsbD e ∧ s.zeroAt (a + 1) 3 ∧ cnt ≤ 1048576 ∧ off % 32 = 0 ∧ off + 32 * cnt ≤ t.len then
        match allSome (fun j => readFlyCmd s x e (t.base + off + 32 * j)) (List.range cnt) with
        | some cs => if rising (cs.map (fun c => c.issue)) then some ({ engine := e, cmds := cs } : FlyProg) else none
        | none => none
      else none) (List.range n)
    match ps with
    | some ps => if noRepeat (ps.map (fun p => p.engine)) then some ps else none
    | none => none
  else none

/-! ### HOLD (R155, R247), PHASE (R446), DRAM (R512), DECLARE (R513) -/

def readHold (s : State) (x : LoadCtx) (a : Nat) : Option HoldEntry :=
  let w := s.rd a 32
  let h : HoldEntry := { stepCycle := nbits w 255 216, kind := nbits w 215 212, ports := nbits w 211 204, cond := nbits w 203 202,
                         gen := BitVec.ofNat 8 (nbits w 201 194), index := nbits w 193 181, value := BitVec.ofNat 32 (nbits w 180 149),
                         warnMs := nbits w 148 133 }
  let lanes := (List.range 8).all (fun p => !portNamed h.ports p || (s.co x.company).lanes.any (fun l => l.1 = p))
  if h.kind ≤ 3 ∧ h.cond ≤ 2 ∧ nbits w 132 0 = 0 ∧ h.stepCycle < x.stepCycles ∧ lanes then some h else none

def readHolds (s : State) (x : LoadCtx) (t : Sect) : Option (List HoldEntry) :=
  if t.len % 32 = 0 ∧ 1 ≤ t.len / 32 ∧ t.len / 32 ≤ 4096 then
    match allSome (fun i => readHold s x (t.base + 32 * i)) (List.range (t.len / 32)) with
    | some hs => if rising (hs.map (fun h => h.stepCycle)) ∧ (hs.filter (fun h => h.kind = 1)).length = 1 then some hs else none
    | none => none
  else none

def readPhase (s : State) (t : Sect) : Option (Nat × List (Nat × Nat)) :=
  let n := s.rd t.base 2
  let op := s.rd (t.base + 2) 1
  if 1 ≤ n ∧ n ≤ 64 ∧ op ≤ 7 ∧ s.zeroAt (t.base + 3) 13 ∧ 16 + 8 * n ≤ t.len then
    let ps := (List.range n).map (fun i => s.rd (t.base + 16 + 8 * i) 8)
    if ps.all (fun w => decide (nbits w 23 3 = 0)) ∧ rising (ps.map (fun w => nbits w 63 24)) then
      some (op, ps.map (fun w => (nbits w 63 24, nbits w 2 0)))
    else none
  else none

/-- The wings masks, by module channel (R152, R512). -/
def readMasks (s : State) (x : LoadCtx) (t : Sect) : Option (Table DWord) :=
  if t.len = 3072 then
    let ms := (List.range 384).map (fun c => (c, BitVec.ofNat 64 (s.rd (t.base + 8 * c) 8)))
    if ms.all (fun m => decide (popcount m.2 ≤ 16) && (decide (m.2 = 0) || (s.co x.company).quarters.getLsbD (m.1 / 8))) then
      some (ms.foldl (fun tb m => tset 0 tb m.1 m.2) [])
    else none
  else none

def readRegion (s : State) (x : LoadCtx) (a : Nat) : Option (Nat × Nat) :=
  let ad := s.rd a 8
  let n := s.rd (a + 8) 4
  if ad % 256 = 0 ∧ 1 ≤ n ∧ s.zeroAt (a + 12) 4 ∧ s.ownsDram x.company ad (256 * n) then some (ad, n) else none

def readBacking (s : State) (x : LoadCtx) (a : Nat) : Option Backing :=
  let b : Backing := { lrow := s.rd a 1, lcol := s.rd (a + 1) 1, tileLine := s.rd (a + 4) 4, lines := s.rd (a + 8) 4, dram := s.rd (a + 16) 8 }
  if b.lrow < x.rows ∧ b.lcol < x.cols ∧ s.zeroAt (a + 2) 2 ∧ s.zeroAt (a + 12) 4 ∧ s.zeroAt (a + 24) 8 ∧ 1 ≤ b.lines ∧
      b.tileLine + b.lines ≤ tileLines ∧ b.dram % 256 = 0 ∧ s.ownsDram x.company b.dram (256 * b.lines) then some b else none

/-- No two backing entries of one core overlap in tile memory (R513). -/
def backingApart : List Backing → Bool
  | [] => true
  | b :: bs => bs.all (fun c => decide (b.lrow ≠ c.lrow) || decide (b.lcol ≠ c.lcol) || decide (b.tileLine + b.lines ≤ c.tileLine) ||
      decide (c.tileLine + c.lines ≤ b.tileLine)) && backingApart bs

def readDeclare (s : State) (x : LoadCtx) (t : Sect) : Option (List (Nat × Nat) × List (Nat × Nat) × List Backing) :=
  let ni := s.rd t.base 4
  let nw := s.rd (t.base + 4) 4
  let nb := s.rd (t.base + 8) 4
  if ni ≤ 65536 ∧ nw ≤ 65536 ∧ nb ≤ 65536 ∧ s.zeroAt (t.base + 12) 4 ∧ 16 + 16 * (ni + nw) + 32 * nb ≤ t.len then
    match allSome (fun i => readRegion s x (t.base + 16 + 16 * i)) (List.range ni),
        allSome (fun i => readRegion s x (t.base + 16 + 16 * (ni + i))) (List.range nw),
        allSome (fun i => readBacking s x (t.base + 16 + 16 * (ni + nw) + 32 * i)) (List.range nb) with
    | some a, some b, some c => if backingApart c then some (a, b, c) else none
    | _, _, _ => none
  else none

/-! ### COLLECTIVE (R208 to R211) -/

/-- A source or destination of a chunk lies within its core or its company (R210). -/
def chunkAddrOk (s : State) (x : LoadCtx) (kind a lines : Nat) : Bool :=
  match kind with
  | 1 => decide (nbits a 47 27 = 0) && decide (nbits a 26 22 < x.rows) && decide (nbits a 21 17 < x.cols) &&
      decide (nbits a 16 0 + lines ≤ tileLines)
  | 2 => decide (a % 256 = 0) && s.ownsDram x.company a (256 * lines)
  | 3 => decide (a < 48) && (s.co x.company).quarters.getLsbD a
  | _ => false

/-- A chunk of a plan (R209) (DEDUCED, log 34). -/
def readChunk (s : State) (x : LoadCtx) (permute : Bool) (axisLen a : Nat) : Option Chunk :=
  let w := s.rd a 32
  let c : Chunk := { issue := nbits w 255 216, lines := nbits w 215 200 + 1, srcKind := nbits w 199 198, dstKind := nbits w 197 196,
                     tail := decide (nbits w 195 195 = 1), dist := sext 7 (nbits w 194 188), src := nbits w 187 140,
                     dst := nbits w 139 92, count := nbits w 91 44, send := decide (nbits w 43 43 = 1), recv := decide (nbits w 42 42 = 1) }
  let n := c.lines + b2n (c.tail && !permute)
  let kindOk := decide (1 ≤ c.srcKind) && decide (c.srcKind ≤ 2) && decide (1 ≤ c.dstKind)
  let own := if permute then
      decide (c.dist % (axisLen : Int) ≠ 0) && decide (-63 ≤ c.dist) &&
        (decide (c.count = 0) || decide (c.count / 2 ^ 47 = 1) && chunkAddrOk s x 1 (c.count % 2 ^ 27) 1)
    else decide (c.lines % 256 = 0)
  if nbits w 41 0 = 0 ∧ 256 ≤ c.lines ∧ kindOk ∧ own ∧ chunkAddrOk s x c.srcKind c.src n ∧ chunkAddrOk s x c.dstKind c.dst n then some c
  else none

/-- A plan of a collective section (R208) (DEDUCED, log 34). -/
def readPlan (s : State) (x : LoadCtx) (reshard : Bool) (entries total a : Nat) : Option Plan :=
  let id := s.rd a 2
  let permute := decide (s.rd (a + 2) 1 = 2)
  let n := s.rd (a + 5) 1
  let axes := (List.range n).map (fun i => s.rd (a + 4) 1 / 4 ^ i % 4)
  let first := s.rd (a + 8) 4
  let cnt := s.rd (a + 12) 4
  let lanes := axes.all (fun ax => (s.co x.company).lanes.any (fun l => l.1 = 2 * ax) && (s.co x.company).lanes.any (fun l => l.1 = 2 * ax + 1))
  if (if reshard then 0xF000 ≤ id else 1 ≤ id ∧ id ≤ 0xEFFF) ∧ 1 ≤ s.rd (a + 2) 1 ∧ s.rd (a + 2) 1 ≤ 2 ∧ (reshard → permute) ∧
      (permute ∨ s.rd (a + 3) 1 ≤ 3 ∧ s.rd (a + 6) 1 ≤ 1) ∧ 1 ≤ n ∧ n ≤ 4 ∧ (permute → n = 1) ∧ noRepeat axes ∧ s.zeroAt (a + 7) 1 ∧
      1 ≤ cnt ∧ cnt ≤ 65536 ∧ first + cnt ≤ total ∧ s.rd (a + 16) 2 < 8192 ∧ s.zeroAt (a + 19) 1 ∧ s.zeroAt (a + 22) 42 ∧ lanes then
    match allSome (fun i => readChunk s x permute (x.axes.getD (axes.getD 0 0) 1) (entries + 32 * (first + i))) (List.range cnt) with
    | some cs =>
      let mirror : Bool := decide (0xE000 ≤ id) && decide (id ≤ 0xEFFF)
      if rising (cs.map (fun c => c.issue)) ∧ (mirror → permute ∧ axes = [3] ∧ cs.all (fun c => c.dist = 1)) then
        some { id := id, permute := permute, format := s.rd (a + 3) 1, axes := axes, owned := !permute && decide (s.rd (a + 6) 1 = 1),
               ctrIndex := s.rd (a + 16) 2, ctrGen := BitVec.ofNat 8 (s.rd (a + 18) 1), amount := s.rd (a + 20) 2, chunks := cs }
      else none
    | none => none
  else none

/-- The plans of a COLLECTIVE section, or of a re-shard plan (R208, R227). -/
def readPlans (s : State) (x : LoadCtx) (reshard : Bool) (t : Sect) : Option (List Plan) :=
  let np := s.rd t.base 4
  let ne := s.rd (t.base + 4) 4
  if 1 ≤ np ∧ np ≤ 1024 ∧ 1 ≤ ne ∧ ne ≤ 262144 ∧ s.zeroAt (t.base + 8) 8 ∧ 16 + 64 * np + 32 * ne ≤ t.len then
    match allSome (fun i => readPlan s x reshard (t.base + 16 + 64 * np) ne (t.base + 16 + 64 * i)) (List.range np) with
    | some ps => if noRepeat (ps.map (fun p => p.id)) then some ps else none
    | none => none
  else none

/-! ### UPDATE (R243 to R246) -/

def f32finite (w : Nat) : Bool := decide (nbits w 30 23 ≠ 255)

def readProgram (s : State) (a : Nat) : Option UpdProgram :=
  let n := s.rd a 1
  let ks := (List.range 16).map (fun i => s.rd (a + 0x18 + 4 * i) 4)
  let cast := BitVec.ofNat 128 (s.rd (a + 8) 16)
  if 1 ≤ n ∧ n ≤ 64 ∧ s.rd (a + 1) 1 ≤ 1 ∧ s.zeroAt (a + 2) 6 ∧ ks.all f32finite ∧ s.zeroAt (a + 0x58) 424 ∧
      (Target.ofCode (bits cast 54 52)).isSome ∧ bits cast 51 0 = 0 then
    some { length := n, block := decide (s.rd (a + 1) 1 = 1), cast := cast, consts := ks.map (BitVec.ofNat 32),
           code := (List.range 64).map (fun i => BitVec.ofNat 64 (s.rd (a + 0x200 + 8 * i) 8)) }
  else none

/-- Bytes of one bank of a shard (R239). -/
def bankBytes (fields elements : Nat) : Nat := 256 * fields * cdiv elements 64

/-- Bytes of a shard's working copy (R240). -/
def copyBytes (t : Nat) (elements : Nat) : Nat := castBytes ((Target.ofCode t).getD .fp32) elements

def readShard (s : State) (x : LoadCtx) (progs : List UpdProgram) (a : Nat) : Option Shard :=
  let f := s.rd (a + 2) 1
  let sh : Shard := { engine := s.rd a 1, program := s.rd (a + 1) 1, fields := f % 4 + 1, gbf16 := decide (nbits f 2 2 = 1),
                      digest := decide (nbits f 3 3 = 1), nocopy := decide (nbits f 4 4 = 1), slot := s.rd (a + 3) 1,
                      elements := s.rd (a + 4) 4, base := s.rd (a + 8) 8, bankA := s.rd (a + 0x10) 8, bankB := s.rd (a + 0x18) 8,
                      copy := s.rd (a + 0x20) 8, tensor := s.rd (a + 0x28) 4, start := s.rd (a + 0x2C) 8 }
  match progs[sh.program]? with
  | none => none
  | some p =>
    let t := bits p.cast 54 52
    if sh.engine < 48 ∧ (s.co x.company).quarters.getLsbD sh.engine ∧ f < 32 ∧ sh.slot < 16 ∧ 1 ≤ sh.elements ∧ sh.elements ≤ 268435456 ∧
        sh.base < 2 ^ 40 ∧ sh.bankA % 256 = 0 ∧ sh.bankB % 256 = 0 ∧ sh.copy % 64 = 0 ∧ sh.tensor < 2 ^ 24 ∧ sh.start < 2 ^ 40 ∧
        s.zeroAt (a + 0x34) 12 ∧ inQuarter sh.engine sh.bankA (bankBytes sh.fields sh.elements) ∧
        inQuarter sh.engine sh.bankB (bankBytes sh.fields sh.elements) ∧
        (sh.nocopy ∨ inQuarter sh.engine sh.copy (copyBytes t sh.elements)) ∧
        (sh.nocopy ∨ t ≠ 4 ∨ (sh.base % 32 = 0 ∧ sh.elements % 32 = 0)) then some sh
    else none

/-- The regions of a shard: address and bytes. -/
def shardRegions (progs : List UpdProgram) (sh : Shard) : List (Nat × Nat) :=
  [(sh.bankA, bankBytes sh.fields sh.elements), (sh.bankB, bankBytes sh.fields sh.elements)] ++
    (if sh.nocopy then [] else [(sh.copy, copyBytes ((progs[sh.program]?).elim 0 (fun p => bits p.cast 54 52)) sh.elements)])

/-- Regions do not overlap. -/
def regionsApart : List (Nat × Nat) → Bool
  | [] => true
  | r :: rs => rs.all (fun q => decide (r.1 + r.2 ≤ q.1) || decide (q.1 + q.2 ≤ r.1)) && regionsApart rs

/-- The UPDATE section (R243) (DEDUCED, log 34). -/
def readUpdate (s : State) (x : LoadCtx) (plans : List Plan) (t : Sect) : Option UpdSection :=
  let a := t.base
  let np := s.rd a 2
  let ns := s.rd (a + 4) 4
  let ds := s.rd (a + 9) 1
  if 1 ≤ np ∧ np ≤ 16 ∧ s.zeroAt (a + 2) 2 ∧ 1 ≤ ns ∧ ns ≤ 65536 ∧ s.rd (a + 8) 1 ≤ 1 ∧ 1 ≤ ds ∧ ds ≤ 64 ∧ x.axes.getD 3 1 % ds = 0 ∧
      s.zeroAt (a + 0x17) 1 ∧ s.zeroAt (a + 0x4C) 52 ∧ 128 + 1024 * np + 64 * ns ≤ t.len then
    let u := fun (ps : List UpdProgram) (shs : List Shard) =>
      ({ initialBank := decide (s.rd (a + 8) 1 = 1), digestShards := ds, digestEvery := s.rd (a + 10) 2, digestPlan := s.rd (a + 12) 2,
         curtainPlan := s.rd (a + 14) 2, curtainChunk := s.rd (a + 0x10) 4, ctrIndex := s.rd (a + 0x14) 2,
         ctrGen := BitVec.ofNat 8 (s.rd (a + 0x16) 1), headerA := s.rd (a + 0x18) 8, headerB := s.rd (a + 0x20) 8,
         tailRecord := s.rd (a + 0x28) 8, digestSrc := s.rd (a + 0x30) 8, digestDst := s.rd (a + 0x38) 8,
         recastCycles := s.rd (a + 0x40) 8, recastFirst := s.rd (a + 0x48) 2, recastLast := s.rd (a + 0x4A) 2,
         programs := ps, shards := shs } : UpdSection)
    match allSome (fun i => readProgram s (a + 128 + 1024 * i)) (List.range np) with
    | none => none
    | some ps =>
      match allSome (fun i => readShard s x ps (a + 128 + 1024 * np + 64 * i)) (List.range ns) with
      | none => none
      | some shs =>
        let v := u ps shs
        let apart : Bool := (List.range 48).all (fun e => regionsApart ((shs.filter (fun sh => sh.engine = e)).flatMap (shardRegions ps)))
        let curtain : Bool := match plans.find? (fun p => p.id = v.curtainPlan) with
          | none => false
          | some (p : Plan) => !p.permute && ((p.chunks[v.curtainChunk]?).elim false (fun c => c.tail)) &&
              (List.range 4).all (fun ax => decide (x.axes.getD ax 1 < 2) || p.axes.contains ax)
        let owned : Bool := s.ownsDram x.company v.headerA 512 && s.ownsDram x.company v.headerB 512 && s.ownsDram x.company v.tailRecord 256 &&
          (decide (v.digestEvery = 0) || s.ownsDram x.company v.digestSrc 65536 && s.ownsDram x.company v.digestDst 65536)
        let hdr := if v.initialBank then v.headerB else v.headerA
        if apart && curtain && owned && decide (v.headerA % 512 = 0) && decide (v.headerB % 512 = 0) && decide (v.tailRecord % 256 = 0) &&
            decide (v.recastCycles < 2 ^ 40) && (decide (s.rd (hdr + 0x18) 4 % 2 = 1) ||
              s.restore.headers.any (fun r => decide (r.1 = x.company) && decide (r.2.1 = v.initialBank))) then some v
        else none
  else none

/-! ### RMON (R514) -/

/-- One slot assignment: update engine, index, slot, initial content. -/
def readAssign (s : State) (x : LoadCtx) (a : Nat) : Option (Bool × Nat × Nat × RmSlot) :=
  let w := s.rd a 8
  let eng := decide (nbits w 63 63 = 1)
  let idx := nbits w 62 53
  let slot := nbits w 52 47
  let sc := sext 8 (nbits w 14 7)
  if (if eng then idx < 48 ∧ (s.co x.company).quarters.getLsbD idx ∧ slot < 16 else idx / 32 < x.rows ∧ idx % 32 < x.cols) ∧
      1 ≤ nbits w 22 15 ∧ nbits w 22 15 ≤ 4 ∧ -64 ≤ sc ∧ sc ≤ 63 ∧ nbits w 6 0 = 0 then
    some (eng, idx, slot, { tensor := BitVec.ofNat 24 (nbits w 46 23), format := BitVec.ofNat 8 (nbits w 22 15),
                            scaleExp := BitVec.ofNat 8 (nbits w 14 7) })
  else none

/-- Records of a company's report: 64 per core of the rectangle and 16 per update engine (R86). -/
def reportRecords (rows cols quarters : Nat) : Nat := rows * cols * 64 + quarters * 16

def readRmon (s : State) (x : LoadCtx) (t : Sect) : Option (RmonMap × List (Bool × Nat × Nat × RmSlot)) :=
  let a := t.base
  let base := s.rd a 8
  let d := s.rd (a + 8) 1
  let n := s.rd (a + 16) 4
  let size := 32 * reportRecords x.rows x.cols (s.engineList x.company).length
  if base % 4096 = 0 ∧ 2 ≤ d ∧ d ≤ 6 ∧ s.zeroAt (a + 9) 1 ∧ s.rd (a + 10) 2 < 8192 ∧ s.zeroAt (a + 13) 3 ∧ n ≤ 51968 ∧ s.zeroAt (a + 20) 12 ∧
      32 + 8 * n ≤ t.len ∧ s.ownsDram x.company base (size * 2 ^ d) then
    match allSome (fun i => readAssign s x (a + 32 + 8 * i)) (List.range n) with
    | some as =>
      if noRepeat (as.map (fun e => (b2n e.1 * 1024 + e.2.1) * 64 + e.2.2.1)) then
        some ({ base := base, depthLog2 := d, ctrIndex := s.rd (a + 10) 2, ctrGen := BitVec.ofNat 8 (s.rd (a + 12) 1) }, as)
      else none
    | none => none
  else none

/-! ### The image (R119, R120, R122) -/

/-- The section table's entries: type, section, digest. -/
def sectionTable (s : State) (img n : Nat) : List (Nat × Sect × List Byte) :=
  (List.range n).map (fun i =>
    let a := img + 0x60 + 64 * i
    (s.rd a 2, { base := img + s.rd (a + 8) 8, len := s.rd (a + 16) 8 }, mread s.dram (a + 32) 32))

/-- Every digest of R119 and R120 matches, and every reserved header field is zero (reason 0x09). A section whose range leaves the image has no
bytes to take a digest over: it is refused under 0x0A (R122) (DEDUCED, log 34). -/
def digestsOk (s : State) (img len n : Nat) : Bool :=
  decide (sha256 (mread s.dram img 64 ++ mread s.dram (img + 0x60) (64 * n)) = mread s.dram (img + 0x40) 32) &&
    (sectionTable s img n).all (fun e =>
      decide (len < e.2.1.base - img + e.2.1.len) || decide (sha256 (mread s.dram e.2.1.base e.2.1.len) = e.2.2)) &&
    s.zeroAt (img + 0x0D) 1 && s.zeroAt (img + 0x16) 2 && s.zeroAt (img + 0x32) 14

/-- The section of a type. -/
def sectOf (tb : List (Nat × Sect × List Byte)) (t : Nat) : Option Sect := (tb.find? (fun e => e.1 = t)).map (fun e => e.2.1)

/-- A section that an image may leave out: absent, or read. -/
def optSect {α : Type} (t : Option Sect) (f : Sect → Option α) : Option (Option α) :=
  match t with
  | none => some none
  | some t => (f t).map some

/-- Reads the whole image within the limits of reason 0x0A (DEDUCED, log 34). -/
def readImage (s : State) (k img len : Nat) : Option Image :=
  let n := s.rd (img + 0x30) 2
  let tb := sectionTable s img n
  let axes := (List.range 4).map (fun i => s.rd (img + 0x12 + i) 1)
  let sc := s.rd (img + 0x20) 8
  let x : LoadCtx := { company := k, rows := s.rd (img + 0x10) 1, cols := s.rd (img + 0x11) 1, axes := axes, stepCycles := sc }
  let formOk := decide (1 ≤ n) && decide (n ≤ 16) && decide (0x60 + 64 * n ≤ len) && decide (65536 ≤ sc) && decide (sc < 2 ^ 40) &&
    axes.all (fun l => decide (1 ≤ l) && decide (l ≤ 64)) && noRepeat (tb.map (fun e => e.1)) &&
    (List.range n).all (fun i => s.zeroAt (img + 0x60 + 64 * i + 2) 6 && s.zeroAt (img + 0x60 + 64 * i + 0x18) 8) &&
    tb.all (fun e => decide (1 ≤ e.1) && decide (e.1 ≤ 9) && decide ((e.2.1.base - img) % 256 = 0) && decide (e.2.1.base - img + e.2.1.len ≤ len))
  if formOk then
    match (sectOf tb 1).bind (readPartsSect s x), (sectOf tb 2).bind (readFly s x), (sectOf tb 5).bind (readPhase s),
        (sectOf tb 6).bind (readHolds s x), (sectOf tb 8).bind (readMasks s x), (sectOf tb 9).bind (readDeclare s x),
        optSect (sectOf tb 3) (readPlans s x false), optSect (sectOf tb 7) (readRmon s x) with
    | some parts, some fly, some phase, some holds, some masks, some decl, some plans, some rm =>
      let ps := plans.getD []
      match optSect (sectOf tb 4) (readUpdate s x ps) with
      | none => none
      | some upd =>
        some { addr := img, length := len, coreCount := s.rd (img + 0x0E) 2, rows := x.rows, cols := x.cols, axes := axes,
               seed := s.rd (img + 0x18) 8, stepCycles := sc, parts := parts, fly := fly, holds := holds, plans := ps, update := upd,
               initialOp := phase.1, phases := phase.2, rmon := rm.map (fun r => r.1), rmonSlots := rm.elim [] (fun r => r.2),
               masks := masks, inputs := decl.1, wings := decl.2.1, backed := decl.2.2 }
    | _, _, _, _, _, _, _, _ => none
  else none

/-- The checks of R122 in their order: the reason and status of the first that fails, or the image (DEDUCED, log 34). -/
def checkImage (s : State) (k img len : Nat) : Except (Byte × Byte) Image :=
  let q := (s.co k).seq.state
  if !s.ownsDram k img len then .error (0x01, stDenied)
  else if q = .armed ∨ q = .running ∨ q = .held then .error (0x02, stLocked)
  else if mread s.dram img 8 ≠ ascii "PV8SCRPT" ∨ s.rd (img + 8) 2 ≠ 1 ∨ s.rd (img + 0x28) 8 ≠ len then .error (0x03, stBadArg)
  else if s.rd (img + 0x0C) 1 ≠ 1 then .error (0x04, stBadArg)
  else if s.rd (img + 0x0E) 2 ≠ 768 ∧ s.rd (img + 0x0E) 2 ≠ 800 then .error (0x05, stBadArg)
  else if (if s.gradeA768 then 768 else 800) < s.rd (img + 0x0E) 2 then .error (0x06, stNoResource)
  else if s.rd (img + 0x0E) 2 ≠ 32 * s.grid then .error (0x07, stBadArg)
  else if (s.co k).rect.map (fun r => (r.rows, r.cols)) ≠ some (s.rd (img + 0x10) 1, s.rd (img + 0x11) 1) then .error (0x08, stBadArg)
  else if !digestsOk s img len (s.rd (img + 0x30) 2) then .error (0x09, stBadArg)
  else match readImage s k img len with
    | none => .error (0x0A, stBadArg)
    | some i => .ok i

end Sys2Proof.Machine
end

