-- ==== Sys2Proof/Machine/RoundMap.lean ====
section
/-!
DEFINITION. The round table of a far run (R309 to R311), its limits, and the lengths and places that follow from it (R313, R314, R317,
R326; the layout of a gateway's inbox is a DESIGN CHOICE, log 16).
-/

namespace Sys2Proof.Machine

/-- Bytes of a contribution: class, K and elements (R313, R314). -/
def contribBytes (cls k elements : Nat) : Nat :=
  match cls with
  | 1 => cdiv elements 4096 * (4 * cdiv (7 * k) 8)
  | 2 => 17 * (elements / 32)
  | _ => 9 * (elements / 32)

/-- Bytes of a sealed parcel: descriptor, ciphertext, tag (R317). -/
def sealedBytes (cls k elements : Nat) : Nat := 16 + contribBytes cls k elements + 16

/-- The 32 bytes of a decision record (R324). -/
def Decision.bytes (d : Decision) : List Byte :=
  padTo 32 (leBytes 5 d.round ++ [d.verdict] ++ leBytes 2 d.gateway ++ leBytes 4 d.current.toNat ++ leBytes 4 d.prior.toNat ++ leBytes 4 d.elapsedMs.toNat)

/-- Reads a decision record. -/
def readDecision (b : List Byte) : Decision :=
  let n := fun (a c : Nat) => leNat ((b.drop a).take c)
  { round := n 0 5, verdict := BitVec.ofNat 8 (n 5 1), gateway := n 6 2, current := BitVec.ofNat 32 (n 8 4), prior := BitVec.ofNat 32 (n 12 4),
    elapsedMs := BitVec.ofNat 32 (n 16 4) }

/-- Rounded up to 256 bytes. -/
def up256 (n : Nat) : Nat := 256 * cdiv n 256

/-- The sealed parcel follows the contribution in the out area, 256-byte aligned (R317). -/
def sealedOffset (cls k elements : Nat) : Nat := up256 (contribBytes cls k elements)

/-- Bytes of one round copy of a shard: four fields (R312). -/
def copyAreaBytes (elements : Nat) : Nat := 1024 * cdiv elements 64

/-- Bytes of a parcel's inbound slots: the decision record's line, then 32 entries (R326). -/
def slotAreaBytes (cls k elements : Nat) : Nat := 256 + 32 * up256 (sealedBytes cls k elements)

/-- A finite FP32 pattern from 0.0 to 1.0. -/
def unitReal (w : Nat) : Bool := decide (w ≤ 0x3F800000) || decide (w = 0x80000000)

/-- Reads one parcel entry; none where a limit is broken. -/
def readParcel (s : State) (u : UpdSection) (a : Nat) : Option (Parcel × Shard) :=
  let p : Parcel := { shard := s.rd a 2, cls := s.rd (a + 2) 1, k := s.rd (a + 4) 2, round0 := s.rd (a + 8) 8, round1 := s.rd (a + 0x10) 8,
                      out0 := s.rd (a + 0x18) 8, out1 := s.rd (a + 0x20) 8, slots := s.rd (a + 0x28) 8 }
  match u.shards[p.shard]? with
  | none => none
  | some sh =>
    if 1 ≤ p.cls ∧ p.cls ≤ 3 ∧ s.zeroAt (a + 3) 1 ∧ s.zeroAt (a + 6) 2 ∧ (if p.cls = 1 then 1 ≤ p.k ∧ p.k ≤ 1024 else p.k = 0) ∧
        p.round0 % 256 = 0 ∧ p.round1 % 256 = 0 ∧ p.out0 % 256 = 0 ∧ p.out1 % 256 = 0 ∧
        (p.cls = 1 ∨ (sh.elements % 32 = 0 ∧ sh.base % 32 = 0)) ∧ inQuarter sh.engine p.round0 (copyAreaBytes sh.elements) ∧
        inQuarter sh.engine p.round1 (copyAreaBytes sh.elements) then some (p, sh)
    else none

/-- Reads one peer entry. -/
def readPeer (s : State) (a : Nat) : Option Peer :=
  if s.rd (a + 0x12) 1 ≤ 1 ∧ s.zeroAt (a + 0x13) 5 then
    some { address := BitVec.ofNat 128 (s.rd a 16), udp := BitVec.ofNat 16 (s.rd (a + 0x10) 2), port := decide (s.rd (a + 0x12) 1 = 1) }
  else none

/-- Reads a round table against the loaded image; none where it breaks a limit of R309 to R311 (or names no hold of KIND 0x3). -/
def readRoundTable (s : State) (k a len : Nat) : Option (RoundTable × List (Parcel × Shard)) :=
  match (s.co k).seq.image with
  | none => none
  | some im =>
    match im.update with
    | none => none
    | some u =>
      let np := s.rd (a + 0x40) 4
      let sites := s.rd (a + 0x0D) 1
      let gws := s.rd (a + 0x2A) 2
      let h := s.rd (a + 0x10) 2
      let land_ := s.rd (a + 0x12) 1
      let eta := s.rd (a + 0x1C) 4
      let dl := s.rd (a + 0x20) 4
      let hard := s.rd (a + 0x24) 4
      let holds := (List.range 3).map (fun i => s.rd (a + 0x44 + 2 * i) 2)
      let ctrs := (List.range 3).map (fun i => s.rd (a + 0x4A + 2 * i) 2)
      let lq := s.rd (a + 0x69) 3
      let gi := s.rd (a + 0x2C) 2
      let form : Bool := decide (mread s.dram a 8 = ascii "PV8ROUND") && decide (s.rd (a + 8) 4 ≠ 0) && decide (s.rd (a + 0x0C) 1 ≤ 15) &&
        decide (2 ≤ sites) && decide (sites ≤ 16) && decide (s.rd (a + 0x0C) 1 < sites) && decide (s.rd (a + 0x0E) 1 < sites) &&
        decide (s.rd (a + 0x0F) 1 ≤ 1) && decide (50 ≤ h) && decide (h ≤ 5000) && decide (3 ≤ land_) && decide (land_ ≤ h - 2) &&
        decide (1 ≤ s.rd (a + 0x13) 1) && decide (s.rd (a + 0x13) 1 ≤ sites) && unitReal (s.rd (a + 0x14) 4) && unitReal (s.rd (a + 0x18) 4) &&
        f32finite eta && decide (0 < eta) && decide (eta < 0x80000000)
      let form2 : Bool := decide (10 ≤ dl) && decide (dl ≤ 600000) && decide (dl ≤ hard) && decide (hard ≤ 3600000) &&
        decide (s.rd (a + 0x28) 2 ≤ 1000) && decide (1 ≤ gws) && decide (gws ≤ 1024) && (decide (gi < gws) || decide (gi = 0xFFFF)) &&
        decide (s.rd (a + 0x2E) 2 ≤ 255) && decide (s.rd (a + 0x30) 8 < 2 ^ 40) && decide (1 ≤ np) && decide (np ≤ 65536) &&
        holds.all (fun x => (im.holds[x]?).elim false (fun e => decide (e.kind = 3))) && ctrs.all (fun c => decide (c < 8192)) &&
        decide (s.rd (a + 0x53) 1 ≤ 1) && s.zeroAt (a + 0x5C) 4 && decide (s.rd (a + 0x60) 8 % 256 = 0) && decide (2 ≤ s.rd (a + 0x68) 1) &&
        decide (s.rd (a + 0x68) 1 ≤ 12) && decide (lq < 2 ^ 21) && s.zeroAt (a + 0x6C) 4 && decide (128 + 48 * np + 24 * (sites * gws) ≤ len)
      if form && form2 then
        match allSome (fun i => readParcel s u (a + 128 + 48 * i)) (List.range np),
            allSome (fun i => readPeer s (a + 128 + 48 * np + 24 * i)) (List.range (sites * gws)) with
        | some ps, some peers =>
          some ({ run := BitVec.ofNat 32 (s.rd (a + 8) 4), site := s.rd (a + 0x0C) 1, sites := sites, leader := s.rd (a + 0x0E) 1,
                  carry := decide (s.rd (a + 0x0F) 1 = 1), h := h, land := land_, quorum := s.rd (a + 0x13) 1,
                  stale := BitVec.ofNat 32 (s.rd (a + 0x14) 4), mu := BitVec.ofNat 32 (s.rd (a + 0x18) 4), eta := BitVec.ofNat 32 eta,
                  deadlineMs := dl, hardMs := hard, retxMs := (if s.rd (a + 0x28) 2 = 0 then 2 else s.rd (a + 0x28) 2), gateways := gws,
                  gatewayIndex := gi, channel := s.rd (a + 0x2E) 2, roundBase := s.rd (a + 0x30) 8, commitsBase := s.rd (a + 0x38) 8,
                  holds := holds, ctrs := ctrs, gens := (List.range 3).map (fun i => BitVec.ofNat 8 (s.rd (a + 0x50 + i) 1)),
                  replay := decide (s.rd (a + 0x53) 1 = 1), formStart := s.rd (a + 0x54) 4, applyStart := s.rd (a + 0x58) 4,
                  ledger := s.rd (a + 0x60) 8, ledgerLog2 := s.rd (a + 0x68) 1, ledgerQueue := lq % 8192,
                  ledgerGen := BitVec.ofNat 8 (lq / 8192), voteSrc := s.rd (a + 0x70) 8, inbox := s.rd (a + 0x78) 8,
                  parcels := ps.map (fun p => p.1), peers := peers }, ps)
        | _, _ => none
      else none

/-- The sealed bytes of every parcel of one module, in round-table order. -/
def parcelBytes (ps : List (Parcel × Shard)) : Nat :=
  (ps.map (fun p => sealedBytes p.1.cls p.1.k p.2.elements)).foldl (· + ·) 0

/-- The inbound slots of every parcel of one module. -/
def slotBytes (ps : List (Parcel × Shard)) : Nat :=
  (ps.map (fun p => slotAreaBytes p.1.cls p.1.k p.2.elements)).foldl (· + ·) 0

/-- Modules a gateway serves: the island's members shared evenly among the gateways (DESIGN CHOICE, log 16). -/
def servedModules (axes : List Nat) (gateways : Nat) : Nat := axes.foldl (· * ·) 1 / gateways

/-- Resources of a round table that another company holds: DENIED (R335). -/
def roundDenied (s : State) (k : Nat) (t : RoundTable) (ps : List (Parcel × Shard)) : Bool :=
  let gw := decide (t.gatewayIndex ≠ 0xFFFF)
  let served := servedModules ((s.co k).seq.image.elim [] (fun i => i.axes)) t.gateways
  let ok := (t.ctrs.all (fun c => (s.absCtr k c).isSome)) && (s.absChan k t.channel).isSome && s.ownsDram k t.ledger (256 * 2 ^ t.ledgerLog2) &&
    s.ownsDram k t.voteSrc 65536 && (!gw || ((s.absQueue k t.ledgerQueue).isSome && s.ownsDram k t.inbox (served * slotBytes ps))) &&
    ps.all (fun p =>
      let n := sealedOffset p.1.cls p.1.k p.2.elements + sealedBytes p.1.cls p.1.k p.2.elements
      s.ownsDram k p.1.out0 n && s.ownsDram k p.1.out1 n && s.ownsDram k p.1.slots (slotAreaBytes p.1.cls p.1.k p.2.elements))
  !ok

end Sys2Proof.Machine
end

