-- ==== Sys2Proof/Machine/Seal.lean ====
section
/-!
DEFINITION. The cipher engine's shared operations (R342 to R349, R356 to R360): keys, nonces, invocations, messages in progress and
their contexts.
-/

namespace Sys2Proof.Machine

def State.keySlot (s : State) (n : Nat) : KeySlot := tget {} s.cip.slots n
def State.modKeySlot (s : State) (n : Nat) (f : KeySlot → KeySlot) : State := { s with cip := { s.cip with slots := tmod {} s.cip.slots n f } }
def State.cipChan (s : State) (c : Nat) : Chan := tget {} s.cip.chans c
def State.modCipChan (s : State) (c : Nat) (f : Chan → Chan) : State := { s with cip := { s.cip with chans := tmod {} s.cip.chans c f } }
def State.chanCo (s : State) (c : Nat) : Nat := s.owner (fun x => x.chans) c
def State.slotCo (s : State) (n : Nat) : Nat := s.owner (fun x => x.keySlots) n

/-- The 32 key bytes of a slot, byte 0 first (R366). -/
def KeySlot.bytes (k : KeySlot) : List Byte := leBytes 32 k.key.toNat

/-- Channels bound to a key slot. -/
def State.boundTo (s : State) (n : Nat) : List (Nat × Chan) :=
  s.cip.chans.filter (fun c => c.2.bound && decide (c.2.slot.toNat = n))

/-- A channel can carry a message: it is bound to a slot that holds a GCM key. -/
def State.chanReady (s : State) (c : Nat) : Bool :=
  (s.cipChan c).bound && decide ((s.keySlot (s.cipChan c).slot.toNat).use = 1)

/-- A seal message starts: its nonce, one more invocation, and the log of an ageing key; none when the slot is exhausted or the channel
cannot seal (R346, R349, R359). -/
def State.sealStart (s : State) (c : Nat) (explicit : List Byte) : Option (List Byte) × State :=
  let ch := s.cipChan c
  let n := ch.slot.toNat
  let k := s.keySlot n
  if !s.chanReady c then (none, s)
  else if 2 ^ 32 ≤ k.invocations.toNat then
    (none, s.log 6 0 3 (s.chanCo c) 0x0504#16 [(6, n), (8, c)])
  else
    let nonce := if ch.nonce then explicit else beBytes 4 ch.fixed.toNat ++ beBytes 8 k.invocations.toNat
    let aged := decide (k.invocations.toNat + 1 = 2 ^ 31) && !k.aged
    let s := s.modKeySlot n (fun k => { k with invocations := k.invocations + 1, aged := k.aged || aged })
    (some nonce, if aged then s.log 6 0 1 (s.chanCo c) 0x0503#16 [(6, n)] else s)

/-! ### Messages in progress and contexts (R356 to R359) -/

/-- The 32-byte context key, derived at each reset (R355, R356). -/
def contextKey (resets : Nat) : List Byte := kdf (leBytes 32 Config.deviceSecret.toNat) (ascii "PV8-CTXK") (beBytes 8 resets)

/-- The device KEK (R355). -/
def deviceKek (serial : DWord) : List Byte := kdf (leBytes 32 Config.deviceSecret.toNat) (ascii "PV8-DKEK") (beBytes 8 serial.toNat)

/-- The 64 bytes of a message's context (R356). -/
def State.contextBytes (s : State) (m : Message) : List Byte :=
  let key := (s.keySlot (s.cipChan m.chan).slot.toNat).bytes
  let iv := beBytes 12 m.iv.toNat
  let whole := m.done / 16 * 16
  let ct := if m.opening then m.data.take whole else gcmCrypt key iv (m.data.take whole)
  let y := ghash (beNat (aesEnc key (List.replicate 16 0))) 0 (padBlock m.aad ++ ct)
  iv ++ beBytes 4 (2 + m.done / 16) ++ beBytes 16 y ++ leBytes 8 m.aad.length ++ leBytes 8 m.done ++
    padTo 16 ((m.data.take m.done).drop whole)

/-- Contexts on the engine. -/
def Cip.onChip (c : Cip) : Nat := (c.msgs.filter (fun m => m.onChip)).length

/-- The message served least recently among those on the engine (R356). -/
def Cip.oldest (c : Cip) : Option Message :=
  (c.msgs.filter (fun m => m.onChip)).foldl (fun o m => match o with
    | none => some m
    | some x => if m.lastServed < x.lastServed then some m else some x) none

/-- Evicts the context served least recently into its channel's entry of the context area (R356). -/
def State.evict (s : State) : State :=
  match s.cip.oldest with
  | none => s
  | some m => { s with cip := { s.cip with
      area := tset [] s.cip.area m.chan (kwWrap (contextKey s.boot.resetCount) (s.contextBytes m)),
      msgs := s.cip.msgs.map (fun x => if x.chan = m.chan then { x with onChip := false } else x) } }

/-- A context is free for a message of channel `c`: in open mode one of 64 and one of its company's granted ones (R356, R376). -/
def State.contextFree (s : State) (c : Nat) : Bool :=
  if s.cip.sealedMode then true
  else
    let k := s.chanCo c
    let used := (s.cip.msgs.filter (fun m => s.chanCo m.chan = k)).length
    let granted := (companyList.map (fun j => (s.co j).contexts)).foldl (· + ·) 0
    decide (s.cip.onChip < 64) && decide (used < if k = 0 then 64 - granted else (s.co k).contexts)

/-- A channel has a message in progress or waiting. -/
def Cip.busy (c : Cip) (chan : Nat) : Bool := c.msgs.any (fun m => m.chan = chan) || c.waiting.any (fun m => m.chan = chan)

/-- The message in progress on a channel. -/
def Cip.msg (c : Cip) (chan : Nat) : Option Message := c.msgs.find? (fun m => decide (m.chan = chan))

/-- A client asks for a message on a channel: it waits to start (R344, R356). -/
def State.msgAsk (s : State) (m : Message) : State := { s with cip := { s.cip with waiting := s.cip.waiting ++ [m] } }

/-- A client gives its message more data, `closed` with the last of it. -/
def State.msgFeed (s : State) (c : CipClient) (bs : List Byte) (closed : Bool) : State :=
  let feed := fun (m : Message) => if m.client = c then { m with data := m.data ++ bs, closed := m.closed || closed } else m
  { s with cip := { s.cip with msgs := s.cip.msgs.map feed, waiting := s.cip.waiting.map feed } }

/-- Changes the message in progress on a channel. -/
def State.modMsg (s : State) (chan : Nat) (f : Message → Message) : State :=
  { s with cip := { s.cip with msgs := s.cip.msgs.map (fun m => if m.chan = chan then f m else m) } }

/-- Gives a message a context: evicting one when all 64 are in use in sealed mode (R356). -/
def State.takeContext (s : State) (m : Message) : State :=
  let s := if 64 ≤ s.cip.onChip then s.evict else s
  { s with cip := { s.cip with msgs := s.cip.msgs ++ [{ m with onChip := true, lastServed := s.cip.serveCount }] } }

/-- A channel's message ends and frees its context (R356). -/
def State.msgEnd (s : State) (chan : Nat) : State :=
  { s with cip := { s.cip with msgs := s.cip.msgs.filter (fun m => m.chan ≠ chan), area := tset [] s.cip.area chan [] } }

/-- The messages of a client go without a word to it: it has gone itself (R404). -/
def State.msgForget (s : State) (mine : CipClient → Bool) : State :=
  let s := (s.cip.msgs.filter (fun m => mine m.client)).foldl (fun s m => s.msgEnd m.chan) s
  { s with cip := { s.cip with waiting := s.cip.waiting.filter (fun m => !mine m.client) } }

/-- The oldest message that waits on a channel can start: none is in progress there, the channel is not frozen, and a context is free (R356,
R376, R402). -/
def State.canStart (s : State) (c : Nat) : Option Message :=
  if (s.cip.msg c).isNone ∧ !s.frozenChans.contains c ∧ s.contextFree c then s.cip.waiting.find? (fun m => decide (m.chan = c)) else none

/-- Messages whose channel has data ready and is not frozen (R357, R402). -/
def State.readyMsgs (s : State) : List Message :=
  s.cip.msgs.filter (fun m => decide (m.done < m.data.length) && !s.frozenChans.contains m.chan)

/-- The ready channel next in ascending order after the last one served (R357). -/
def State.nextChan (s : State) : Option Nat :=
  let after := fun (c : Nat) => (c + 255 - s.cip.lastServed) % 256
  s.readyMsgs.foldl (fun o m => match o with
    | none => some m.chan
    | some c => if after m.chan < after c then some m.chan else some c) none

/-- Key and nonce bytes of a message. -/
def State.msgKey (s : State) (m : Message) : List Byte × List Byte :=
  ((s.keySlot (s.cipChan m.chan).slot.toNat).bytes, beBytes 12 m.iv.toNat)

/-- Output bytes `from_` to `from_ + n` of a message: counter mode works alike in both directions (R343, R360). -/
def State.msgOutput (s : State) (m : Message) (from_ n : Nat) : List Byte :=
  let k := s.msgKey m
  let whole := from_ / 16
  let bs := (m.data.take (from_ + n)).drop (16 * whole)
  (ctrBlocks (cdiv bs.length 16) k.1 k.2 (2 + whole) bs).drop (from_ % 16)

/-- The tag of a message whose data are complete (R343). -/
def State.msgTag (s : State) (m : Message) : List Byte :=
  let k := s.msgKey m
  gcmTag k.1 k.2 m.aad (if m.opening then m.data else gcmCrypt k.1 k.2 m.data)

end Sys2Proof.Machine
end

