-- ==== Sys2Proof/Machine/Stream.lean ====
section
/-!
DEFINITION. Streams out of the module (R278 to R286, R323, R331, R332, R362, R392): plane-pack coding, the CFX frame, and the steps of
a stream from its header to its trailer.
-/

namespace Sys2Proof.Machine

/-! ### Plane-pack coding (R284 to R286) -/

/-- `n` bits of a value, most significant first. -/
def msbBits : Nat → Nat → List Bool
  | 0, _ => []
  | n + 1, v => v.testBit n :: msbBits n v

/-- The code word of one byte after `prev` (R286). -/
def byteCode (prev b : Byte) : List Bool :=
  let d := (b - prev).toNat
  let z := if d < 128 then 2 * d else 2 * (256 - d) - 1
  if z = 0 then [false]
  else if z ≤ 2 then [true, false] ++ msbBits 1 (z - 1)
  else if z ≤ 6 then [true, true, false] ++ msbBits 2 (z - 3)
  else if z ≤ 14 then [true, true, true, false] ++ msbBits 3 (z - 7)
  else if z ≤ 30 then [true, true, true, true, false] ++ msbBits 4 (z - 15)
  else [true, true, true, true, true] ++ msbBits 8 z

/-- The code words of a unit. -/
def unitBits : Byte → List Byte → List Bool
  | _, [] => []
  | prev, b :: bs => byteCode prev b ++ unitBits b bs

/-- Bits into bytes, bit 0 of each byte first; the last byte is padded with zeros. -/
def bitsToBytes : Nat → List Bool → List Byte
  | 0, _ => []
  | n + 1, bs =>
    BitVec.ofNat 8 ((bs.take 8).foldr (fun b a => b2n b + 2 * a) 0) :: bitsToBytes n (bs.drop 8)

def unitCode (bs : List Byte) : List Byte :=
  let x := unitBits 0 bs
  bitsToBytes (cdiv x.length 8) x

/-- Cuts a list into pieces of `n`. -/
def pieces {α : Type} (n : Nat) : Nat → List α → List (List α)
  | 0, _ => []
  | k + 1, xs => if xs.isEmpty then [] else xs.take n :: pieces n k (xs.drop n)

/-- Plane `p` of `w` (R284 step 1). -/
def plane (w p : Nat) (bs : List Byte) : List Byte :=
  (List.range (cdiv (bs.length - p) w)).map (fun i => bs.getD (w * i + p) 0)

/-- The units of a block, plane by plane (R284 step 2). -/
def blockUnits (w : Nat) (bs : List Byte) : List (List Byte) :=
  (List.range w).flatMap (fun p => let x := plane w p bs; pieces 256 (cdiv x.length 256) x)

/-- Tag and body of a unit (R284 steps 3 to 5, R285). -/
def unitBody (u : List Byte) : Nat × List Byte :=
  if u.all (fun b => b = 0) then (0, [])
  else
    let c := unitCode u
    if c.length + 2 < u.length then (1, leBytes 2 c.length ++ c) else (2, u)

/-- Packed form of a block (R285). -/
def packedForm (w : Nat) (bs : List Byte) : List Byte :=
  let us := (blockUnits w bs).map unitBody
  let tags := (pieces 4 us.length us).map (fun g => BitVec.ofNat 8 (g.foldr (fun u a => u.1 + 4 * a) 0))
  tags ++ us.flatMap (fun u => u.2)

/-- A block header and its bytes (R284). -/
def codeBlock (pack : Bool) (w : Nat) (bs : List Byte) : List Byte :=
  let p := packedForm w bs
  let (mode, out) := if pack ∧ p.length < bs.length then (1, p) else (0, bs)
  leBytes 4 bs.length ++ leBytes 4 out.length ++ leBytes 4 mode ++ leBytes 4 (crc32 bs).toNat ++ out

/-- Bytes of one element for a WIDTH code (R276). -/
def widthBytes (w : BitVec 2) : Nat := 2 ^ w.toNat

/-! ### CFX frames (R321, R322) -/

/-- A datagram: header with its CRC-32C, then the payload. -/
def cfxFrame (typ : Nat) (run : Word) (round site gateway seg segs : Nat) (payload : List Byte) : List Byte :=
  let head := ascii "CX" ++ [0x01, BitVec.ofNat 8 typ] ++ leBytes 4 run.toNat ++ leBytes 5 round ++ [BitVec.ofNat 8 site] ++
    leBytes 2 gateway ++ leBytes 4 seg ++ leBytes 4 segs ++ leBytes 2 payload.length ++ [0, 0]
  head ++ leBytes 4 (crc32c (head ++ [0, 0, 0, 0] ++ payload)).toNat ++ payload

/-- Sends a datagram on a far port (DESIGN CHOICE, log 91). -/
def State.farSend (s : State) (p : Nat) (addr : BitVec 128) (udp : Nat) (bs : List Byte) : State :=
  s.modFarPort p (fun f => { f with tx := (addr, udp, bs) :: f.tx })

/-! ### Streams -/

/-- Payload bytes of a bank stream (R280). -/
def Stream.total (x : Stream) : Nat := 512 + 256 * x.list.lines

/-- Bytes of a stored stream from header to seal record (R280, R362). -/
def Stream.bytes (x : Stream) : Nat := 256 + x.total + 16 * cdiv x.total 65536 + 32 + 32

/-- The 256-byte stream header (R280). -/
def State.streamHeader (s : State) (x : Stream) : List Byte :=
  padTo 256 (ascii "PV8SNAPS" ++ [BitVec.ofNat 8 x.list.company] ++
    [BitVec.ofNat 8 (b2n x.pack + 2 * b2n (decide (x.cipher ≠ 0x1FF#9)) + 4 * x.width.toNat), 0, 0] ++ leBytes 4 x.list.coord.toNat ++
    leBytes 8 s.serial.toNat ++ leBytes 8 x.list.lines ++ leBytes 4 (cdiv x.total 65536))

/-- Changes the oldest stream of a company. -/
def State.modStream (s : State) (k : Nat) (f : Stream → Stream) : State :=
  s.modPak k (fun p => { p with streams := match p.streams with
    | [] => []
    | x :: xs => f x :: xs })

/-- DRAM address of line `i` of a bank list (R275). -/
def listAddr (bank : Bool) : List (Nat × Nat × Nat) → Nat → Nat
  | [], _ => 0
  | (a, b, n) :: t, i => if i < n then (if bank then b else a) + 256 * i else listAddr bank t (i - n)

/-- Writes at most `limit` stream bytes into a DMA queue's ring from TAIL onward, as many as fit (R281, R392): the bytes taken. -/
def State.ringStream (s : State) (q limit : Nat) (bs : List Byte) : Nat × State :=
  let x := s.queue q
  let n := min (min bs.length limit) (64 * (x.depth - x.count) - x.streamOff)
  let cap := 64 * x.depth
  let start := (64 * x.tail + x.streamOff) % cap
  let first := min n (cap - start)
  let base := x.base.toNat * 4096
  let s := s.ringWrite x.loc (base + start) (bs.take first)
  let s := s.ringWrite x.loc base ((bs.take n).drop first)
  (n, s.modQueue q (fun x => { x with
    tail := (x.tail + (x.streamOff + n) / 64) % (2 * x.depth), streamOff := (x.streamOff + n) % 64, streamBytes := x.streamBytes + n }))

/-- A stream into a ring ends: TAIL covers its last bytes. -/
def State.ringStreamEnd (s : State) (q : Nat) : State :=
  s.modQueue q (fun x => { x with
    tail := (x.tail + (if x.streamOff = 0 then 0 else 1)) % (2 * x.depth), streamOff := 0, streamEnds := x.streamEnds + 1 })

/-- The stream's DMA queue, while its handle is current and the queue is a running stream-out queue (R283, R392). -/
def State.streamQueue (s : State) (k : Nat) (x : Stream) : Option Nat :=
  match s.absQueue k x.queue with
  | none => none
  | some q =>
    let y := s.queue q
    if y.enable ∧ y.gen = x.queueGen ∧ y.typ = 2 ∧ y.mode = 1 then some q else none

/-- The far port of DEST 1 or 2 (R276). -/
def destPort (d : BitVec 2) : Nat := d.toNat - 1

/-- Everything of the stream has been made: its trailer, and with CIPHER its seal record (R280, R362). -/
def Stream.whole (x : Stream) : Bool := x.result.isSome && (decide (x.cipher = 0x1FF#9) || x.sealed)

/-- Sends the next segments of a far-port stream: whole segments, and the last one once the trailer is made (R323). -/
def State.snapSegments (s : State) (k : Nat) (x : Stream) : Nat → List Byte → Nat → Nat × State
  | 0, _, _ => (0, s)
  | n + 1, buf, sent =>
    let p := destPort x.dest
    let f := s.farPort p
    let open_ := (f.snapUnacked.filter (fun u => decide (u.1.1 = k) && decide (u.1.2.1 = x.commits.toNat))).length
    let bs := buf.take 8192
    if bs.isEmpty ∨ (bs.length < 8192 ∧ x.whole = false) ∨ 512 ≤ open_ then (0, s)
    else
      let seg := sent / 8192
      let d := cfxFrame 0x04 0 (x.commits.toNat % 2 ^ 40) 0 k seg (cdiv x.bytes 8192) bs
      let udp := if f.snapUdp = 0 then 47344 else f.snapUdp.toNat
      let s := (s.farSend p f.snapPeer udp d).modFarPort p (fun f =>
        { f with snapUnacked := f.snapUnacked ++ [((k, x.commits.toNat, seg), s.nowNs, d)] })
      let (m, s) := State.snapSegments s k x n (buf.drop 8192) (sent + bs.length)
      (m + bs.length, s)

/-- The oldest stream has left: its counters, its queue, its channel and its command (R283, R289, R334). -/
def State.streamDone (s : State) (k : Nat) (x : Stream) : State :=
  let s := s.modPak k (fun p => { p with streams := p.streams.tail,
                                         finished := if x.kind = 0 ∧ x.result = some 0 ∧ x.dead = false then x.commits else p.finished })
  let s := match s.streamQueue k x with
    | some q => if x.dest = 0 then s.ringStreamEnd q else s
    | none => s
  match x.reply with
  | some h => s.answer h (if x.result = some 0 ∧ x.dead = false then stDone else stFault) 0 []
  | none => s

/-- A far port carries traffic: its link is up and the module is in sealed mode (R341, R351). -/
def State.farUp (s : State) (p : Nat) : Bool := s.cip.sealedMode && decide ((s.farPort p).link = 2)

/-- Bytes of the stream have left: blocks that are out no longer count as read ahead (R281). -/
def Stream.passed (x : Stream) (n : Nat) : Stream :=
  let out := x.marks.filter (fun m => decide (m.1 ≤ x.sent + n))
  { x with buf := x.buf.drop n, sent := x.sent + n, marks := x.marks.drop out.length, outRead := out.foldl (fun a m => max a m.2) x.outRead }

/-- Bytes that go into a ring at once: a ring in DRAM takes them access by access in wings slots (R378). -/
def Queue.streamLimit (x : Queue) : Nat := if x.loc then 0 else 2 ^ 64

/-- The destination of a stream is gone: once its trailer is made, what has not left is dropped, and its message with it (R283). -/
def State.streamDropped (s : State) (k : Nat) (x : Stream) : State :=
  if x.result.isSome then
    (s.msgForget (fun c => decide (c = .stream k))).modStream k (fun y => { y with buf := [], sent := y.sent + y.buf.length, sealed := true })
  else s

/-- Moves made bytes of the oldest stream out, at most `limit` into a ring, and completes the stream once all of it has left (R281). -/
def State.streamOut (s : State) (k limit : Nat) : State :=
  match (s.co k).pak.streams with
  | [] => s
  | x :: _ =>
    let move := fun (r : Nat × State) => r.2.modStream k (fun _ => x.passed r.1)
    let s :=
      if x.dest = 0 then (s.streamQueue k x).elim (s.streamDropped k x) (fun q => if s.entryWaits q then s else move (s.ringStream q limit x.buf))
      else if s.farUp (destPort x.dest) then
        (if s.hasShare k (destPort x.dest) then move (s.snapSegments k x (cdiv x.buf.length 8192) x.buf x.sent) else s)
      else s.streamDropped k x
    match (s.co k).pak.streams with
    | y :: _ => if y.whole ∧ y.buf = [] then s.streamDone k y else s
    | [] => s

/-- Moves out what can leave without a wings slot. -/
def State.streamFlush (s : State) (k : Nat) : State :=
  s.streamOut k (((s.co k).pak.streams.head?.bind (fun x => s.streamQueue k x)).elim 0 (fun q => (s.queue q).streamLimit))

/-- The stream's cipher channel: none without CIPHER. -/
def State.streamChan (s : State) (k : Nat) (x : Stream) : Option Nat :=
  if x.cipher = 0x1FF#9 then none else s.absChan k x.cipher.toNat

/-- Stream bytes are made: they go through the stream's message where it has one, `closed` with the last of them, and leave as they are
otherwise (R362). -/
def State.streamMake (s : State) (k : Nat) (bs : List Byte) (closed : Bool) : State :=
  match (s.co k).pak.streams with
  | [] => s
  | x :: _ =>
    if x.cipher = 0x1FF#9 ∨ x.sealed then s.modStream k (fun x => { x with buf := x.buf ++ bs, made := x.made + bs.length })
    else (s.msgFeed (.stream k) bs closed).modStream k (fun x => { x with made := x.made + bs.length })

/-- Makes the trailer (R280) (DEDUCED, log 84). -/
def State.streamTrailer (s : State) (k : Nat) (result : Byte) : State :=
  match (s.co k).pak.streams with
  | [] => s
  | x :: _ =>
    let t := ascii "PV8SNAPE" ++ leBytes 4 x.blocks ++ [result, 0, 0, 0] ++ leBytes 4 (~~~x.crc).toNat ++ List.replicate 12 0
    (s.streamMake k t true).modStream k (fun x => { x with result := some result })

/-- A snapshot of the company is still reading its bank (R279). -/
def Pak.reading (p : Pak) : Bool := p.streams.any (fun x => decide (x.kind = 0) && !x.readsDone && x.result.isNone && !x.cut)

/-- The guard follows the streams (R279, R283). -/
def State.setGuard (s : State) (k : Nat) : State := (s.modPak k (fun p => { p with guard := p.reading })).evalHold k

/-- Lines of its bank that a stream has read (R290). -/
def State.linesRead (s : State) (k : Nat) (x : Stream) : Nat :=
  ((x.read - 512) / 64 + (if x.begun then (s.wingsGot.filter (fun g => decide (g.master = .snapshot k))).length else 0)) / 4

/-- What a snapshot's early end leaves in the PAK set and the log (R283, R290). -/
def State.noteAbort (s : State) (k : Nat) (x : Stream) (cause : Nat) : State :=
  if x.kind = 0 then
    ((s.setGuard k).modPak k (fun p => { p with aborted := true, cause := BitVec.ofNat 4 cause })).log 7 0 1 k 0x0601#16
      [(4, k), (4, cause), (32, s.linesRead k x), (64, x.commits.toNat)]
  else s

/-- The oldest stream ends early (R283). `cause` is CAUSE of PAK_SNAP_STATUS; an anchor export only answers its command. One that has not
begun leaves with a header and a trailer once it can; one whose trailer is made and not yet out ends only where its queue or port is lost
(DEDUCED, log 84). -/
def State.streamAbort (s : State) (k : Nat) (cause : Nat) : State :=
  match (s.co k).pak.streams with
  | [] => s
  | x :: _ =>
    if x.result.isSome then
      if x.result = some 0 ∧ x.dead = false ∧ (cause = 2 ∨ cause = 3) then
        ((s.modStream k (fun x => { x with dead := true })).noteAbort k x cause).streamFlush k
      else s
    else if x.begun = false then
      if x.cut then s
      else ((s.modStream k (fun x => { x with cut := true, readsDone := true })).noteAbort k x cause).wingsDrop (.snapshot k)
    else ((((s.modStream k (fun x => { x with readsDone := true })).streamTrailer k 1).noteAbort k x cause).wingsDrop (.snapshot k)).streamFlush k

/-- Every stream of the company that `gone` selects ends early (R283): the oldest at once, those behind it leave with a header and a trailer
when their turn comes. -/
def State.abortStreams (s : State) (k cause : Nat) (gone : Stream → Bool) : State :=
  let xs := (s.co k).pak.streams
  let behind := xs.tail.filter (fun x => gone x && !x.cut)
  let s := s.modPak k (fun p => { p with streams := p.streams.take 1 ++ p.streams.tail.map (fun x =>
    if gone x then { x with cut := true, readsDone := true } else x) })
  let s := match xs with
    | x :: _ => if gone x then s.streamAbort k cause else s
    | [] => s
  behind.foldl (fun s x => s.noteAbort k x cause) s

/-- A load ends every snapshot of the company that is still reading (R283). -/
def State.abortLoad (s : State) (k : Nat) : State := s.abortStreams k 1 (fun x => decide (x.kind = 0))

/-- The message of the company's oldest stream has been abandoned: the stream ends early as at an uncorrectable error, with a trailer in the
clear and no seal record (R283, R359) (DEDUCED, log 84). -/
def State.streamLost (s : State) (k : Nat) : State :=
  match (s.co k).pak.streams with
  | [] => s
  | x :: _ =>
    if x.begun = false ∨ x.sealed then s
    else
      let s := s.modStream k (fun x => { x with sealed := true, readsDone := true })
      (((s.streamTrailer k 1).noteAbort k x 4).wingsDrop (.snapshot k)).streamFlush k

/-- A target of an engine channel is its company's no more: a violation that freezes the channel where the company still holds it (R401)
(DEDUCED, log 111). -/
def State.targetGone (s : State) (k : Nat) (chan : Option Nat) (index : Nat) : State :=
  match chan with
  | some c => s.violation k 0x14 (.channel c) [(32, index)]
  | none => s.raise { source := srcOf 8 0, cls := 2, company := k, code := 0x0003#16, house := decide (k = 0),
                      detail := [(4, k), (8, 0x14), (18, fld 16 2 + index), (32, index)] }

/-- The stream starts to leave: its header in the clear, and with CIPHER it asks for a message whose AAD is the header (R280, R362); a queue or
a channel that is no longer the company's ends it (R401). -/
def State.streamBegin (s : State) (k : Nat) : State :=
  match (s.co k).pak.streams with
  | [] => s
  | x :: _ =>
    if x.begun then s
    else
      let h := s.streamHeader x
      let s := s.modStream k (fun x => { x with begun := true, buf := h, made := h.length })
      let chan := s.streamChan k x
      let protect := decide (x.cipher ≠ 0x1FF#9)
      if protect ∧ chan.isNone then (s.targetGone k none x.cipher.toNat).streamLost k
      else
        let s := match chan with
          | some c => s.msgAsk { chan := c, client := .stream k, opening := false, aad := h }
          | none => s
        if x.dest = 0 ∧ (s.absQueue k x.queue).isNone then (s.targetGone k chan x.queue).streamAbort k 2
        else if x.cut then s.streamTrailer k 1 else s

/-- Accesses of the bank's lines in a stream. -/
def Stream.accesses (x : Stream) : Nat := 4 * x.list.lines

/-- DRAM address of access `i` of the bank's lines, in bank-list order (R275, R278). -/
def Stream.access (x : Stream) (i : Nat) : Nat := listAddr x.bank x.list.records (i / 4) + 64 * (i % 4)

/-- The access that the company's oldest stream asks for next: in bank-list order, at most 1 MiB ahead of the stream's output (R278, R281). -/
def State.streamWants (s : State) (k : Nat) : Option Nat :=
  match (s.co k).pak.streams with
  | [] => none
  | x :: _ =>
    if x.result.isNone ∧ x.cut = false ∧ x.asked < x.accesses ∧ 512 + 64 * x.asked + 64 ≤ x.outRead + 2 ^ 20 ∧
        (x.dest ≠ 0 ∨ (s.streamQueue k x).isSome) then some (x.access x.asked) else none

/-- Accesses that payload bytes `from_` to `from_ + n` of a stream need: the captured header comes before the lines (R280). -/
def Stream.needs (x : Stream) (from_ n : Nat) : List Nat :=
  (List.range (((from_ + n) - max from_ 512) / 64)).map (fun i => x.access ((max from_ 512 - 512) / 64 + i))

/-- Payload bytes of the next input block. -/
def Stream.nextBlock (x : Stream) : Nat := min 65536 (x.total - x.read)

/-- The oldest stream of the company can make its next block: everything it needs has been read (R281). -/
def State.blockReady (s : State) (k : Nat) : Bool :=
  match (s.co k).pak.streams with
  | [] => false
  | x :: _ =>
    x.begun && x.result.isNone && decide (x.read < x.total) &&
      (x.needs x.read x.nextBlock).all (fun u => (s.wingsFind (.snapshot k) u).isSome)

/-- It is the company's turn at the pack engine: no company that comes after the one served last has a block ready before it (R281). -/
def State.blockTurn (s : State) (k : Nat) : Bool :=
  (((List.range 16).map (fun i => (s.pakLast + 1 + i) % 16)).find? (fun j => s.blockReady j)) = some k

/-- Payload bytes of the next block (R280). -/
def State.blockBytes (s : State) (k : Nat) (x : Stream) : List Byte :=
  (x.header.drop x.read).take x.nextBlock ++
    (x.needs x.read x.nextBlock).flatMap (fun u => (s.wingsFind (.snapshot k) u).elim [] (fun g => leBytes 64 g.data.toNat))

/-- The next block is coded, sealed where the stream has a channel, and goes out (R281, R282, R284). -/
def State.makeBlock (s : State) (k : Nat) (x : Stream) : State :=
  let n := x.nextBlock
  let bs := s.blockBytes k x
  let s := (x.needs x.read n).foldl (fun s u => s.wingsUse (.snapshot k) u 64) { s with pakLast := k }
  let out := codeBlock (x.pack && decide (x.cipher = 0x1FF#9)) (widthBytes x.width) bs
  let s := (s.streamMake k out false).modStream k (fun x => { x with
    read := x.read + n, blocks := x.blocks + 1, crc := bs.foldl (crcStep 0xEDB88320#32) x.crc, marks := x.marks ++ [(x.made, x.read + n)] })
  s.streamFlush k

/-- An access of the company's oldest stream has been read: it waits for its block, and one with an error mark ends the stream (R21, R283). -/
def State.streamRead (s : State) (k u : Nat) (d : BitVec 512) (error : Bool) : State :=
  if error then s.streamAbort k 4 else { s with wingsGot := s.wingsGot ++ [{ master := .snapshot k, addr := u, data := d, error := false }] }

/-- The company's oldest stream outputs one input block once its accesses are read, its destination has room and its turn at the pack
engine has come (R281). -/
def State.streamBlock (s : State) (k : Nat) : State :=
  let s := s.streamBegin k
  match (s.co k).pak.streams with
  | [] => s
  | x :: _ =>
    if x.dest = 0 ∧ (s.streamQueue k x).isNone ∧ x.result.isNone then s.streamAbort k 2
    else if s.blockTurn k then s.makeBlock k x
    else s.streamFlush k

/-- The stream has read the last line of its bank: the guard clears (R279). -/
def State.streamReadsDone (s : State) (k : Nat) : State :=
  match (s.co k).pak.streams with
  | [] => s
  | x :: _ =>
    if x.result.isNone ∧ x.asked = x.accesses ∧ x.readsDone = false ∧
        (x.needs x.read (x.total - x.read)).all (fun u => (s.wingsFind (.snapshot k) u).isSome) then
      (s.modStream k (fun x => { x with readsDone := true })).setGuard k
    else s

/-- The trailer is made once every read is done, and leaves with what still waits (R280). -/
def State.streamEnd (s : State) (k : Nat) : State :=
  match (s.co k).pak.streams with
  | [] => s
  | x :: _ =>
    if x.result.isSome then s.streamFlush k
    else if x.readsDone ∧ x.read = x.total then (s.streamTrailer k 0).streamFlush k else s

/-- A new snapshot stream of a committed bank (R278). -/
def State.streamStart (s : State) (k : Nat) (bank : Bool) (header : List Byte) (list : BankList) : State :=
  let c := (s.co k)
  let p := c.pak
  s.modPak k (fun q => { q with
    guard := true, started := c.upd.commits,
    streams := q.streams ++ [{ kind := 0, commits := c.upd.commits, bank := bank, list := list, header := header, queue := p.queue,
                               queueGen := p.queueGen, dest := p.dest, cipher := p.cipher, pack := p.pack, width := p.width }] })

/-! ### Bank lists (R275) -/

/-- Reads a bank list; none where a command that names it replies BAD_ARGUMENT. -/
def State.readBankList (s : State) (k a : Nat) : Option BankList :=
  let n := s.dramNat (a + 4) 4
  let recs := (List.range n).map (fun i =>
    (s.dramNat (a + 64 + 32 * i) 8, s.dramNat (a + 72 + 32 * i) 8, s.dramNat (a + 80 + 32 * i) 4))
  if mread s.dram a 4 = ascii "PV8B" ∧ 1 ≤ n ∧ n ≤ 65536 ∧ s.ownsDram k a (64 + 32 * n) ∧ s.dramNat (a + 0x21) 3 = 0 ∧
      s.dramNat (a + 0x28) 24 = 0 ∧ s.dramNat (a + 0x20) 1 = k ∧
      (List.range n).all (fun i => decide (s.dramNat (a + 84 + 32 * i) 12 = 0)) ∧
      recs.all (fun r => decide (r.1 % 256 = 0) && decide (r.2.1 % 256 = 0) && decide (1 ≤ r.2.2) && s.ownsDram k r.1 (256 * r.2.2) &&
        s.ownsDram k r.2.1 (256 * r.2.2)) ∧
      s.dramNat (a + 8) 8 = (recs.map (fun r => r.2.2)).foldl (· + ·) 0 then
    some { lines := s.dramNat (a + 8) 8, imageA := s.dramNat (a + 0x10) 8, imageB := s.dramNat (a + 0x18) 8, company := k,
           coord := BitVec.ofNat 32 (s.dramNat (a + 0x24) 4), records := recs }
  else none

end Sys2Proof.Machine
end

