-- ==== Sys2Proof/Machine/CipherMsg.lean ====
section
/-!
DEFINITION. What the clients of the cipher engine do with its output (R317, R324, R328, R359, R360, R362, R391), and the life of a message:
its start, its slices, its tag, and its abandonment (R346, R349, R356 to R360).
-/

namespace Sys2Proof.Machine

/-! ### What a client takes (R359, R360) -/

/-- Changes the descriptor in progress of a DMA queue. -/
def State.modDma (s : State) (q : Nat) (f : DmaOp → DmaOp) : State := s.modQueue q (fun x => { x with dma := x.dma.map f })

/-- Destination bytes of a descriptor are made: host memory takes them at once, DRAM in wings slots (R17, R390). -/
def State.dmaPut (s : State) (q : Nat) (toHost : Bool) (a : Nat) (bs : List Byte) : State :=
  let s := if toHost then { s with hostMem := mwrite s.hostMem a bs } else s.wingsPut (.dma q) a bs
  s.modDma q (fun o => { o with bytes := o.bytes + bs.length })

/-- Nothing more is to be made for a descriptor: its status and its tag verdict stand (R391). -/
def State.dmaEnd (s : State) (q : Nat) (status verdict : Byte) : State :=
  s.modDma q (fun o => { o with ended := true, status := status, verdict := verdict })

/-- An item of the FAR unit's phase is finished. -/
def State.farItem (s : State) (k : Nat) : State := s.modFar k (fun f => { f with finished := f.finished + 1 })

/-- A slot whose tag fails is not used, counts, and is logged (R328). -/
def State.slotFailed (s : State) (k round shard site : Nat) : State :=
  ((s.modFar k (fun f => { f with tagFails := f.tagFails + 1 })).farItem k).log 5 0 1 k 0x0705#16 [(40, round), (16, shard), (4, site)]

/-- Output of a message goes to its client as it leaves the pipeline: a parcel into its out area, a slot back in place, stream bytes out, a
descriptor's bytes to their destination (R360). A record's few bytes go with its tag. -/
def State.cipOut (s : State) (m : Message) (off : Nat) (bs : List Byte) : State :=
  match m.client with
  | .stream k => (s.modStream k (fun x => { x with buf := x.buf ++ bs })).streamFlush k
  | .dma q toHost a => s.dmaPut q toHost (a + off) bs
  | .far k item a => match item with
    | .parcel => s.wingsPut (.far k) (a + off) bs
    | .slot _ _ _ => s.wingsPut (.far k) (a + off) bs
    | .record => s
    | .decide => s

/-- The tag or the verdict of a message goes to its client (R317, R324, R328, R360, R362, R391) (DEDUCED, log 54; DEDUCED, log 55). -/
def State.msgDone (s : State) (m : Message) : State :=
  let tag := s.msgTag m
  let pass := decide (BitVec.ofNat 128 (beNat tag) = m.tag)
  let sealRec := beBytes 12 m.iv.toNat ++ [0, 0, 0, 0] ++ tag
  let all := s.msgOutput m 0 m.data.length
  match m.client with
  | .stream k => (s.modStream k (fun x => { x with buf := x.buf ++ sealRec, made := x.made + 32, sealed := true })).streamFlush k
  | .dma q toHost a =>
    if m.opening then s.dmaEnd q 0x00 (if pass then 1 else 2) else (s.dmaPut q toHost (a + m.data.length) sealRec).dmaEnd q 0x00 0
  | .far k item a => match item with
    | .parcel => (s.wingsPut (.far k) (a + m.data.length) tag).farItem k
    | .slot r sh site => if pass then s.farItem k else s.slotFailed k r sh site
    | .record => s.modFar k (fun f => { f with record := some (m.aad ++ all ++ tag) })
    | .decide => if pass then s.modFar k (fun f => { f with decision := some (readDecision all) }) else s

/-- A message has been abandoned: a stream ends early, the FAR unit writes a zero tag, and an open message fails (R359)
(DEDUCED, log 54). -/
def State.msgLost (s : State) (m : Message) : State :=
  let zero : List Byte := List.replicate 16 0
  match m.client with
  | .stream k => s.streamLost k
  | .dma q _ _ => if m.opening then s.dmaEnd q 0x00 2 else s.dmaEnd q 0x0A 0
  | .far k item a => match item with
    | .parcel => (s.wingsPut (.far k) (a + m.data.length) zero).farItem k
    | .slot r sh site => s.slotFailed k r sh site
    | .record => s.modFar k (fun f => { f with record := some (m.aad ++ List.replicate m.data.length 0 ++ zero) })
    | .decide => s

/-! ### A message's life (R346, R349, R356 to R360) -/

/-- Every message of a channel is abandoned (R359, R404). -/
def State.abandonChan (s : State) (chan : Nat) : State :=
  let gone := (s.cip.msgs ++ s.cip.waiting).filter (fun m => decide (m.chan = chan))
  let s := s.msgEnd chan
  gone.foldl (fun s m => s.msgLost m) { s with cip := { s.cip with waiting := s.cip.waiting.filter (fun m => decide (m.chan ≠ chan)) } }

/-- The oldest message that waits on a channel starts: sealing takes the channel's nonce and counts an invocation, opening takes the
client's nonce. On an exhausted slot it is abandoned (R346, R349, R359). A key slot that is no longer the channel's company's is a violation:
the channel is frozen with its message waiting, and the house's message is dropped (R401) (DEDUCED, log 111). -/
def State.messageStart (s : State) (c : Nat) : State :=
  match s.canStart c with
  | none => s
  | some m =>
    let start := fun (s : State) => { s with cip := { s.cip with waiting := s.cip.waiting.erase m } }
    let slot := (s.cipChan c).slot.toNat
    if s.chanReady c = false then (start s).msgLost m
    else if s.slotCo slot ≠ s.chanCo c then
      let t := s.targetGone (s.chanCo c) (some c) slot
      if s.chanCo c = 0 then (start t).msgLost m else t
    else if m.opening then (start s).takeContext m
    else match (start s).sealStart c (beBytes 12 m.iv.toNat) with
      | (some iv, s) => s.takeContext { m with iv := BitVec.ofNat 96 (beNat iv) }
      | (none, s) => s.msgLost m

/-- The context of a channel comes back from the context area, evicting one where all 64 are in use; a context that fails its unwrap
abandons its message (R356, R359). -/
def State.restoreContext (s : State) (c : Nat) : State :=
  match s.cip.msg c with
  | none => s
  | some m =>
    if m.onChip then s
    else if (kwUnwrap (contextKey s.boot.resetCount) (tget [] s.cip.area c)).isNone then
      (s.log 6 0 2 (s.chanCo c) 0x0505#16 [(8, c), (4, s.chanCo c)]).abandonChan c
    else
      let s := if 64 ≤ s.cip.onChip then s.evict else s
      State.modMsg { s with cip := { s.cip with area := tset [] s.cip.area c [] } } c (fun x => { x with onChip := true })

/-- One slice: up to 4 KiB of the next ready channel's data enter the pipeline; it ends earlier where the channel's input is empty. Its
output goes to the client (R357, R358, R360). -/
def State.sliceEnd (s : State) : State :=
  match s.nextChan with
  | none => s
  | some c =>
    let s := s.restoreContext c
    match s.cip.msg c with
    | none => s
    | some m =>
      let n := min 4096 (m.data.length - m.done)
      let out := s.msgOutput m m.done n
      let turn := s.cip.serveCount + 1
      let s := State.modMsg { s with cip := { s.cip with lastServed := c, serveCount := turn } } c (fun x =>
        { x with done := x.done + n, lastServed := turn })
      s.cipOut m m.done out

/-- The tag or the verdict of a message whose last block has entered (R343, R357, R360). -/
def State.tagReady (s : State) (c : Nat) : State :=
  match s.cip.msg c with
  | none => s
  | some m =>
    if m.closed ∧ m.done = m.data.length then
      let s := s.restoreContext c
      if (s.cip.msg c).isSome then (s.msgEnd c).msgDone m else s
    else s

end Sys2Proof.Machine
end

