-- ==== Sys2Proof/Machine/Grants.lean ====
section
/-!
DEFINITION. Master resets (R381, R399, R404) and what the company commands change once their checks have passed (R371 to R376, R389).
-/

namespace Sys2Proof.Machine

/-! ### Master resets (R404) -/

/-- Read slots in flight for a queue retire into quarantine (R393, R404). -/
def State.retireSlots (s : State) (q : Nat) : State :=
  { s with readSlots := s.readSlots.foldl (fun t x =>
      if x.2.use = 1 ∧ x.2.queue = q then tset {} t x.1 { x.2 with use := 2, gen := x.2.gen + 1, sinceNs := s.nowNs } else t) s.readSlots }

/-- Streams of any company that leave through queue `q` end early (R283, R404). -/
def State.abortStreamsOn (s : State) (q : Nat) : State :=
  (0 :: companyList).foldl (fun s k => s.abortStreams k 2 (fun x => decide (x.dest = 0) && decide (s.absQueue k x.queue = some q))) s

/-- Watch messages that wait for a queue find it disabled: they are dropped, counted in LOST and logged (R398). -/
def State.loseMessages (s : State) (q : Nat) : State :=
  let k := s.queueCo q
  let gone := (s.co k).watchPending.filter (fun p => decide (p.1 = q))
  let s := s.modCo k (fun c => { c with watchPending := c.watchPending.filter (fun p => decide (p.1 ≠ q)) })
  gone.foldl (fun s p => s.loseMessage k (s.localIndex (fun c => c.watches) k p.2.2.1) 1) s

/-- A queue's master reset: it stops, its generation advances, entries that wait for space are discarded and count as answered, and its
descriptor, its cipher message, its wings accesses and its streams end (R381, R399, R404). -/
def State.resetQueue (s : State) (q : Nat) : State :=
  let s := s.retireSlots q
  let waiting := (s.queue q).waiting
  let s := s.modQueue q (fun x => { x with
    enable := false, gen := x.gen + 1, changedNs := some s.nowNs, waiting := [], dma := none, stopped := none,
    streamOff := 0, streamBytes := 0, streamEnds := 0 })
  let s := ((s.msgForget (fun c => match c with
    | .dma j _ _ => decide (j = q)
    | _ => false)).wingsDrop (.dma q)).wingsDrop (.ring q)
  let s := waiting.foldl (fun s w => (s.replied w.2).fetch (w.2.getD q)) s
  (s.loseMessages q).abortStreamsOn q

/-- A watch is disarmed: FIRED clears and its generation advances; a message of it that still waits is dropped and counted (R398, R399). -/
def State.disarmWatch (s : State) (w : Nat) : State :=
  let k := (s.watch w).company
  let gone := ((s.co k).watchPending.filter (fun p => p.2.2.1 = w)).length
  let s := s.modCo k (fun c => { c with watchPending := c.watchPending.filter (fun p => p.2.2.1 ≠ w), synStale := satAdd c.synStale gone })
  s.modWatch w (fun x => { x with enable := false, fired := false, held := false, gen := x.gen + 1, changedNs := some s.nowNs })

/-- The company's open transaction is aborted: its staged commands and reserved resources go (R408). -/
def State.abortTxn (s : State) (k : Nat) : State :=
  s.modCo k (fun c => { c with txn := match c.txn.opened with
    | some o => { c.txn with opened := none, aborted := o.id :: c.txn.aborted }
    | none => c.txn })

/-- The cipher messages of a company's channels are abandoned (R359, R404). -/
def State.abandonCo (s : State) (k : Nat) : State :=
  ((s.cip.msgs ++ s.cip.waiting).filter (fun m => decide (s.chanCo m.chan = k))).foldl (fun s m => s.abandonChan m.chan) s

/-- A Function Level Reset: every queue of the function resets, its company's cipher messages are abandoned and its open transaction is
aborted; the physical function's resets the queues of every function (R404) (DEDUCED, log 112). -/
def State.functionReset (s : State) (f : Nat) : State :=
  let mine := fun (s : State) (k : Nat) => decide (f = 0) || decide (s.coFunc k = f)
  let s := s.queues.foldl (fun t x => if mine s (s.queueCo x.1) ∧ x.2.enable then t.resetQueue x.1 else t) s
  let s := (0 :: companyList).foldl (fun t k => if mine s k then t.abandonCo k else t) s
  (0 :: companyList).foldl (fun s k => if s.coFunc k = f then s.abortTxn k else s) s

/-! ### Grants (R371, R376, R389) -/

/-- Indices of a range. -/
def Range.indices (r : Range) : List Nat := (List.range r.count).map (fun i => r.first + i)

/-- Changes a torus-lane grant (R371). -/
def Co.addLanes (c : Co) (port first n : Nat) : Co := { c with lanes := c.lanes ++ [(port, first, n)] }

/-- CO_CREATE takes effect (R389). -/
def State.applyCreate (s : State) (k f : Nat) : State :=
  s.modCo k (fun c => { c with present := true, function := f })

/-- CO_GRANT takes effect (R371). -/
def State.applyGrant (s : State) (k kind first count extra : Nat) : State :=
  let r := some ({ first := first, count := count } : Range)
  match kind with
  | 1 => s.modCo k (fun c => { c with rect := some { row0 := nbits first 4 0, col0 := nbits first 12 8, rows := nbits count 4 0, cols := nbits count 13 8 } })
  | 2 => s.modCo k (fun c => { c with quarters := BitVec.ofNat 48 extra })
  | 3 => s.modCo k (fun c => { c with queues := r })
  | 4 => s.modCo k (fun c => { c with counters := r })
  | 5 =>
    let s := s.modCo k (fun c => { c with watches := r })
    (Range.indices { first := first, count := count }).foldl (fun s w => s.modWatch w (fun x => { x with company := k })) s
  | 6 => s.modCo k (fun c => { c with keySlots := r })
  | 7 => s.modCo k (fun c => { c with chans := r })
  | 8 => s.modCo k (fun c => { c with contexts := count })
  | 9 => s.modCo k (fun c => c.addLanes (nbits first 10 8) (nbits first 3 0) count)
  | _ => s.modCo k (fun c => { c with farShare := c.farShare ++ [(first, count)] })

/-- A grant of one kind returns to the house: returned queues reset, generations advance, channels lose their messages (R389, R399,
R404). -/
def State.applyReturn (s : State) (k kind port : Nat) : State :=
  let c := s.co k
  match kind with
  | 1 => s.modCo k (fun c => { c with rect := none })
  | 2 => s.modCo k (fun c => { c with quarters := 0 })
  | 3 =>
    let s := (c.queues.elim [] Range.indices).foldl (fun s q => s.resetQueue q) s
    s.modCo k (fun c => { c with queues := none })
  | 4 =>
    let s := (c.counters.elim [] Range.indices).foldl (fun s i => s.retireCtr i) s
    s.modCo k (fun c => { c with counters := none })
  | 5 =>
    let s := (c.watches.elim [] Range.indices).foldl (fun s w => (s.disarmWatch w).modWatch w (fun x => { x with company := 0 })) s
    s.modCo k (fun c => { c with watches := none })
  | 6 =>
    let bound := (c.keySlots.elim [] Range.indices).flatMap (fun n => (s.boundTo n).map (fun x => x.1))
    let s := bound.foldl (fun s i => if s.cip.busy i then s.abandonChan i else s) s
    s.modCo k (fun c => { c with keySlots := none })
  | 7 =>
    let s := (c.chans.elim [] Range.indices).foldl (fun s i => if s.cip.busy i then s.abandonChan i else s) s
    s.modCo k (fun c => { c with chans := none })
  | 8 => (if s.cip.sealedMode then s else s.abandonCo k).modCo k (fun c => { c with contexts := 0 })
  | 9 => s.modCo k (fun c => { c with lanes := c.lanes.filter (fun l => l.1 ≠ port) })
  | _ => s.modCo k (fun c => { c with farShare := c.farShare.filter (fun l => l.1 ≠ port) })

/-- CO_DESTROY takes effect: every grant returns; the company's transaction count stays (R389, R404, R405) (DEDUCED, log 60). -/
def State.applyDestroy (s : State) (k : Nat) : State :=
  let s := (s.co k).lanes.foldl (fun s l => s.applyReturn k 9 l.1) s
  let s := (s.co k).farShare.foldl (fun s l => s.applyReturn k 10 l.1) s
  let s := [7, 6, 8, 5, 4, 3, 2, 1].foldl (fun s kind => s.applyReturn k kind 0) s
  s.modCo k (fun c => { txn := { count := c.txn.count, aborted := c.txn.aborted ++ (c.txn.opened.elim [] (fun o => [o.id])) } })

/-- A staged company command takes effect (R405, R409); other commands are never staged into an epoch transaction. -/
def State.applyEpoch (i : Instr) (s : State) : State :=
  match i with
  | .coCreate _ c f => s.applyCreate c.toNat f.toNat
  | .coDestroy _ c => s.applyDestroy c.toNat
  | .coGrant _ c kind first count extra => s.applyGrant c.toNat kind.toNat first.toNat count.toNat extra.toNat
  | .coReturn _ c kind port => s.applyReturn c.toNat kind.toNat port.toNat
  | _ => s

/-- The transaction store's increment after an applied transaction (R395, R407). -/
def State.txnPost (s : State) (k : Nat) (ctr : Option (Nat × BitVec 8)) : State :=
  match ctr with
  | none => s
  | some (i, g) => s.wingsPost k 0 i g 1

/-- Every committed transaction of company `k` that `due` selects is applied, in commit order (R407). -/
def State.applyTxns (s : State) (k : Nat) (due : CommittedTxn → Bool) (apply : Instr → State → State) : State :=
  let ts := (s.co k).txn.committed.filter due
  let s := s.modCo k (fun c => { c with txn := { c.txn with committed := c.txn.committed.filter (fun t => !due t) } })
  ts.foldl (fun s t => (t.staged.foldl (fun s i => apply i s) s).txnPost k t.ctr) s

end Sys2Proof.Machine
end

