-- ==== Sys2Proof/Machine/Stage.lean ====
section
/-!
DEFINITION. A company's stage as a whole: loading and stopping a script (R122 to R125), the start of a step (R117, R127, R128), the cue
barrier (R188, R189), and the curtain sequence (R85, R254 to R264) with what it starts, installs and applies (R95, R228, R267, R277,
R278, R307, R330, R335).
-/

namespace Sys2Proof.Machine

/-! ### Transactions, far run and snapshot stream at a load or a stop -/

/-- Modules of the island: the product of the axis lengths. -/
def Seq.members (q : Seq) : Nat := (q.image.elim [] (fun i => i.axes)).foldl (· * ·) 1

/-- A committed curtain transaction holds a COL_RESHARD. -/
def hasReshard (staged : List Instr) : Bool := staged.any (fun i => match i with
  | .colReshard _ _ _ _ _ _ => true
  | _ => false)

/-- Committed curtain transactions are discarded when the script stops or is reloaded (R408). -/
def State.dropTxns (s : State) (k : Nat) : State :=
  let ts := (s.co k).txn.committed.filter (fun t => t.step.isSome)
  let s := s.modCo k (fun c => { c with txn := { c.txn with
    committed := c.txn.committed.filter (fun t => t.step.isNone), aborted := ts.map (fun t => t.id) ++ c.txn.aborted } })
  let s := if ts.any (fun t => hasReshard t.staged) then s.modCol k (fun c => { c with reshardState := 0 }) else s
  ts.foldl (fun s t => s.log 8 0 1 k 0x0002#16 [(4, k), (32, t.id.toNat), (48, (t.step.getD 0).toNat)]) s

/-- The FAR unit's work on a phase begins: nothing read, nothing handed over (R317, R320, R328). -/
def Far.fresh (f : Far) : Far :=
  { f with taken := 0, finished := 0, own := [], record := none, recordAsked := false, put := false, ownerRecord := none }

/-- The far run ends; FAR_STATUS and FAR_ROUND keep their values (R335, R336) (DEDUCED, log 47). -/
def Far.off (f : Far) : Far :=
  { f.fresh with table := none, lastTable := f.table.or f.lastTable, inRound := false, formDone := false, applied := false,
                 decision := none, prior := none, inStreams := [], outStreams := [], ledgerBuf := [], replayBuf := [], t0 := none }

/-- A client of the cipher engine is the FAR unit of company `k`. -/
def CipClient.isFar (k : Nat) : CipClient → Bool
  | .far j _ _ => decide (j = k)
  | _ => false

/-- The FAR unit of a company drops what it was doing: its messages and its wings accesses. -/
def State.farDrop (s : State) (k : Nat) : State := (s.msgForget (CipClient.isFar k)).wingsDrop (.far k)

/-! ### Loading (R123) -/

/-- A core of the company after a load: memories, registers, windows and tables zero, its part loaded, its counters kept (R123) (DEDUCED, log 35). -/
def Core.loaded (c : Core) (p : PartHdr) (bundles : Table (BitVec 256)) (rmon : Table RmSlot) : Core :=
  { part := bundles, entry := p.entry, addr := p.entry, gated := true, ended := true, rmon := rmon,
    resCount := c.resCount, resArray := c.resArray, resRow := c.resRow, resWindow := c.resWindow, resFlag := c.resFlag, resRows := c.resRows,
    ceCount := c.ceCount, ueCount := c.ueCount, eccBank := c.eccBank, stalls := c.stalls, faultCommits := c.faultCommits,
    tileSpares := c.tileSpares }

/-- The bundles of a part over what its store holds (R126) (DEDUCED, log 35). -/
def State.partOf (s : State) (c : Core) (p : PartHdr) : Table (BitVec 256) :=
  iter p.bundles (fun i t => tset 0 t i (BitVec.ofNat 256 (s.dramNat (p.addr + 32 * i) 32))) c.part

/-- The slots that the map assigns to a unit (R83, R514). -/
def Image.slotsOf (im : Image) (engine : Bool) (index : Nat) : Table RmSlot :=
  (im.rmonSlots.filter (fun r => decide (r.1 = engine) && decide (r.2.1 = index))).foldl (fun t r => tset {} t r.2.2.1 r.2.2.2) []

/-- The curtain unit after a load without an UPDATE section: no bank; what no rule clears stays (R247, R269, R273, R274) (DEDUCED, log 35). -/
def Upd.emptied (x : Upd) : Upd :=
  { verdict := x.verdict, skipsRun := x.skipsRun, lateNonfinite := x.lateNonfinite, substituted := x.substituted }

/-- The curtain unit after a load: COMMITS, DIGEST and power registers from the header of INITIAL_BANK (R242, R246, R269). -/
def State.loadedUpd (s : State) (x : Upd) (u : UpdSection) : Upd :=
  let h := if u.initialBank then u.headerB else u.headerA
  { x.emptied with
    committed := u.initialBank, commits := BitVec.ofNat 64 (s.dramNat h 8), digest := BitVec.ofNat 64 (s.dramNat (h + 0x10) 8),
    powers := iter (4 * u.programs.length) (fun i t => tset 0 t i (BitVec.ofNat 32 (s.dramNat (h + 0x100 + 4 * i) 4))) [],
    consts := (List.range u.programs.length).foldl (fun t n =>
      iter 16 (fun i t => tset 0 t (16 * n + i) (((u.programs[n]?).elim [] (fun p => p.consts)).getD i 0)) t) [] }

/-- COMMITS, STEP_ATTEMPT and POWERS of a received bank header are written into a bank's header, with DIGEST zero and VALID set (R298). -/
def State.writeHeader (s : State) (a : Nat) (header : List Byte) : State :=
  (s.dramWrite a (padTo 16 header ++ List.replicate 8 0 ++ leBytes 4 1)).dramWrite (a + 0x100) (padTo 256 (header.drop 0x100))

/-- Headers that restores have brought for a company without an UPDATE section are written where its image places them (R298)
(DEDUCED, log 53). -/
def State.placeHeaders (s : State) (k : Nat) (u : UpdSection) : State :=
  let mine := s.restore.headers.filter (fun x => decide (x.1 = k))
  let s := { s with restore := { s.restore with headers := s.restore.headers.filter (fun x => decide (x.1 ≠ k)) } }
  mine.foldl (fun s x => s.writeHeader (if x.2.1 then u.headerB else u.headerA) x.2.2) s

/-- A successful load (R123, R86, R283, R336, R408) (DEDUCED, log 35; DEDUCED, log 47). -/
def State.loadImage (s : State) (k : Nat) (im : Image) : State :=
  let s := s.dropTxns k
  let s := (s.abortLoad k).farDrop k
  let s := im.update.elim s (fun u => s.placeHeaders k u)
  let s := iter im.parts.length (fun i s =>
    match im.parts[i]? with
    | none => s
    | some p => match s.relPhys k p.lrow p.lcol with
      | none => s
      | some c => s.modCore c (fun x => x.loaded p (s.partOf x p) (im.slotsOf false (32 * p.lrow + p.lcol)))) s
  let s := (s.engineList k).foldl (fun s e =>
    (s.modEngine e (fun _ => { rmon := im.slotsOf true e })).modFly e (fun _ => {})) s
  let s := { s with mesh := s.mesh.filter (fun m => s.coreCo m.core ≠ k) }
  s.modCo k (fun c => { c with
    seq := { state := .loaded, refusal := c.seq.refusal, overrun := c.seq.overrun, image := some im },
    upd := im.update.elim c.upd.emptied (fun u => s.loadedUpd c.upd u),
    col := { plans := BitVec.ofNat 11 im.plans.length, reshardResult := c.col.reshardResult, chunks := c.col.chunks,
             clippedLines := c.col.clippedLines, clippedChunks := c.col.clippedChunks },
    mon := im.rmon.elim {} (fun r => { syncCtr := BitVec.ofNat 16 r.ctrIndex, depth := BitVec.ofNat 3 r.depthLog2, base := BitVec.ofNat 48 r.base }),
    far := { c.far.off with reloaded := c.far.reloaded || (c.far.table.isSome && !c.far.joined) } })

/-! ### Stopping (R125, R228, R263) -/

/-- Writes that the curtain has posted land (R125, R258). -/
def State.flushPosted (s : State) (k : Nat) : State :=
  let s := (s.co k).upd.posted.foldl (fun s w => s.dramWrite w.addr w.data) s
  s.modUpd k (fun u => { u with posted := [] })

/-- The company's cores are gated; a part that has not reached its PARTEND stands where it is (R128, R261). -/
def State.gateCores (s : State) (k : Nat) : State :=
  (s.coreList k).foldl (fun s p => s.modCore p (fun c => { c with gated := true })) s

/-- What a core had in flight at an immediate stop: every place it was to write holds a free value, and nothing stays in flight (R125) (DESIGN CHOICE, log 46). -/
def Core.spoil (c : Core) : Core :=
  let c := c.landings.foldl (fun (c : Core) l =>
    let (v, c) := c.draw
    match l.eff with
    | .vreg r off bs => c.vwrite r off (leBytes bs.length v.toNat)
    | .tile a bs => c.tileWrite a (leBytes bs.length v.toNat)
    | .tileWords n ws => ws.foldl (fun (c : Core) w => c.tileWrite (256 * n + 4 * w.1) (leBytes 4 (lineBits v (32 * w.1) 32))) c
    | .mset i _ => { c with msets := tset 0 c.msets i (v.setWidth 160) }
    | .cdesc i _ => { c with cdescs := tset 0 c.cdescs i (v.setWidth 128) }
    | .agenDesc _ => { c with agenDesc := v.setWidth 64 }
    | .agenTable bs => { c with agenTable := (List.range bs.length).map (fun i => lineBits v (32 * i) 20) }
    | _ => c) c
  let c := match c.vop with
    | some o => let (v, c) := c.draw; c.tileWrite (256 * o.dst + o.written) (leBytes o.out.length v.toNat)
    | none => c
  let c := c.runs.foldl (fun (c : Core) r =>
    (maskBits r.rowMask).foldl (fun (c : Core) i =>
      (List.range 4).foldl (fun (c : Core) a =>
        (maskBits (r.colMasks.getD a 0)).foldl (fun (c : Core) j =>
          let (v, c) := c.draw
          { c with cells := tmod {} c.cells (cellKey r.win a i j) (fun x =>
            { x with value := v.setWidth _, acc := BitVec.ofNat 32 (lineBits v 96 32) }) }) c) c) c) c
  let c := match c.vld with
    | some (r, _) => let (v, c) := c.draw; c.vwrite r 0 (leBytes 256 v.toNat)
    | none => c
  let c := match c.table with
    | some _ => let (v, c) := c.draw; { c with agenTable := (List.range 16).map (fun i => lineBits v (32 * i) 20) }
    | none => c
  { c with landings := [], runs := [], drains := [], vop := none, mop := none, cop := none, vld := none, table := none, acc := [], waiting := [],
           seen := [], again := [] }

/-- DRAM that the update pass of a company's step writes and no curtain has committed: the other bank and the working copies (R125, R239 to
R241) (DESIGN CHOICE, log 46). -/
def State.passRegions (s : State) (k : Nat) : List (Nat × Nat) :=
  let c := s.co k
  match c.seq.image.bind (fun i => i.update) with
  | none => []
  | some u =>
    if c.seq.curtainActed = false ∧ c.seq.phase = .step ∧ (c.seq.state = .running ∨ c.seq.state = .held) then
      u.shards.flatMap (fun sh => bankRange (!c.upd.committed) sh ::
        (if sh.nocopy then [] else
          [(sh.copy, copyBytes ((u.programs[sh.program]?).elim 0 (fun p => bits p.cast 54 52)) sh.elements)]))
    else []

/-- DRAM lines that the fly commands of KIND 0x02 write which have begun in this step (R125, R147) (DESIGN CHOICE, log 46). -/
def State.flyRegions (s : State) (k : Nat) : List (Nat × Nat) :=
  (s.engineList k).flatMap (fun e =>
    let cmds := ((s.co k).seq.image.bind (fun i => i.fly.find? (fun p => p.engine = e))).elim [] (fun p => p.cmds)
    ((s.fly e).active.toList ++ cmds.take (s.fly e).next).flatMap (fun c =>
      if c.kind = 2 then (List.range c.count).map (fun i => (c.dram + 256 * c.stride * i, 256)) else []))

/-- DRAM lines that collective chunks deliver to which have begun in this step (R125, R209) (DESIGN CHOICE, log 46). -/
def State.chunkRegions (s : State) (k : Nat) : List (Nat × Nat) :=
  let c := s.co k
  (c.seq.image.elim [] (fun i => i.plans)).flatMap (fun p =>
    (p.chunks.take (tget 0 c.col.next p.id)).flatMap (fun x => if x.dstKind = 2 then [(nbits x.dst 47 0, 256 * (x.lines + b2n x.tail))] else []))

/-- The DRAM state that a company's step in progress was writing (R125) (DESIGN CHOICE, log 46). -/
def State.stepRegions (s : State) (k : Nat) : List (Nat × Nat) := s.passRegions k ++ s.flyRegions k ++ s.chunkRegions k

/-- `n` bytes of DRAM at `a` take free values (DESIGN CHOICE, log 46). -/
def State.freeBytes (s : State) (a n : Nat) : State :=
  iter (cdiv n 256) (fun i s => let (v, s) := s.draw; s.dramWrite (a + 256 * i) (leBytes (min 256 (n - 256 * i)) v.toNat)) s

/-- A step stopped in the middle: the state it was writing is undefined, and takes free values (R125) (DESIGN CHOICE, log 46). -/
def State.undoStep (s : State) (k : Nat) : State :=
  let s := (s.stepRegions k).foldl (fun s r => s.freeBytes r.1 r.2) s
  (s.coreList k).foldl (fun s p => s.onCore p Core.spoil) s

/-- The controllers of a stopped stage keep no row open. -/
def State.closeRows (s : State) (k : Nat) : State := (s.chanList k).foldl (fun s c => s.modChan c (fun x => { x with rows := [], reopen := [] })) s

/-- The stage stops at once: posted header and digest-vector writes complete, and committed curtain transactions are discarded (R125,
R408). -/
def State.haltScript (s : State) (k : Nat) : State :=
  let s := ((s.flushPosted k).gateCores k).dropTxns k
  let ns := if (s.co k).seq.held then s.nowNs - (s.co k).seq.heldSince else 0
  let s := (s.stopChannels k).closeRows k
  let s := s.modCol k (fun c => { c with active := [], reshard := none, reshardState := 0, forEngine := [], writes := [], tail := none })
  let s := (s.engineList k).foldl (fun s e => s.modEngine e (fun x => { rmon := x.rmon })) s
  let s := (List.range 8).foldl (fun s p => s.modPort p (fun x => { x with
    txq := x.txq.filter (fun l => l.company ≠ k), recv := x.recv.filter (fun l => l.company ≠ k) })) s
  s.modCo k (fun c => { c with
    seq := { c.seq with state := .stopped, held := false, holdNs := c.seq.holdNs + BitVec.ofNat 64 ns, waiting := false, stopArmed := false,
                        starting := false, releases := [] },
    mon := { c.mon with pending := [] } })

/-! ### Steps (R117, R127, R128, R190) -/

/-- Ports that a company uses and that are not ACTIVE (R190) (DEDUCED, log 37). -/
def State.deadPorts (s : State) (k : Nat) : List Nat :=
  (List.range 8).filter (fun p =>
    (s.co k).onPort p && decide ((s.port p).state ≠ .active) && decide (2 ≤ (s.co k).seq.axisLen (p / 2)))

/-- While the company's stage runs in a step, and not in a hold, each port that it uses and that is not ACTIVE counts one fault of the step
(R190) (DEDUCED, log 37). -/
def State.countDead (s : State) (k : Nat) : State :=
  let q := (s.co k).seq
  if q.state = .running ∧ (q.phase = .step ∨ q.phase = .reshardWait) then
    let new := (s.deadPorts k).filter (fun p => !q.deadPorts.contains p)
    if new.isEmpty then s else (s.addFaults k new.length).modSeq k (fun q => { q with deadPorts := new ++ q.deadPorts })
  else s

/-- A core at the start of a step: it issues from ENTRY; a part that has not ended overruns (R127, R128). -/
def State.startCore (s : State) (k p : Nat) : State :=
  let c := s.core p
  let s := s.modCore p (fun c => { c with
    gated := false, ended := false, ending := false, issued := 0, line := none, addr := c.entry, loops := [], reservedLogged := false })
  if c.ended then s
  else
    let s := s.log 0 p 2 k 0x0B03#16 [(12, c.addr), (48, (s.co k).seq.step.toNat)]
    (s.addFaults k 1).modSeq k (fun q => { q with overrun := true })

/-- An engine at the start of a step or a recast phase: it treats its shards from the first; what is on its way to DRAM goes on (R252, R261). -/
def Engine.fresh (x : Engine) : Engine :=
  { x with shard := 0, started := false, linesTaken := 0, recast := false, startAt := 0, units := [] }

/-- The step in which LAND is due begins on a module that is no gateway: PHASE shows it (R318, R339). -/
def State.landPhase (s : State) (k : Nat) : State :=
  s.modFar k (fun f =>
    if f.inRound ∧ f.gateway = false ∧ f.phase = .exchange ∧ f.table.elim false (fun t => decide ((s.co k).seq.step.toNat = f.s0 + t.land)) then
      { f with phase := .landing }
    else f)

/-- The first stage cycle of a step (R117, R127, R252). The step counter already holds its number. -/
def State.beginStep (s : State) (k : Nat) : State :=
  let s := s.modSeq k (fun q => { q with phase := .step, stepCycle := 0, nextHold := 0, clipped := [], codeLogged := [], curtainActed := false,
                                         phaseCycle := 0, deadPorts := [], stepBank := (s.co k).upd.committed })
  let s := s.modUpd k (fun u => { u with passDigest := 0, placedNonfinite := 0, placedFaults := 0, restored := false })
  let s := s.modCol k (fun c => { c with next := [] })
  let s := (s.engineList k).foldl (fun s e =>
    (s.modEngine e Engine.fresh).modFly e (fun f => { f with next := 0 })) s
  let s := (s.coreList k).foldl (fun s p => s.startCore k p) s
  (s.countDead k).landPhase k

/-- A recast phase is due: it waits for RECAST_PHASE_START with its cores gated; with RECAST_CYCLES 0 none runs (R261). -/
def State.nextPhase (s : State) (k : Nat) : State :=
  let due := (s.co k).upd.recastArmed && ((s.co k).seq.image.bind (fun i => i.update)).elim false (fun u => decide (0 < u.recastCycles))
  if due then (s.gateCores k).modSeq k (fun q => { q with phase := .recast, stepCycle := 0, phaseCycle := 0 })
  else (s.modUpd k (fun u => { u with recastArmed := false })).beginStep k

/-! ### The cue barrier (R188, R189) -/

/-- Low 32 bits of the number of boundary E. -/
def Seq.marker (q : Seq) (e : Nat) : Word := BitVec.ofNat 32 (q.startEpoch.toNat + e)

/-- Every marker of boundary `e` that the barrier waits for is held (DEDUCED, log 38). -/
def State.markersHeld (s : State) (k e : Nat) : Bool :=
  (s.co k).seq.waitPorts.all (fun p => (s.port p).markers.contains (k, (s.co k).seq.marker e))

/-- The re-shard phase starts with the plan's chunks in step order (R228) (DEDUCED, log 39). -/
def State.reshardPhase (s : State) (k : Nat) : State :=
  let s := s.gateCores k
  let s := s.modSeq k (fun q => { q with phase := .reshard, phaseCycle := 0 })
  s.modCol k (fun c => { c with reshardState := 2, next := [], got := [] })

/-- Boundary `e` has been passed: its markers are spent; epoch transactions apply; the operating point may change; a script begins; a
re-shard phase starts (R160, R188, R190, R228, R405). -/
def State.passBoundary (s : State) (k e : Nat) : State :=
  let mk := (s.co k).seq.marker e
  let s := (List.range 8).foldl (fun s p => s.modPort p (fun x => { x with markers := x.markers.filter (fun m => m ≠ (k, mk)) })) s
  let n := (s.co k).seq.startEpoch.toNat + e
  let s := s.modCo k (fun c => { c with tor := { c.tor with epoch := BitVec.ofNat 64 n }, seq := { c.seq with waiting := false, waitPorts := [] } })
  let s := s.applyTxns k (fun t => t.step.isNone) State.applyEpoch
  let s := s.pacerBoundary k n
  let s := if (s.co k).seq.starting then (s.modSeq k (fun q => { q with starting := false })).nextPhase k else s
  if (s.co k).seq.phase = .reshardWait then s.reshardPhase k else s

/-- The stage reaches boundary `e` (R188) (DEDUCED, log 38). -/
def State.reachBoundary (s : State) (k e : Nat) : State :=
  let ps := s.activePorts k
  let s := s.modSeq k (fun q => { q with epochs := e, waitPorts := ps, marked := [] })
  if s.markersHeld k e then s.passBoundary k e else (s.stopChannels k).modSeq k (fun q => { q with waiting := true })

/-- The MARKER of the company's next boundary leaves on a port: boundary 0 while its script is armed (R188). -/
def State.sendMarker (s : State) (k p : Nat) : State :=
  let q := (s.co k).seq
  let e := if q.state = .armed then 0 else q.epochs + 1
  (s.modSeq k (fun q => { q with marked := p :: q.marked })).send p (.marker k (q.marker e))

/-- An armed script reaches stage cycle 0, which is its boundary 0 (R117, R124, R188, R261). -/
def State.startScript (s : State) (k : Nat) : State :=
  let s := (s.chanList k).foldl (fun s c => s.modChan c (fun x => { waiting := x.waiting })) s
  let s := (s.unmarked k).foldl (fun s p => s.sendMarker k p) s
  let s := (List.range 8).foldl (fun s p => s.modPort p (fun x => { x with sentAt := tset 0 x.sentAt k 0 })) s
  let s := s.modCo k (fun c => { c with
    seq := { c.seq with state := .running, stageCycle := 0, step := c.seq.startStep, stepCycle := 0, starting := true, stepped := false, holdNs := 0,
                        met := false, held := false, releases := [], marked := [] },
    tor := { c.tor with barrierNs := 0 },
    col := { c.col with chunks := 0 },
    upd := { c.upd with recastArmed := true } })
  s.reachBoundary k 0

/-! ### Staged curtain commands take effect (R95, R228, R267, R277, R335) -/

/-- RMON_SET_SCALE (R94, R95). -/
def State.applyScale (s : State) (k : Nat) (unit : Bool) (index slot : Nat) (v : BitVec 8) : State :=
  if unit then s.modEngine index (fun e => { e with rmon := tmod {} e.rmon slot (fun r => { r with scaleExp := v }) })
  else
    let p := if k = 0 then s.physOf (index / 32) (index % 32) else s.relPhys k (index / 32) (index % 32)
    match p with
    | none => s
    | some p => s.modCore p (fun c => { c with rmon := tmod {} c.rmon slot (fun r => { r with scaleExp := v }) })

/-- What the reader of a plan outside a load needs. -/
def State.loadCtx (s : State) (k : Nat) : LoadCtx :=
  let im := (s.co k).seq.image
  { company := k, rows := im.elim 0 (fun i => i.rows), cols := im.elim 0 (fun i => i.cols), axes := im.elim [] (fun i => i.axes),
    stepCycles := im.elim 0 (fun i => i.stepCycles) }

/-- COL_RESHARD at its curtain: on a commit the phase is due at the next epoch boundary, on a skip the re-shard is not run (R228) (DEDUCED, log 39; DEDUCED, log 40). -/
def State.applyReshard (s : State) (k : Nat) (addr len epochs ctr : Nat) (gen : BitVec 8) (commit : Bool) : State :=
  if commit then
    let plans := (readPlans s (s.loadCtx k) true { base := addr, len := len }).getD []
    (s.modCol k (fun c => { c with reshard := some (plans, epochs, ctr, gen), reshardState := 1 })).modSeq k (fun q =>
      { q with phase := .reshardWait })
  else
    (s.modCol k (fun c => { c with reshardState := 0, reshardResult := 2 })).stagePost k ctr gen 1

/-- PAK_SNAP_SET (R276, R277) (DEDUCED, log 40). -/
def State.applySnap (s : State) (k : Nat) (enable : Bool) (every list : Nat) (dest : BitVec 2) (queue : Nat) (gen : BitVec 8)
    (cipher : BitVec 9) (pack : Bool) (width : BitVec 2) : State :=
  let l := s.readBankList k list
  s.modPak k (fun p => { p with enable := enable, every := every, list := l, dest := dest, queue := queue,
                                queueGen := gen, cipher := cipher, pack := pack, width := width })

/-- FAR_RUN (R335, R336): after a load a run starts with RESYNC set, unless FAR_JOIN has come since; a run that has joined goes on from its
current copy and its last installed round (R331) (DEDUCED, log 40; DEDUCED, log 58). -/
def State.applyFar (s : State) (k addr len : Nat) (enable : Bool) : State :=
  if enable then
    match readRoundTable s k addr len with
    | none => s
    | some (t, _) => (s.farDrop k).modFar k (fun f => { f.off with
        table := some t, lastTable := some t, enabled := true, phase := .idle, site := BitVec.ofNat 4 t.site,
        leader := BitVec.ofNat 4 t.leader, gateway := decide (t.gatewayIndex ≠ 0xFFFF), resync := !f.joined && (f.resync || f.reloaded),
        replay := t.replay, policy := t.carry, copy := f.joined && f.copy, round := if f.joined then f.round else 0,
        installed := if f.joined then f.installed else 0, reloaded := false, joined := false, badLoggedNs := none })
  else (s.farDrop k).modFar k (fun f => { f.off with enabled := false, phase := .idle })

/-- A staged curtain command takes effect at step 5 (R258); `commit` is the curtain's verdict. -/
def State.applyCurtain (k : Nat) (commit : Bool) (i : Instr) (s : State) : State :=
  match i with
  | .rmonSetScale _ u ix sl v => s.applyScale k u ix.toNat sl.toNat v
  | .updSetConst _ p ix v => s.modUpd k (fun x => { x with consts := tset 0 x.consts (16 * p.toNat + ix.toNat) v })
  | .colReshard _ a n e c g => s.applyReshard k a.toNat n.toNat e.toNat c.toNat g commit
  | .pakSnapSet _ en ev l d q g c p w => s.applySnap k en ev.toNat l.toNat d q.toNat g c p w
  | .farRun _ a n en => s.applyFar k a.toNat n.toNat en
  | _ => s

/-! ### The curtain (R85, R86, R254 to R264) -/

/-- A report record (R87): an unassigned slot's is zero but for SLOT, STEP and ATTEMPT. -/
def reportRecord (r : RmSlot) (slot step attempt : Nat) : List Byte :=
  let r := if r.format = 0 then {} else r
  leBytes 32 (packBits [(48, r.total.toNat), (48, r.above.toNat), (48, r.below.toNat), (8, r.scaleExp.toNat), (8, r.format.toNat),
    (16, attempt), (48, step), (8, slot), (24, r.tensor.toNat)])

def RmSlot.clear (r : RmSlot) : RmSlot := { r with total := 0, above := 0, below := 0 }

/-- Every slot of a table cleared. -/
def clearSlots (t : Table RmSlot) : Table RmSlot := t.foldl (fun u x => tset {} u x.1 x.2.clear) []

/-- The company's report of a step (R86). -/
def State.reportBytes (s : State) (k : Nat) : List Byte :=
  let q := (s.co k).seq
  let recs := fun (n : Nat) (t : Table RmSlot) =>
    (List.range n).flatMap (fun i => reportRecord (tget {} t i) i q.step.toNat q.attempt.toNat)
  (s.coreList k).flatMap (fun p => recs 64 (s.core p).rmon) ++ (s.engineList k).flatMap (fun e => recs 16 (s.engine e).rmon)

/-- Step 1: the counters are copied to the report, where the map declares one, and cleared (R85, R86). -/
def State.copyCounts (s : State) (k : Nat) (im : Image) : State :=
  let q := (s.co k).seq
  let s := match im.rmon with
    | none => s
    | some _ =>
      let bs := s.reportBytes k
      s.modCo k (fun c => { c with mon := { c.mon with pending := c.mon.pending ++ [(q.step.toNat, q.attempt.toNat, bs)] } })
  let s := (s.coreList k).foldl (fun s p => s.modCore p (fun c => { c with rmon := clearSlots c.rmon })) s
  (s.engineList k).foldl (fun s e => s.modEngine e (fun x => { x with rmon := clearSlots x.rmon })) s

/-- The first pair of D coordinates whose digests must be equal and differ, or an entry at or above AXIS_D that is not zero (R257). -/
def digestDiffers (axisD shards : Nat) (e : Nat → Nat) : Option (Nat × Nat) :=
  let pairs := (List.range axisD).flatMap (fun d => (List.range axisD).filterMap (fun d' =>
    if d < d' ∧ d % shards = d' % shards ∧ e d ≠ e d' then some (d, d') else none))
  let high := (List.range 64).filterMap (fun d => if axisD ≤ d ∧ e d ≠ 0 then some (d, d) else none)
  (pairs ++ high).head?

/-- Step 2: the due comparison of replica digests (R257). -/
def State.compareDigests (s : State) (k : Nat) (u : UpdSection) : State :=
  let c := s.co k
  if c.upd.digestDue then
    let s := s.modUpd k (fun x => { x with digestDue := false })
    match digestDiffers (c.seq.axisLen 3) u.digestShards (fun d => s.dramNat (u.digestDst + 8 * d) 8) with
    | none => s
    | some (d, d') =>
      (s.modUpd k (fun x => { x with diverged := true })).log 1 k 3 k 0x0A03#16 [(64, c.upd.commits.toNat), (6, d), (6, d')]
  else s

/-- Entries 0 to 4 of a curtain tail give a COMMIT (R259). -/
def tailCommits (members : Nat) (tail : List DWord) : Bool :=
  decide (tail.getD 0 0 = 0) && decide (tail.getD 1 0 = 0) && decide (tail.getD 2 0 = 0) && decide ((tail.getD 3 0).toNat = members) &&
    decide (tail.getD 4 0 = 0)

/-- Shards that an engine treats, in table order. -/
def UpdSection.shardsOf (u : UpdSection) (e : Nat) : List Shard := u.shards.filter (fun sh => sh.engine = e)

/-- Every update-pass write of the step has been made (R263, R299). -/
def State.passComplete (s : State) (k : Nat) (u : UpdSection) : Bool :=
  (s.co k).upd.restored || (s.engineList k).all (fun e =>
    (s.engine e).pipe.isEmpty && (s.engine e).writes.isEmpty && decide ((s.engine e).shard = (u.shardsOf e).length))

/-- Why a curtain is incomplete: 0 no tail, 1 pass pending, 2 late fault (R263) (DEDUCED, log 41). -/
def State.incompleteCause (s : State) (k : Nat) (u : UpdSection) : Option Nat :=
  let x := (s.co k).upd
  if x.tailSeen = false then some 0
  else if s.passComplete k u = false then some 1
  else if x.placedFaults.toNat < x.faults.toNat then some 2
  else none

/-- The largest finite FP32 value in place of an infinity (R251) (DESIGN CHOICE, log 17). -/
def finiteOf (w : Word) : Word := if w = f32inf then f32big else if w = f32ninf then f32big ||| 0x80000000#32 else w

/-- The 512-byte header of a committed bank (R242). -/
def bankHeader (x : Upd) (step : BitVec 48) (attempt : BitVec 16) (digest : DWord) : List Byte :=
  leBytes 8 x.commits.toNat ++ leBytes 8 (step.toNat + 2 ^ 48 * attempt.toNat) ++ leBytes 8 digest.toNat ++ leBytes 4 1 ++
    List.replicate 228 0 ++ (List.range 64).flatMap (fun i => leBytes 4 (tget 0 x.powers i).toNat)

/-- The digest vector: entry d holds the digest, every other entry zero (R257). -/
def digestVector (d : Nat) (digest : DWord) : List Byte :=
  List.replicate (8 * d) 0 ++ leBytes 8 digest.toNat ++ List.replicate (65536 - 8 * d - 8) 0

/-- The COMMIT branch of step 4 (R257, R258, R262): the bank flips, COMMITS and the power registers advance, and the header and the digest
vector are posted (DESIGN CHOICE, log 17). -/
def State.commitBank (s : State) (k : Nat) (u : UpdSection) (digest : DWord) : State :=
  let q := (s.co k).seq
  let d := s.coordOn 3
  s.modUpd k (fun x =>
    let y : Upd := { x with
      committed := !x.committed, commits := x.commits + 1, digest := digest, verdict := .commit, skipsRun := 0,
      powers := (List.range u.programs.length).foldl (fun t n => iter 4 (fun j t =>
        tmod 0 t (4 * n + j) (fun b => finiteOf (fmul b (tget 0 x.consts (16 * n + 12 + j))))) t) x.powers }
    let due := decide (u.digestEvery ≠ 0) && decide (y.commits.toNat % u.digestEvery = 0)
    { y with
      digestDue := due,
      posted := y.posted ++ [{ addr := if y.committed then u.headerB else u.headerA, data := bankHeader y q.step q.attempt digest }] ++
        (if due then [{ addr := u.digestSrc, data := digestVector d digest }] else []) })

/-- The SKIP branch of step 4 (R247, R258). -/
def State.skipStep (s : State) (k : Nat) : State :=
  let q := (s.co k).seq
  let x := (s.co k).upd
  let s := s.log 1 k 1 k 0x0A01#16 ((List.range 5).map (fun i => (8, (x.tail.getD i 0).toNat)) ++ [(48, q.step.toNat), (16, q.attempt.toNat)])
  (s.modSeq k (fun q => { q with attempt := q.attempt + 1 })).modUpd k (fun x =>
    { x with verdict := .skip, recastArmed := true, skipsRun := satAdd x.skipsRun 1, skipsTotal := x.skipsTotal + 1 })

/-- Non-finite counts that arose after the tail was read (R264) (DEDUCED, log 42). -/
def State.lateCount (s : State) (k : Nat) : State :=
  let x := (s.co k).upd
  let n := x.nonfinite.toNat - x.placedNonfinite.toNat
  if n = 0 then s
  else (s.modUpd k (fun x => { x with lateNonfinite := x.lateNonfinite + BitVec.ofNat 32 n })).log 1 k 1 k 0x0A04#16
    [(32, n), (48, (s.co k).seq.step.toNat)]

/-- A committing curtain installs a round whose step is due (R330). -/
def State.installRound (s : State) (k : Nat) : State :=
  let f := (s.co k).far
  match f.table with
  | none => s
  | some t =>
    if f.inRound ∧ f.applied ∧ f.s0 + t.land + 2 ≤ (s.co k).seq.step.toNat then
      s.modFar k (fun f => { f with copy := !f.copy, inRound := false, applied := false, installed := f.round.toNat, phase := .idle,
                                    prior := f.decision, decision := none })
    else s

/-- A round curtain starts its round, or defers it: an earlier round in progress, RESYNC, or no run where the company has had one (R307,
R337) (DEDUCED, log 47). -/
def State.startRound (s : State) (k : Nat) : State :=
  let c := s.co k
  let f := c.far
  let n := c.upd.commits.toNat
  match f.lastTable with
  | none => s
  | some t =>
    if t.commitsBase < n ∧ (n - t.commitsBase) % t.h = 0 then
      let r := t.roundBase + (n - t.commitsBase) / t.h
      let cause := if f.table.isNone then some 2 else if f.inRound then some 0 else if f.resync then some 1 else none
      match cause with
      | none =>
        s.modFar k (fun f => { f.fresh with
          inRound := true, round := BitVec.ofNat 40 r, phase := .form, s0 := c.seq.step.toNat, a0 := c.seq.attempt.toNat, c0 := c.upd.commits,
          formDone := false, applied := false, votes := [], tagFails := 0, decision := none, t0 := none })
      | some x => (s.modFar k (fun f => { f with deferred := true })).log 5 0 1 k 0x0701#16 [(40, r), (2, x)]
    else s

/-- A committing curtain starts a snapshot stream when EVERY divides the new COMMITS (R278). -/
def State.startSnapshot (s : State) (k : Nat) : State :=
  let c := s.co k
  match c.pak.list with
  | none => s
  | some l =>
    if c.pak.enable ∧ c.upd.commits.toNat % c.pak.every = 0 then
      s.streamStart k c.upd.committed (bankHeader c.upd c.seq.step c.seq.attempt c.upd.digest) l
    else s

/-- Steps 5 to 7 (R258): transactions that name this curtain apply, the counts clear, and the curtain's post is due. -/
def State.curtainEnd (s : State) (k : Nat) (commit post : Bool) : State :=
  let step := (s.co k).seq.step
  let s := s.applyTxns k (fun t => t.step = some step) (State.applyCurtain k commit)
  s.modUpd k (fun x => { x with nonfinite := 0, faults := 0, tailSeen := false, curtainPostDue := post })

/-- The curtain acts at its cycle (R258, R259, R263; without an UPDATE section R247) (DEDUCED, log 41). -/
def State.curtainAct (s : State) (k : Nat) : State :=
  match (s.co k).seq.image with
  | none => s
  | some im =>
    let s := (s.modSeq k (fun q => { q with curtainActed := true })).copyCounts k im
    match im.update with
    | none =>
      let commit := decide ((s.co k).upd.nonfinite = 0) && decide ((s.co k).upd.faults = 0)
      let s := if commit then s.modUpd k (fun x => { x with verdict := .commit, skipsRun := 0 }) else s.skipStep k
      s.curtainEnd k commit false
    | some u =>
      let s := s.compareDigests k u
      match s.incompleteCause k u with
      | some cause =>
        let s := s.log 1 k 3 k 0x0A02#16 [(2, cause), (48, (s.co k).seq.step.toNat)]
        (s.modUpd k (fun x => { x with verdict := .incomplete })).haltScript k
      | none =>
        let s := s.lateCount k
        let commit := tailCommits (s.co k).seq.members (s.co k).upd.tail
        let s := if commit then
            (((s.commitBank k u (s.co k).upd.passDigest).installRound k).startRound k).startSnapshot k
          else s.skipStep k
        s.curtainEnd k commit true

end Sys2Proof.Machine
end

