-- ==== Sys2Proof/Machine/ScriptControl.lean ====
section
/-!
DEFINITION. The script commands and the stage events of a company: loading, starting and stopping (R121 to R125), RMON_SET_SCALE (R94),
step and epoch boundaries (R117, R127, R188), markers, holds (R155 to R161), the curtain's posts and reports (R86, R258).
-/

namespace Sys2Proof.Machine

/-- A company event: a company above 15 is a fault of the model (DESIGN CHOICE, log 12; DESIGN CHOICE, log 20). -/
def onCompany (k : Nat) (s : State) (f : State → State) : Host.Outcome State Fault Refusal :=
  if k < 16 then .next (f s) else .fault (.noSuchUnit k)

/-! ### SCRIPT_LOAD, SCRIPT_START, SCRIPT_STOP -/

/-- The checks and effect of a load (R122, R123). -/
def loadBody (addr len : Nat) (s : State) (k : Nat) : Answer :=
  match checkImage s k addr len with
  | .error (reason, status) =>
    { state := (s.modSeq k (fun q => { q with refusal := reason })).log 1 k 1 k 0x0B01#16 [(8, reason.toNat), (4, k)],
      status := status, detail := reason }
  | .ok im => { state := s.loadImage k im }

/-- SCRIPT_LOAD (R122, R123). -/
def execScriptLoad (h : Pkt) (addr : BitVec 48) (length : DWord) (s : State) : Host.Outcome State Fault Refusal :=
  .next (s.serve h 0x0B01#16 [(48, addr.toNat), (64, length.toNat)] false .never (loadBody addr.toNat length.toNat))

/-- The checks and effect of a start (R124). -/
def startBody (epoch : DWord) (startStep : BitVec 48) (startAttempt : BitVec 16) (s : State) (k : Nat) : Answer :=
  let q := (s.co k).seq.state
  if q = .armed ∨ q = .running ∨ q = .held then { state := s, status := stLocked }
  else if q ≠ .loaded ∨ epoch.toNat ≤ s.tor.houseEpoch.toNat then { state := s, status := stBadArg }
  else { state := s.modSeq k (fun q => { q with
    state := .armed, startEpoch := epoch, startStep := startStep, step := startStep, attempt := startAttempt }) }

/-- SCRIPT_START (R124). -/
def execScriptStart (h : Pkt) (epoch : DWord) (startStep : BitVec 48) (startAttempt : BitVec 16) (s : State) :
    Host.Outcome State Fault Refusal :=
  .next (s.serve h 0x0B02#16 [(64, epoch.toNat), (48, startStep.toNat), (16, startAttempt.toNat)] false .never (startBody epoch startStep startAttempt))

/-- The effect of a stop; where no script is armed, running or held nothing changes. A stop with IMMEDIATE clear on an armed script takes
effect at the end of its first step (R125) (DEDUCED, log 18; DESIGN CHOICE, log 46). -/
def stopBody (immediate : Bool) (s : State) (k : Nat) : Answer :=
  let q := (s.co k).seq.state
  if q = .armed ∨ q = .running ∨ q = .held then
    { state := if immediate then (s.undoStep k).haltScript k else s.modSeq k (fun q => { q with stopArmed := true }) }
  else { state := s }

/-- SCRIPT_STOP (R125). -/
def execScriptStop (h : Pkt) (immediate : Bool) (s : State) : Host.Outcome State Fault Refusal :=
  .next (s.serve h 0x0B03#16 [(1, b2n immediate)] false .never (stopBody immediate))

/-- The checks of RMON_SET_SCALE in the order of R94 (DEDUCED, log 87). -/
def scaleCheck (unit : Bool) (index : BitVec 10) (slot : BitVec 6) (scaleExp : BitVec 8) (s : State) (k : Nat) : Option (Byte × Nat) :=
  if scaleExp.toInt < -64 ∨ 63 < scaleExp.toInt ∨ (unit = true ∧ 16 ≤ slot.toNat) then some (stBadArg, 0)
  else
    let row := index.toNat / 32
    let col := index.toNat % 32
    let named := if unit then decide (index.toNat < 48)
      else if k = 0 then decide (row < s.grid) else (s.co k).rect.elim false (fun r => decide (row < r.rows) && decide (col < r.cols))
    if !named then some (stBadArg, 0)
    else if unit = true ∧ k ≠ 0 ∧ (s.co k).quarters.getLsbD index.toNat = false then some (stDenied, 0)
    else none

/-- RMON_SET_SCALE (R94, R95). -/
def execRmonSetScale (h : Pkt) (unit : Bool) (index : BitVec 10) (slot : BitVec 6) (scaleExp : BitVec 8) (s : State) :
    Host.Outcome State Fault Refusal :=
  .next (s.serve h 0x0C01#16 [(1, b2n unit), (10, index.toNat), (6, slot.toNat), (8, scaleExp.toNat)] false .curtain
    (stageOr h (.rmonSetScale h unit index slot scaleExp) (scaleCheck unit index slot scaleExp)
      (fun s k => s.applyScale k unit index.toNat slot.toNat scaleExp)))

/-! ### Steps and epochs -/

/-- The step ends, and what follows begins (R117, R125, R228, R261) (DEDUCED, log 39; DEDUCED, log 84). -/
def State.endStep (s : State) (k : Nat) : State :=
  let q := (s.co k).seq
  if q.stopArmed then s.haltScript k
  else match q.phase with
    | .recast => s.beginStep k
    | .step => (s.modSeq k (fun q => { q with step := q.step + 1, curtainActed := false, stepped := true })).nextPhase k
    | _ => (s.modSeq k (fun q => { q with stepped := true })).gateCores k

/-- Company `k` reaches its next step boundary. Nothing happens where the stage does not advance, or where an epoch boundary or a hold of
this step comes first: every entry is taken in every step (R155). -/
def State.stepBoundary (s : State) (k : Nat) : State :=
  let q := (s.co k).seq
  match q.cyclesLeft (s.co k).upd.recastArmed with
  | none => s
  | some n =>
    if q.advancing && decide (n ≤ q.cyclesToEpoch) && q.cyclesToHold.isNone then (s.stageBy k n).elim s (fun t => t.endStep k) else s

/-- STEP_BOUNDARY (R117, R127). -/
def execStepBoundary (company : Nat) (s : State) : Host.Outcome State Fault Refusal := onCompany company s (fun s => s.stepBoundary company)

/-- Company `k` reaches its next epoch boundary. Nothing happens where the stage does not advance, or where a step boundary or a hold comes
first; a hold that falls on the boundary comes after it (R160). -/
def State.epochBoundary (s : State) (k : Nat) : State :=
  let q := (s.co k).seq
  let n := q.cyclesToEpoch
  let first := fun (m : Option Nat) => m.elim true (fun m => decide (n ≤ m))
  if q.advancing && first (q.cyclesLeft (s.co k).upd.recastArmed) && first q.cyclesToHold then
    (s.stageBy k n).elim s (fun t => t.reachBoundary k (q.epochs + 1))
  else s

/-- EPOCH_BOUNDARY (R188). -/
def execEpochBoundary (company : Nat) (s : State) : Host.Outcome State Fault Refusal :=
  onCompany company s (fun s => s.epochBoundary company)

/-- The barrier wait ends once every marker is held; `waitNs` is its wall time. The scheduled controllers go on where they stood (R188, R189)
(DESIGN CHOICE, log 88). -/
def State.barrierResume (s : State) (k waitNs : Nat) : State :=
  let q := (s.co k).seq
  if q.waiting && s.markersHeld k q.epochs then
    ((s.resumeChannels k waitNs).modCo k (fun c => { c with tor := { c.tor with barrierNs := c.tor.barrierNs + BitVec.ofNat 64 waitNs } })).passBoundary k q.epochs
  else s

/-- BARRIER_RESUME (R189). -/
def execBarrierResume (company waitNs : Nat) (s : State) : Host.Outcome State Fault Refusal :=
  onCompany company s (fun s => s.barrierResume company waitNs)

/-- The MARKER of the next boundary E leaves on a port where the company holds lanes, once, at stage cycle 65,536E − lead: boundary 0 while
the script is armed (R188). -/
def State.markerSend (s : State) (k p : Nat) : State :=
  let q := (s.co k).seq
  if !(s.unmarked k).contains p then s
  else if q.state = .armed then s.sendMarker k p
  else (s.stageFrom k (65536 * (q.epochs + 1) - s.lead p)).elim s (fun t => t.sendMarker k p)

/-- MARKER_SEND (R188). -/
def execMarkerSend (company : Nat) (port : BitVec 3) (s : State) : Host.Outcome State Fault Refusal :=
  onCompany company s (fun s => s.markerSend company port.toNat)

/-- A MARKER arrives on the company's sub-link and is held (R188). -/
def State.markerReceive (s : State) (k p : Nat) (epoch : Word) : State :=
  if (s.activePorts k).contains p then
    s.modPort p (fun x => if x.markers.contains (k, epoch) then x else { x with markers := x.markers ++ [(k, epoch)] })
  else s

/-- MARKER_RECEIVE (R188). -/
def execMarkerReceive (company : Nat) (port : BitVec 3) (epoch : Word) (s : State) : Host.Outcome State Fault Refusal :=
  onCompany company s (fun s => s.markerReceive company port.toNat epoch)

/-! ### Holds -/

/-- Each controller of the company stops, precharges every open bank, and keeps which rows were open (R157). -/
def State.prechargeAll (s : State) (k : Nat) : State :=
  (s.chanList k).foldl (fun s c => s.modChan c (fun x => { x with reopen := x.rows, rows := [] })) (s.stopChannels k)

/-- The first of `fuel` slots from `slot` that the controller of channel `c` has for a stage command. -/
def reopenSlot (taken : Nat → Bool) : Nat → Nat → Nat
  | 0, slot => slot
  | fuel + 1, slot => if taken slot then reopenSlot taken fuel (slot + 1) else slot

/-- The rows of one channel reopen in ascending bank order, each with an activate in the first stage slot that is free for its bank
(R151, R157). `taken` says which slots are wings or refresh slots (DESIGN CHOICE, log 36). -/
def Channel.reopened (x : Channel) (taken : Nat → Bool) : Channel :=
  x.reopen.foldl (fun (x : Channel) r =>
    let slot := reopenSlot taken 256 (max x.slot (tget 0 x.freeAt r.1))
    { x with slot := slot + 1, rows := tset 0 x.rows r.1 r.2, activatedAt := tset 0 x.activatedAt r.1 (slot + 1) }) { x with reopen := [] }

/-- A slot that the schedule gives to a refresh or to the wings (R151, R152). -/
def State.slotTaken (s : State) (c slot : Nat) : Bool :=
  refreshSlot c slot || ((s.co (s.channelCo c)).seq.image.elim 0 (fun i => tget 0 i.masks c)).getLsbD (slot % 64)

/-- At release each controller goes on and reopens, in ascending bank order, the rows that were open at entry, in the first stage slots
after release (R157). -/
def State.reopenRows (s : State) (k ns : Nat) : State :=
  let s := s.resumeChannels k ns
  (s.chanList k).foldl (fun s c => s.modChan c (fun x => x.reopened (s.slotTaken c))) s

/-- The company that an armed unit concerns: a core or tile row its core's, a DRAM row its quarter's (R461, R463). -/
def State.armedCo (s : State) (a : Armed) : Nat := if a.kind = 2 then s.quarterOwner (a.phys / 8) else s.coreCo a.phys

/-- Armed units of a company that a repair can still serve. -/
def State.armedFor (s : State) (k : Nat) : List Armed := s.rpr.armed.filter (fun a => decide (s.armedCo a = k) && !a.failed)

/-- Ports of a hold whose RELEASE has not arrived (R158, R166). -/
def pendingOf (ports entry : Nat) (step : BitVec 16) (got : List (Nat × BitVec 12 × BitVec 16)) : Byte :=
  (List.range 8).foldl (fun b p =>
    if portNamed ports p ∧ !got.contains (p, BitVec.ofNat 12 entry, step) then b ||| ((1 : Byte) <<< (7 - p)) else b) 0

/-- The condition of a hold at its entry, by kind (R156, R158, R161, R319, R463). -/
def State.enterCond (s : State) (k entry : Nat) (h : HoldEntry) : State :=
  if h.kind = 2 then (if (s.armedFor k).isEmpty then s.meetHold k h else s)
  else if h.kind = 3 ∧ (s.roundDue k entry).isNone then s.meetHold k h
  else
    let s := match s.ctrCurrent k h.index h.gen with
      | some true => s
      | _ => (s.log 1 k 1 k 0x0B05#16 [(12, entry), (13, h.index), (8, h.gen.toNat)]).modSeq k (fun q => { q with heldStale := true })
    s.evalHold k

/-- The stage stops at its hold-table entry `i` (R157, R158, R161). -/
def State.enterHold (s : State) (k i : Nat) (h : HoldEntry) : State :=
  let s := s.prechargeAll k
  let step := BitVec.ofNat 16 (s.co k).seq.step.toNat
  let s := s.modSeq k (fun q => { q with
    state := .held, held := true, heldSince := s.nowNs, heldStale := false, entry := BitVec.ofNat 12 i, nextHold := i + 1, met := false,
    longLogged := false, pendingPorts := pendingOf h.ports i step q.releases,
    releases := q.releases.filter (fun r => !(decide (r.2.1 = BitVec.ofNat 12 i) && decide (r.2.2 = step))) })
  s.enterCond k i h

/-- Company `k` enters its next hold. Nothing happens where the stage does not advance, or where an epoch boundary or the step's end comes
first (R155, R157, R160). -/
def State.holdEnter (s : State) (k : Nat) : State :=
  let q := (s.co k).seq
  match q.cyclesToHold, q.image.bind (fun i => i.holds[q.nextHold]?) with
  | some n, some h =>
    if q.advancing && decide (n < q.cyclesToEpoch) && (q.cyclesLeft (s.co k).upd.recastArmed).elim true (fun m => decide (n < m)) then
      (s.stageBy k n).elim s (fun t => t.enterHold k q.nextHold h)
    else s
  | _, _ => s

/-- HOLD_ENTER (R157). -/
def execHoldEnter (company : Nat) (s : State) : Host.Outcome State Fault Refusal := onCompany company s (fun s => s.holdEnter company)

/-- A RELEASE frame arrives: for the hold in force, or kept for the one it names (R158). -/
def State.releaseReceive (s : State) (k p : Nat) (entry : BitVec 12) (step : BitVec 16) : State :=
  let q := (s.co k).seq
  if !(s.activePorts k).contains p then s
  else if q.held ∧ q.entry = entry ∧ step = BitVec.ofNat 16 q.step.toNat then
    s.modSeq k (fun q => { q with pendingPorts := q.pendingPorts &&& ~~~((1 : Byte) <<< (7 - p)) })
  else if q.releases.contains (p, entry, step) then s
  else s.modSeq k (fun q => { q with releases := q.releases ++ [(p, entry, step)] })

/-- RELEASE_RECEIVE (R158). -/
def execReleaseReceive (company : Nat) (port : BitVec 3) (entry : BitVec 12) (step : BitVec 16) (s : State) :
    Host.Outcome State Fault Refusal :=
  onCompany company s (fun s => s.releaseReceive company port.toNat entry step)

/-- What the FAR unit does when the stage leaves a round hold with a phase due (R318): the round plans of SEND and LAND run on. -/
def Far.leaveHold (f : Far) (due : Option Nat) : Far :=
  match due with
  | some 0 => { f.fresh with phase := .exchange }
  | some 1 => { f.fresh with phase := .opening }
  | some _ => { f with phase := .apply }
  | none => f

/-- The stage resumes 20 stage-clock periods after the condition and the markers are met; `heldNs` is the hold's wall time, `guardNs` the
part of it spent on the snapshot guard (R158, R166, R279). A wall time shorter than the model's own clock has seen is none. A curtain hold acts at its release (R258) (DESIGN CHOICE, log 88). -/
def State.holdResume (s : State) (k heldNs guardNs : Nat) : State :=
  let q := (s.co k).seq
  match q.hold with
  | none => s
  | some h =>
    if q.met && decide (q.pendingPorts = 0) && decide (s.nowNs ≤ q.heldSince + heldNs) then
      let due := s.roundDue k q.entry.toNat
      let s := s.modSeq k (fun q => { q with state := .running, held := false, holdNs := q.holdNs + BitVec.ofNat 64 heldNs })
      let s := (s.reopenRows k heldNs).countDead k
      if h.kind = 1 then
        (s.modPak k (fun p => { p with holdNs := p.holdNs + BitVec.ofNat 64 guardNs })).curtainAct k
      else if h.kind = 3 then s.modFar k (fun f => f.leaveHold due)
      else s
    else s

/-- HOLD_RESUME (R158). -/
def execHoldResume (company heldNs guardNs : Nat) (s : State) : Host.Outcome State Fault Refusal :=
  onCompany company s (fun s => s.holdResume company heldNs guardNs)

/-- WARN_MS of a hold in ns: 0 means 10,000 ms (R155). -/
def HoldEntry.warnNs (h : HoldEntry) : Nat := (if h.warnMs = 0 then 10000 else h.warnMs) * 1000000

/-- A hold has lasted WARN_MS of wall time: logged once (R161). -/
def State.holdLong (s : State) (k : Nat) : State :=
  let q := (s.co k).seq
  match q.hold with
  | none => s
  | some h =>
    if !q.longLogged && decide (q.heldSince + h.warnNs ≤ s.nowNs) then
      (s.modSeq k (fun q => { q with longLogged := true })).log 1 k 1 k 0x0B04#16 [(12, q.entry.toNat), (8, q.pendingPorts.toNat)]
    else s

/-- HOLD_LONG (R161). -/
def execHoldLong (company : Nat) (s : State) : Host.Outcome State Fault Refusal := onCompany company s (fun s => s.holdLong company)

/-! ### After the curtain -/

/-- The curtain's post, two cycles after it acted; a hold or a barrier wait freezes it (R157, R258 step 7). -/
def State.curtainPost (s : State) (k : Nat) : State :=
  match (s.co k).seq.image.bind (fun i => i.update) with
  | some u =>
    if (s.co k).upd.curtainPostDue && !(s.co k).seq.held && !(s.co k).seq.waiting then
      (s.modUpd k (fun x => { x with curtainPostDue := false })).stagePost k u.ctrIndex u.ctrGen 1
    else s
  | none => s

/-- CURTAIN_POST (R258). -/
def execCurtainPost (company : Nat) (s : State) : Host.Outcome State Fault Refusal := onCompany company s (fun s => s.curtainPost company)

/-- The oldest report has landed in its ring entry, and its counter is incremented (R86, R89, R90). -/
def State.reportLanded (s : State) (k : Nat) : State :=
  match (s.co k).mon.pending, (s.co k).seq.image.bind (fun i => i.rmon) with
  | (step, attempt, bs) :: rest, some r =>
    let e := step % 2 ^ r.depthLog2
    let s := s.dramWrite (r.base + e * bs.length) bs
    let s := s.modCo k (fun c => { c with mon := { c.mon with
      pending := rest, valid := true, lastEntry := BitVec.ofNat 6 e, repStep := BitVec.ofNat 48 step, repAttempt := BitVec.ofNat 16 attempt } })
    s.stagePost k r.ctrIndex r.ctrGen 1
  | _, _ => s

/-- RMON_REPORT_LANDED (R86). -/
def execRmonReportLanded (company : Nat) (s : State) : Host.Outcome State Fault Refusal :=
  onCompany company s (fun s => s.reportLanded company)

end Sys2Proof.Machine
end

