-- ==== Sys2Proof/Machine/DramMesh.lean ====
section
/-!
DEFINITION. The scheduled DRAM controllers (R150 to R153, R157, R515), the accesses of the fly engines (R147, R148) and the
arrival of mesh lines (R36, R171).
-/

namespace Sys2Proof.Machine

/-! ### Slots of a channel (R150 to R153) -/

/-- The stage of the channel's company waits in a hold or at a cue barrier, so that its slots count as elapsed (R157, R189). -/
def State.chanHeld (s : State) (c : Nat) : Bool := (s.co (s.channelCo c)).seq.held || (s.co (s.channelCo c)).seq.waiting

/-- A wings slot of the channel: by the mask while its company's stage runs, and then never a refresh slot; every slot but that of an extra
refresh in a hold or barrier wait; every slot without a running script (R152, R157, R189). -/
def State.wingsSlot (s : State) (c slot : Nat) : Bool :=
  let q := (s.co (s.channelCo c)).seq
  if q.advancing then !refreshSlot c slot && (q.image.elim 0 (fun i => tget 0 i.masks c)).getLsbD (slot % 64)
  else !(s.chanHeld c && decide (slot % 24 = 23))

/-- The channel brought to a slot: the refreshes before it are made (R151, R157). -/
def State.chanTo (s : State) (c slot : Nat) : Channel :=
  let x := s.chan c
  if (s.co (s.channelCo c)).seq.advancing then x.scheduled c slot
  else if s.chanHeld c then x.extras slot else { x with heldSlot := max x.heldSlot slot }

/-- A slot that lies before the stage's next boundary and has not been used or passed (R150). -/
def State.slotOpen (s : State) (c slot : Nat) : Bool :=
  let k := s.channelCo c
  if (s.co k).seq.advancing then decide ((s.chan c).slot ≤ slot) && decide (slotBegin slot < s.stageEnd k)
  else decide ((s.chan c).heldSlot ≤ slot)

/-- The channel's slot `slot` carries a command. -/
def Channel.useSlot (x : Channel) (advancing : Bool) (slot : Nat) : Channel :=
  if advancing then { x with slot := slot + 1 } else { x with heldSlot := slot + 1 }

/-- A command slot of a running stage that is neither a wings nor a refresh slot; a command that lies further back than a line takes from
its fourth access to the mesh comes too late (R148, R152) (DESIGN CHOICE, log 5). -/
def State.stageSlot (s : State) (c slot : Nat) : Bool :=
  (s.co (s.channelCo c)).seq.advancing && s.slotOpen c slot && !refreshSlot c slot && !s.wingsSlot c slot &&
    decide ((s.co (s.channelCo c)).seq.stageCycle.toNat ≤ slotBegin slot + 48)

/-! ### Fly engines (R147, R148) -/

/-- The physical core of a fly command. -/
def State.flyCore (s : State) (k : Nat) (f : FlyCmd) : Option Nat := s.relPhys k f.lrow f.lcol

/-- DRAM address of the access that a fly engine makes next. -/
def Fly.addr (f : Fly) (c : FlyCmd) : Nat := c.dram + 256 * c.stride * f.line + 64 * f.access

/-- Bits `512 a` up of a line, replaced. -/
def putAccess (l : Line) (a : Nat) (d : BitVec 512) : Line :=
  BitVec.ofNat 2048 (leNat ((leBytes 256 l.toNat).take (64 * a) ++ leBytes 64 d.toNat ++ (leBytes 256 l.toNat).drop (64 * a + 64)))

/-- The 64 bytes of access `a` of a line. -/
def getAccess (l : Line) (a : Nat) : List Byte := ((leBytes 256 l.toNat).drop (64 * a)).take 64

/-- A fixed access that goes before a fly engine's takes port B or the bank at core `p` in the stage cycle `v` that the stage has come to:
another read already granted, an inbound line, the collective engine's read (R37). -/
def State.portTaken (s : State) (k p v bank : Nat) : Bool :=
  (s.core p).fixed.any (fun f => decide (f.1 = v) && (f.2.1 || decide (f.2.2 = bank))) || s.arrives k v p bank || s.chunkWants k v p

/-- A fixed read of a tile line through port B by a fly engine, wanted in stage cycle `v`: fixed accesses that collide are served one per
cycle, so it may be served later. Its bytes with error correction, the cycle in which it was served, and the state; none where the stage
cannot come to that cycle; `fuel` bounds the cycles (R36, R37) (DEDUCED, log 32). -/
def State.tileLine : Nat → State → Nat → Nat → Nat → Option (Line × Nat × State)
  | 0, _, _, _, _ => none
  | fuel + 1, s, p, v, line =>
    match s.stageAt (s.coreCo p) v with
    | none => none
    | some s =>
      if s.portTaken (s.coreCo p) p v (line % 64) then State.tileLine fuel s p (v + 1) line
      else
        let s := s.modCore p (fun c => { c with fixed := c.fixed ++ [(v, true, line % 64)] })
        let (l, c) := ({ s.core p with free := s.free } : Core).fixedRead line
        some (l, v, (s.modCore p (fun _ => c)).collect p)

/-- The line that a command of KIND 0x02 writes is in hand in slot `slot`: it is read 4 stage cycles before its first access slot, and where
the read is served late the access waits as long. Answers none where the slot must pass (R37, R148). -/
def State.flyFetch (s : State) (e slot p : Nat) (c : FlyCmd) : State × Bool :=
  let f := s.fly e
  match f.ready with
  | some r => (s, decide (r ≤ slotBegin slot))
  | none =>
    if slotBegin slot < f.startAt + 4 then (s, false)
    else
      match State.tileLine (s.stageEnd (s.coreCo p) + 4 - slotBegin slot) s p (slotBegin slot - 4) (c.line + f.line) with
      | none => (s, false)
      | some (l, v, s) => (s.modFly e (fun f => { f with buffer := l, ready := some (v + 4) }), decide (v + 4 ≤ slotBegin slot))

/-- The engine has made one access in slot `slot`: the next one of the line, of the next line, or none is left (R148). -/
def Fly.accessed (f : Fly) (c : FlyCmd) (slot : Nat) : Fly :=
  if f.access < 3 then { f with access := f.access + 1 }
  else if f.line + 1 < c.count then { f with access := 0, line := f.line + 1, ready := none }
  else { f with active := none, access := 0, line := 0, ready := none, lastAccess := slotBegin slot }

/-- One access of a fly engine's command; a line read from DRAM enters the mesh 48 stage cycles after its fourth access slot begins (R147,
R148). -/
def State.flyAccess (s : State) (e slot p : Nat) (c : FlyCmd) : State :=
  let f := s.fly e
  let a := f.addr c
  let s :=
    if c.kind = 2 then s.dramWrite a (getAccess f.buffer f.access)
    else
      let (d, _, s) := s.eccAccess (s.quarterOwner e) a false (tget 0 s.dramFlips (a / 64))
      let l := putAccess f.buffer f.access d
      let s := s.modFly e (fun f => { f with buffer := l })
      if f.access = 3 then s.edgeSend (decide (24 ≤ e)) (flyRank e) (slotBegin slot + 48) p (c.line + f.line) (decide (c.kind = 3)) l else s
  s.modFly e (fun f => f.accessed c slot)

/-- The engine's next command of the step starts: at step cycle ISSUE, or when the command before it has made its last access, if that is
later. A start that lies behind the stage's next boundary does not come yet (R148). -/
def State.flyStart (s : State) (e : Nat) : State :=
  let k := s.quarterOwner e
  let q := (s.co k).seq
  let f := s.fly e
  let cmds := (q.image.bind (fun i => i.fly.find? (fun p => p.engine = e))).elim [] (fun p => p.cmds)
  match f.active, cmds[f.next]? with
  | none, some c =>
    let start := max (q.stageCycle.toNat - q.stepCycle.toNat + c.issue) f.lastAccess
    if q.advancing && (decide (q.phase = .step) || decide (q.phase = .reshardWait)) && decide (start < s.stageEnd k) then
      s.modFly e (fun f => { f with active := some c, next := f.next + 1, startAt := start, line := 0, access := 0, ready := none })
    else s
  | _, _ => s

/-- FLY_COMMAND_START (R148). -/
def execFlyCommandStart (engine : Nat) (s : State) : Host.Outcome State Fault Refusal :=
  if engine < 48 then .next (s.flyStart engine) else .fault (.noSuchUnit engine)

/-! ### Stage commands of a channel (R150, R258, R515) -/

/-- An access of the stage at `a` on channel `c` in slot `slot` can be issued: the slot is the stage's and the row is open. -/
def State.canStageAccess (s : State) (c slot a : Nat) : Bool :=
  decide (chanOf a = c) && s.stageSlot c slot && (s.chanTo c slot).canAccess (bankOf a) (rowOf a) slot

/-- The channel carries a stage command in a slot (R150). -/
def State.chanCommand (s : State) (c slot : Nat) (f : Channel → Channel) : State :=
  let x := s.chanTo c slot
  s.modChan c (fun _ => f { x with slot := slot + 1 })

/-- Notes an access of the row at `a`. -/
def State.noteAccess (s : State) (c slot a : Nat) : State :=
  s.chanCommand c slot (fun x => { x with accessedAt := markSlot x.accessedAt (bankOf a) slot })

/-- A channel of a running stage refreshes the bank of its scheduled refresh slot (R151) (DESIGN CHOICE, log 36). -/
def State.refresh (s : State) (c slot : Nat) : State :=
  if refreshSlot c slot && (s.co (s.channelCo c)).seq.advancing && s.slotOpen c slot then s.modChan c (fun x => x.scheduled c (slot + 1)) else s

/-- DRAM_REFRESH (R151). -/
def execDramRefresh (channel slot : Nat) (s : State) : Host.Outcome State Fault Refusal :=
  if channel < 384 then .next (s.refresh channel slot) else .fault (.noSuchUnit channel)

/-- In a hold or barrier wait, elapsed slot 23 and every 24th after it refreshes the bank after the last one (R157, R189) (DESIGN CHOICE,
log 36). -/
def State.extraRefresh (s : State) (c elapsed : Nat) : State :=
  if s.chanHeld c && decide (elapsed % 24 = 23) && s.slotOpen c elapsed then s.modChan c (fun x => x.extras (elapsed + 1)) else s

/-- EXTRA_REFRESH (R157). -/
def execExtraRefresh (channel elapsed : Nat) (s : State) : Host.Outcome State Fault Refusal :=
  if channel < 384 then .next (s.extraRefresh channel elapsed) else .fault (.noSuchUnit channel)

/-! ### Arrivals (R36, R149, R171) -/

/-- The stage cycle in which a line for core `p` arrives: the stage goes through it, and the line is written (R36, R171). Nothing happens
where no line arrives there in that cycle. -/
def State.meshArrival (s : State) (p cycle : Nat) : State :=
  let k := s.coreCo p
  match s.stageAt k cycle with
  | none => s
  | some t =>
    let mine := t.mesh.filter (fun m => decide (t.coreCo m.core = k))
    if (meshStep cycle mine).2.1.any (fun m => decide (m.core = p)) then t.stageTo k (cycle + 1) else s

/-- MESH_LINE_ARRIVAL (R171). -/
def execMeshLineArrival (core cycle : Nat) (s : State) : Host.Outcome State Fault Refusal :=
  if core < 850 then .next (s.meshArrival core cycle) else .fault (.noSuchUnit core)

end Sys2Proof.Machine
end

