-- ==== Sys2Proof/Machine/Torus.lean ====
section
/-!
DEFINITION. The torus ports (R175, R180, R184, R190 to R195, R476 to R480, R486, R505): their states, identities, latency, spare lanes
and re-pointing.
-/

namespace Sys2Proof.Machine

/-! ### The check against the call sheet (R477, R478) -/

/-- Coordinate with `v` on axis `ax` (R175, R472). -/
def coordWith (c : Word) (ax v : Nat) : Word :=
  BitVec.ofNat 32 (c.toNat - c.toNat / 256 ^ ax % 256 * 256 ^ ax + v * 256 ^ ax)

/-- The neighbouring coordinate that a port faces (R175). -/
def State.facing (s : State) (sh : Sheet) (p : Nat) : Word :=
  let ax := p / 2
  let len := sh.axes.getD ax 1
  let x := s.coordOn ax
  coordWith s.island.coord ax (if p % 2 = 0 then (x + 1) % len else (x + len - 1) % len)

/-- The serial expected on a port: that of the sheet's entry, or the one a TOR_REPOINT brought (R194, R477). -/
def State.expectedSerial (s : State) (sh : Sheet) (p : Nat) : DWord :=
  ((s.port p).expectSerial).getD ((sh.entries.find? (fun e => decide (e.role = 1) && decide (e.coord = s.facing sh p))).elim 0 (fun e => e.serial))

/-- CHECK of GLB_ISLAND (R477, R492): 0 pending, 1 agrees, 2 disagrees, 3 unused. -/
def State.portCheck (s : State) (p : Nat) : Nat :=
  match s.island.sheet with
  | none => 0
  | some sh =>
    if s.island.role ≠ 1 then 0
    else if sh.axes.getD (p / 2) 1 = 1 then 3
    else match (s.port p).ident with
      | none => 0
      | some i =>
        if i.island = 0 then 0
        else if i.serial = s.expectedSerial sh p ∧ i.island = s.island.island ∧ i.coord = s.facing sh p ∧
            i.nport.toNat = (if p % 2 = 0 then p + 1 else p - 1) then 1
        else 2

/-- The port disagrees and no override stands for its identity (R478). -/
def State.disagrees (s : State) (p : Nat) : Bool :=
  decide (s.portCheck p = 2) && !((s.port p).overridden.isSome && decide ((s.port p).overridden = (s.port p).ident))

/-- A port's identity is the one a pending TOR_REPOINT expects (R194). -/
def State.repointMet (s : State) (p : Nat) : Bool :=
  match (s.port p).repoint, (s.port p).ident with
  | some (serial, coord, _, _), some i => decide (i.serial = serial) && decide (i.coord = coord)
  | _, _ => false

/-- A port may become ACTIVE: it agrees, is overridden, or is the one a pending TOR_REPOINT expects (R194, R477, R478). -/
def State.agrees (s : State) (p : Nat) : Bool :=
  decide (s.portCheck p = 1) || (decide (s.portCheck p = 2) && !s.disagrees p) || s.repointMet p

/-- Logs ISL_PORT_DISAGREE where the check says so (R477, R490). -/
def State.logCheck (s : State) (p : Nat) : State :=
  match s.island.sheet, (s.port p).ident with
  | some sh, some i =>
    if s.disagrees p && !s.repointMet p then
      s.log 0xD 0 1 0 0x0012#16 [(3, p), (64, (s.expectedSerial sh p).toNat), (64, i.serial.toNat)]
    else s
  | _, _ => s

/-! ### Becoming and leaving ACTIVE (R185, R186, R190, R191, R480) -/

/-- The control channel of a port runs (R180). -/
def PortState.trained : PortState → Bool
  | .identifying => true
  | .accepted => true
  | .measured => true
  | .active => true
  | _ => false

/-- Ports from which a parent can be taken: ACTIVE ones, and for a first lock MEASURED ones that agree (R185, R479). -/
def State.parentPort (s : State) (p : Nat) : Bool :=
  let x := s.port p
  decide (x.lockState = 2) && (decide (x.state = .active) || (!s.tor.everLocked && decide (x.state = .measured) && s.agrees p))

/-- The parent of R185: the neighbour that reports LOCKED with the smallest hop count, the lower port on a tie. -/
def State.bestParent (s : State) : Option Nat :=
  ((List.range 8).filter (fun p => s.parentPort p)).foldl (fun o p => match o with
    | none => some p
    | some q => if (s.port p).lockHops.toNat < (s.port q).lockHops.toNat then some p else some q) none

/-- A module that is not locked takes a parent when there is one (R185, R186) (DEDUCED, log 63). -/
def State.selectParent (s : State) : State :=
  if s.tor.root || decide (s.tor.lockState = 2) then s
  else match s.bestParent with
    | none => s
    | some p => { s with tor := { s.tor with parent := BitVec.ofNat 4 p, lockState := if s.tor.lockState = 0 then 1 else s.tor.lockState } }

/-- A LOCK frame leaves on a trained port; the one to the parent says so (R180, R479). -/
def State.sendLockOn (s : State) (p : Nat) : State :=
  if (s.port p).state.trained then s.send p (.lock s.tor.lockState s.tor.hops (decide (s.tor.parent.toNat = p))) else s

/-- LOCK frames leave on every trained port (R180). -/
def State.sendLock (s : State) : State := (List.range 8).foldl (fun s p => s.sendLockOn p) s

/-- The port begins to measure its latency: 64 PROBE frames leave (R180, R184). -/
def State.probe (s : State) (p : Nat) : State := iter 64 (fun _ s => s.send p .probe) s

/-- The module enters holdover (R186, R481). -/
def State.holdover (s : State) : State :=
  State.sendLock { s with tor := { s.tor with lockState := 3, hops := 0xFF#8, holdoverLogged := false } }

/-- The parent's port is no longer ACTIVE: the module enters holdover and selects a new one (R186). -/
def State.lostParent (s : State) (p : Nat) : State :=
  if s.tor.parent.toNat = p ∧ s.tor.root = false then
    let s := { s with tor := { s.tor with parent := 0xF#4, lastParent := s.tor.parent } }
    let s := if s.tor.lockState = 2 then s.holdover else s
    s.selectParent
  else s

/-- RPR_RESTORE shows this restore: the one begun last (R304). -/
def State.restoreShown (s : State) (r : RestoreSession) : Bool := decide (s.restore.port.toNat = r.port)

/-- The restore in progress ends with a status (R297) (DEDUCED, log 53). -/
def State.restoreEnd (s : State) (r : RestoreSession) (st : BitVec 4) (status : Byte) : State :=
  State.answer { s with restore := { s.restore with
    state := if s.restoreShown r then st else s.restore.state,
    sessions := s.restore.sessions.filter (fun x => x.port ≠ r.port) } } r.cmd status 0 []

/-- The restore fails: RESTORE_FAILED with its cause, and FAULT (R297, R305). -/
def State.restoreFail (s : State) (r : RestoreSession) (cause : Nat) : State :=
  (s.log 0xD 0 1 r.company 0x0481#16 [(4, r.company), (3, r.port), (2, cause), (32, r.count)]).restoreEnd r 5 stFault

/-- A port has left ACTIVE: every company with lanes on it that runs a step counts its fault, a restore on it fails, and the module may lose
its parent (R186, R190, R297). -/
def State.leftActive (s : State) (p : Nat) : State :=
  let s := (0 :: companyList).foldl (fun s k => s.countDead k) s
  let s := (s.restore.sessions.filter (fun r => decide (r.port = p))).foldl (fun s r => s.restoreFail r 2) s
  s.lostParent p

/-- What a port forgets when it goes back to DOWN or waits for a new neighbour (R191, R201). -/
def Port.forget (x : Port) (st : PortState) : Port :=
  { x with state := st, ident := none, candidate := none, candCount := 0, nbrLocked := false, lockState := 0, lockHops := 0xFF#8,
           child := false, houseSeen := [], houseSent := none, measured := false, latDue := false, childSum := none, overridden := none }

/-- A port falls to DOWN; from ACTIVE or RETRAINING this is logged (R190, R191) (DEDUCED, log 63). -/
def State.portDown (s : State) (p : Nat) : State :=
  let st := (s.port p).state
  let s := s.modPort p (fun x => x.forget .down)
  let s := if st = .active ∨ st = .retraining then s.log 2 p 1 0 0x0806#16 [(4, if st = .active then 5 else 6)] else s
  s.leftActive p

/-- Deferred RELEASE markers leave once the port is ACTIVE (R158, R193). -/
def State.deferredRelease (s : State) (p : Nat) : State :=
  (0 :: companyList).foldl (fun s k =>
    let q := (s.co k).seq
    match q.hold with
    | some h => if q.met ∧ portNamed h.ports p then s.send p (.release k q.entry (BitVec.ofNat 16 q.step.toNat)) else s
    | none => s) s

/-- Both ends of a port are locked or in holdover (R186). -/
def State.bothLocked (s : State) (p : Nat) : Bool :=
  (decide (s.tor.lockState = 2) || decide (s.tor.lockState = 3)) && (s.port p).nbrLocked

/-- A MEASURED port becomes ACTIVE once both ends are locked and it agrees, and measures again; a TOR_REPOINT or a lane swap that waits for
this is done. A port whose TOR_REPOINT has failed stays out (R186, R191, R193, R194, R480). -/
def State.tryActive (s : State) (p : Nat) : State :=
  let x := s.port p
  if decide (x.state = .measured) && s.bothLocked p && !x.latDue && !x.barred && s.agrees p then
    let s := ((s.modPort p (fun x => { x with state := .active, measured := false })).deferredRelease p).probe p
    let s := match x.repoint with
      | some (serial, _, h, _) =>
        if s.repointMet p then (s.modPort p (fun x => { x with repoint := none, expectSerial := some serial })).answer h stDone 0 [] else s
      | none => s
    match x.swapCmd with
    | some h => if x.swapPending then s else (s.modPort p (fun x => { x with swapCmd := none })).answer h stDone 0 []
    | none => s
  else s

/-- Every port is tried. -/
def State.tryAll (s : State) : State := (List.range 8).foldl (fun s p => s.tryActive p) s

/-! ### Light and training (R191, R486, R505) -/

/-- Light is seen: APR clears, and a port that waits for it trains. A port whose fibre is plugged while it trains or is being identified
returns to DOWN (R191, R194, R486, R505). -/
def State.lightOn (s : State) (p : Nat) : State :=
  let s := s.modPort p (fun x => { x with light := true, apr := false })
  let x := s.port p
  match x.state with
  | .repointing => s.modPort p (fun x => { x with state := .training, lasers := true })
  | .down => if x.lasers then s.modPort p (fun x => { x with state := .training }) else s
  | .training => s.portDown p
  | .identifying => s.portDown p
  | .accepted => s.portDown p
  | _ => s

/-- PORT_LIGHT_DETECTED (R191). -/
def execPortLightDetected (port : BitVec 3) (s : State) : Host.Outcome State Fault Refusal := .next (s.lightOn port.toNat)

/-- A port loses light or lane lock (R486). A DISABLED port and one that waits for a new neighbour stay as they are. -/
def State.lightOff (s : State) (p : Nat) : State :=
  let s := s.modPort p (fun x => { x with light := false })
  match (s.port p).state with
  | .down => s
  | .disabled => s
  | .repointing => s
  | _ => s.portDown p

/-- PORT_LIGHT_LOSS (R486). -/
def execPortLightLoss (port : BitVec 3) (s : State) : Host.Outcome State Fault Refusal := .next (s.lightOff port.toNat)

/-- A pending TOR_REPOINT ends with FAULT, and the port stays out of ACTIVE until another one is taken (R194). -/
def State.repointFail (s : State) (p : Nat) : State :=
  match (s.port p).repoint with
  | none => s
  | some (_, _, h, _) => (s.modPort p (fun x => { x with repoint := none, barred := true })).answer h stFault 0 []

/-- A pending TOR_LANE_SWAP ends with FAULT (DEDUCED, log 63). -/
def State.swapFail (s : State) (p : Nat) : State :=
  match (s.port p).swapCmd with
  | none => s
  | some h => (s.modPort p (fun x => { x with swapCmd := none })).answer h stFault 0 []

/-- Training ends (R191, R193, R194). -/
def State.trainingDone (s : State) (p : Nat) (ok : Bool) : State :=
  match (s.port p).state with
  | .training =>
    if ok then (s.modPort p (fun x => { x with
      state := .identifying, candidate := none, candCount := 0, seqTx := [], seqRx := [], failedLanes := [] })).sendLockOn p
    else (s.portDown p).repointFail p
  | .retraining =>
    if ok then ((s.modPort p (fun x => { x with
      state := .measured, swapPending := false, spareFor := x.swapLane.setWidth 4,
      failedLanes := x.failedLanes.filter (fun l => decide (l ≠ x.swapLane.toNat)), latDue := true })).sendLockOn p).probe p
    else (s.portDown p).swapFail p
  | _ => s

/-- PORT_TRAINING_DONE (R191). -/
def execPortTrainingDone (port : BitVec 3) (ok : Bool) (s : State) : Host.Outcome State Fault Refusal := .next (s.trainingDone port.toNat ok)

/-! ### Identities (R180, R192, R476) -/

/-- An identity has come three times: it is accepted and checked (R192, R477). -/
def State.acceptIdent (s : State) (p : Nat) (i : Ident) : State :=
  let s := s.modPort p (fun x => { x with
    ident := some i, state := if x.state = .identifying then .accepted else x.state,
    overridden := if x.overridden = some i then x.overridden else none })
  let s := s.logCheck p
  let s := if (s.port p).state = .accepted then s.probe p else s
  if (s.port p).repoint.isSome ∧ s.repointMet p = false then s.repointFail p else s.tryActive p

/-- An IDENTITY frame arrives on a trained port (R192, R476) (DEDUCED, log 63). -/
def State.identityIn (s : State) (p : Nat) (i : Ident) : State :=
  let x := s.port p
  let n := if x.candidate = some i then x.candCount + 1 else 1
  let note := fun (s : State) => s.modPort p (fun x => { x with candidate := some i, candCount := n })
  let restart := fun (s : State) => s.modPort p (fun x => { x with
    state := .identifying, ident := none, candidate := some i, candCount := 1, measured := false, nbrLocked := false, child := false, overridden := none })
  match x.state with
  | .identifying => if 3 ≤ n then (note s).acceptIdent p i else note s
  | .active =>
    if x.ident = some i then note s
    else
      let s := (s.modPort p (fun x => { x with moved := true })).log 2 p 1 0 0x0807#16
        [(64, x.ident.elim 0 (fun o => o.serial.toNat)), (64, i.serial.toNat)]
      (restart s).leftActive p
  | .accepted => if x.ident.elim 0 (fun o => o.serial) ≠ i.serial then restart s
    else if 3 ≤ n ∧ x.ident ≠ some i then (note s).acceptIdent p i else note s
  | .measured => if x.ident.elim 0 (fun o => o.serial) ≠ i.serial then restart s
    else if 3 ≤ n ∧ x.ident ≠ some i then (note s).acceptIdent p i else note s
  | _ => s

/-- IDENTITY_RECEIVE (R192). -/
def execIdentityReceive (port : BitVec 3) (serial : DWord) (island : Word) (coord : Word) (nport : BitVec 4) (s : State) :
    Host.Outcome State Fault Refusal :=
  .next (s.identityIn port.toNat { serial := serial, island := island, coord := coord, nport := nport })

/-- IDENTITY_SEND (R180, R476): what the module claims leaves on a trained port. -/
def execIdentitySend (port : BitVec 3) (s : State) : Host.Outcome State Fault Refusal :=
  .next (if (s.port port.toNat).state.trained then s.send port.toNat (.identity s.serial s.island.island s.island.coord port.toNat) else s)

/-! ### Latency (R184, R480) -/

/-- A latency in 0.1 ns as stage cycles at 1.75 GHz, rounded up (R184). -/
def latCycles (tenthNs : Nat) : Nat := cdiv (175 * tenthNs) 1000

/-- Puts a number into a rising list. -/
def insertNat (n : Nat) : List Nat → List Nat
  | [] => [n]
  | m :: ms => if n ≤ m then n :: m :: ms else m :: insertNat n ms

/-- The median of the 64 round trips, each less the turnaround time that the neighbour reported: between its two middle values. Half of it
is the one-way latency (R184) (DEDUCED, log 103). -/
def oneWay (exchanges : List (Nat × Nat)) : Nat :=
  let ts := (exchanges.map (fun e => e.1 - e.2)).foldl (fun l n => insertNat n l) []
  (ts.getD 31 0 + ts.getD 32 0) / 4

/-- The measurement of a port completes with its 64 exchanges (R184, R191, R193, R480) (DEDUCED, log 63). -/
def State.latencyIn (s : State) (p : Nat) (exchanges : List (Nat × Nat)) : State :=
  let st := (s.port p).state
  let tenthNs := oneWay exchanges
  if decide (exchanges.length = 64) && (decide (st = .accepted) || decide (st = .measured) || decide (st = .active)) then
    let s := s.modPort p (fun x => { x with latTenth := BitVec.ofNat 16 (min tenthNs 65535), latOp7 := BitVec.ofNat 16 (min (latCycles tenthNs) 65535) })
    if 1152 < latCycles tenthNs then
      let s := (s.modPort p (fun x => { x with state := .accepted, measured := false })).log 2 p 1 0 0x0808#16 [(16, tenthNs)]
      if st = .active then s.leftActive p else s
    else if st = .active then s.modPort p (fun x => { x with measured := true })
    else ((s.modPort p (fun x => { x with state := .measured, latDue := false })).selectParent).tryActive p
  else s

/-- LATENCY_MEASURED (R184). -/
def execLatencyMeasured (port : BitVec 3) (exchanges : List (Nat × Nat)) (s : State) : Host.Outcome State Fault Refusal :=
  .next (s.latencyIn port.toNat exchanges)

/-- PROBE_RECEIVE (R184): a trained port answers with an ECHO that reports its turnaround time. -/
def execProbeReceive (port : BitVec 3) (turnaround : Nat) (s : State) : Host.Outcome State Fault Refusal :=
  .next (if (s.port port.toNat).state.trained then s.send port.toNat (.echo turnaround) else s)

/-! ### Spare lanes (R193) -/

/-- A swap waits for the port where its spare is free and the lane is not the spare itself (R193). -/
def State.wantSwap (s : State) (p : Nat) (lane : BitVec 5) : State :=
  if (s.port p).spareFor = 0xF#4 ∧ (s.port p).swapPending = false ∧ lane.toNat < 16 then
    s.modPort p (fun x => { x with swapPending := true, swapLane := lane })
  else s

/-- LANE_SIGNAL_LOSS (R193). -/
def execLaneSignalLoss (port : BitVec 3) (lane : BitVec 5) (s : State) : Host.Outcome State Fault Refusal :=
  .next (((s.modPort port.toNat (fun x => { x with failedLanes := lane.toNat :: x.failedLanes.filter (fun l => decide (l ≠ lane.toNat)) })).log 2 port.toNat 1 0 0x0805#16 [(5, lane.toNat)]).wantSwap
    port.toNat lane)

/-- LANE_RATE_CHECK (R193): the corrected codewords are counted, and a rate above 10^−5 asks for the spare. -/
def execLaneRateCheck (port : BitVec 3) (lane : BitVec 5) (corrected codewords : Nat) (s : State) : Host.Outcome State Fault Refusal :=
  let s := s.modPort port.toNat (fun x => { x with corrected := x.corrected + BitVec.ofNat 32 corrected })
  .next (if codewords < 100000 * corrected then
      (s.log 2 port.toNat 0 0 0x0804#16 [(5, lane.toNat), (32, corrected)]).wantSwap port.toNat lane
    else s)

/-- A company's script leaves the port alone: it is empty or stopped, or in a hold that names the port; `loaded` says whether a loaded one
does too (R193, R194) (DEDUCED, log 63). -/
def State.quietOn (s : State) (loaded : Bool) (k p : Nat) : Bool :=
  let q := (s.co k).seq
  match q.state with
  | .empty => true
  | .loaded => loaded
  | .stopped => true
  | _ => q.hold.elim false (fun h => portNamed h.ports p)

/-- Every company with lanes on the port leaves it alone. -/
def State.portQuiet (s : State) (loaded : Bool) (p : Nat) : Bool :=
  (0 :: companyList).all (fun k => !(s.co k).onPort p || s.quietOn loaded k p)

/-- The port retrains with its spare lane (R193 step 3). -/
def State.swapStart (s : State) (p : Nat) : State :=
  if (s.port p).swapPending && decide ((s.port p).state = .active) && s.portQuiet false p then
    ((s.send p (.swap (s.port p).swapLane)).modPort p (fun x => { x with state := .retraining, measured := false })).leftActive p
  else s

/-- LANE_SWAP_START (R193). -/
def execLaneSwapStart (port : BitVec 3) (s : State) : Host.Outcome State Fault Refusal := .next (s.swapStart port.toNat)

/-- SWAP_HANDSHAKE_RECEIVE (R193): this end takes part, at once when its companies leave the port alone. -/
def execSwapHandshakeReceive (port : BitVec 3) (lane : BitVec 5) (s : State) : Host.Outcome State Fault Refusal :=
  .next ((s.wantSwap port.toNat lane).swapStart port.toNat)

/-- TOR_LANE_SWAP (R193, R195): the reply waits for the swap (DEDUCED, log 63). -/
def execTorLaneSwap (h : Pkt) (port : BitVec 3) (lane : BitVec 4) (s : State) : Host.Outcome State Fault Refusal :=
  .next (s.serve h 0x0802#16 [(3, port.toNat), (4, lane.toNat)] true .never (fun s _ =>
    let p := port.toNat
    if (s.port p).spareFor ≠ 0xF#4 ∨ (s.port p).swapPending = true then { state := s, status := stNoResource }
    else { state := (s.wantSwap p (lane.setWidth 5)).modPort p (fun x => { x with swapCmd := some h }), waits := true }))

/-! ### Re-pointing and disabling (R194, R195) -/

/-- TOR_REPOINT (R194): the reply waits for the new neighbour (DEDUCED, log 63). -/
def execTorRepoint (h : Pkt) (port : BitVec 3) (serial : DWord) (coord : Word) (timeoutMs : BitVec 16) (s : State) :
    Host.Outcome State Fault Refusal :=
  .next (s.serve h 0x0801#16 [(3, port.toNat), (64, serial.toNat), (32, coord.toNat), (16, timeoutMs.toNat)] true .never (fun s _ =>
    let p := port.toNat
    if s.portQuiet true p = false ∨ (s.port p).repoint.isSome then { state := s, status := stLocked }
    else
      let s := if (s.port p).state.trained then s.send p .repoint else s
      let s := s.modPort p (fun x => { x.forget .repointing with
        lasers := false, light := false, barred := false, repoint := some (serial, coord, h, s.nowNs + 1000000 * timeoutMs.toNat) })
      { state := s.leftActive p, waits := true }))

/-- TIMEOUT_MS has passed since the TOR_REPOINT of a port (R194). -/
def State.repointTimeout (s : State) (p : Nat) : State :=
  match (s.port p).repoint with
  | none => s
  | some (_, _, _, due) => if due ≤ s.nowNs then s.repointFail p else s

/-- REPOINT_TIMEOUT (R194). -/
def execRepointTimeout (port : BitVec 3) (s : State) : Host.Outcome State Fault Refusal := .next (s.repointTimeout port.toNat)

/-- Torus lasers may be on: from the end of phase 0x1, unless the module has failed or a removal is granted (R442, R468, R469). -/
def State.lasersAllowed (s : State) : Bool := (decide (s.boot.phase = 2) || decide (s.boot.phase = 3)) && !s.svc.safe

/-- TOR_PORT_DISABLE (R191, R195). -/
def execTorPortDisable (h : Pkt) (port : BitVec 3) (disable : Bool) (s : State) : Host.Outcome State Fault Refusal :=
  .next (s.serve h 0x0803#16 [(3, port.toNat), (1, b2n disable)] true .never (fun s _ =>
    let p := port.toNat
    if s.portQuiet true p = false then { state := s, status := stLocked }
    else if disable then { state := ((s.modPort p (fun x => { x.forget .disabled with lasers := false })).repointFail p).leftActive p }
    else if (s.port p).state = .disabled then
      { state := s.modPort p (fun x => { x with state := .down, lasers := s.lasersAllowed }) }
    else { state := s }))

/-! ### Automatic power reduction (R505) -/

/-- APR_ENTER (R505): no light for 10 ms. -/
def execAprEnter (port : BitVec 3) (s : State) : Host.Outcome State Fault Refusal :=
  .next (if (s.port port.toNat).light = false ∧ (s.port port.toNat).lasers then s.modPort port.toNat (fun x => { x with apr := true }) else s)

/-- APR_PULSE (R505). -/
def execAprPulse (port : BitVec 3) (s : State) : Host.Outcome State Fault Refusal :=
  .next (if (s.port port.toNat).apr ∧ (s.port port.toNat).lasers then s.send port.toNat .pulse else s)

end Sys2Proof.Machine
end

