-- ==== Sys2Proof/Machine/Update.lean ====
section
/-!
DEFINITION. The update engines (R236 to R253, R261), UPD_SET_CONST (R266), the delivery of the curtain tail (R256) and RPR_ROLL_FORWARD
(R299).
-/

namespace Sys2Proof.Machine

/-- An update engine: an index above 47 is a fault of the model (DESIGN CHOICE, log 12; DESIGN CHOICE, log 20). -/
def onEngine (e : Nat) (s : State) (f : State → State) : Host.Outcome State Fault Refusal :=
  if e < 48 then .next (f s) else .fault (.noSuchUnit e)

/-! ### Programs (R248 to R251) -/

/-- A source field of R248: none for a reserved code. -/
def updSource (ks bs us : List Word) (code : Nat) : Option Word :=
  if code < 0x10 then some (us.getD code 0)
  else if code < 0x20 then some (ks.getD (code - 0x10) 0)
  else if code < 0x24 then some (bs.getD (code - 0x20) 0)
  else if code = 0x24 then some f32one
  else if code = 0x25 then some f32zero
  else none

/-- SA > 0 as FP32. -/
def fpos (a : Word) : Bool := Fp.lt (.fin false 0 0) (f32dec a)

/-- RCP of an update engine (R250, R251). -/
def updRcp (a : Word) : Word := finiteOf (fnRcp true a)

/-- RSQ of an update engine: +0.0 on a negative input, the largest value on a zero (R251). -/
def updRsq (a : Word) : Word :=
  if (f32dec a).isZero then f32big else if (f32dec a).sign then f32zero else finiteOf (fnRsqrt true a)

/-- A result of operation `op` on `a`, `b`, `c` as an engine gives it: finite, and never subnormal; what is not a number, which only a power
register of a bank header can bring, takes a free finite value (R67, R251) (DESIGN CHOICE, log 104). -/
def updFinite (op : Nat) (a b c r : Word) : Word :=
  if (f32dec r).isNan then
    let v := Config.updOpen op a b c
    if (f32dec v).nonFinite then f32big else f32pack (f32dec v)
  else finiteOf (f32pack (f32dec r))

/-- The operations of R250 that work on one lane; none for BSUM, BMAX and reserved codes (DEDUCED, log 15). -/
def updLaneOp (op : Nat) (a b c : Word) : Option Word :=
  match op with
  | 0x01 => some (finiteOf (fadd a b))
  | 0x02 => some (finiteOf (fsub a b))
  | 0x03 => some (finiteOf (fmul a b))
  | 0x04 => some (finiteOf (ffma a b c))
  | 0x05 => some (fmax a b)
  | 0x06 => some (fmin a b)
  | 0x07 => some (fabs a)
  | 0x08 => some (fneg a)
  | 0x09 => some (if fpos a then f32one else if fpos (fneg a) then fneg f32one else f32zero)
  | 0x0A => some (if fpos a then b else c)
  | 0x0B => some (fmin (fmax a b) c)
  | 0x0C => some (updRcp a)
  | 0x0D => some (updRsq a)
  | 0x0E => some (if fpos a then finiteOf (fmul a (updRsq a)) else f32zero)
  | _ => none

/-- The lane tree of R101 from w = 16, over 32 lanes; no partial sum is infinite (R250, R251) (DEDUCED, log 44). -/
def tree32 (f : Word → Word → Word) (xs : List Word) : Word :=
  ([16, 8, 4, 2, 1].foldl (fun (ls : List Word) w => (List.range w).map (fun l => f (ls.getD l 0) (ls.getD (l + w) 0))) xs).getD 0 0

/-- One instruction over the registers of the 32 lanes of a cycle; none where it is reserved (R248). -/
def updInstr (block : Bool) (ks bs : List Word) (w : DWord) (lanes : List (List Word)) : Option (List (List Word)) :=
  let op := bits w 63 58
  let dst := bits w 57 54
  let src := fun (us : List Word) (hi : Nat) => updSource ks bs us (bits w hi (hi - 5))
  let named : Bool := [53, 47, 41].all (fun hi => (src [] hi).isSome)
  if !named || decide (bits w 35 0 ≠ 0) then none
  else
    let val := fun (us : List Word) (hi : Nat) => (src us hi).getD 0
    match op with
    | 0x00 => some lanes
    | 0x0F => if block then
        let v := tree32 (fun a b => updFinite 0x0F a b 0 (fadd a b)) (lanes.map (fun us => val us 53))
        some (lanes.map (fun us => us.set dst v)) else none
    | 0x10 => if block then
        let v := tree32 (fun a b => updFinite 0x10 a b 0 (fmax a b)) (lanes.map (fun us => val us 53))
        some (lanes.map (fun us => us.set dst v)) else none
    | _ =>
      if (updLaneOp op 0 0 0).isSome then
        some (lanes.map (fun us =>
          let a := val us 53
          let b := val us 47
          let c := val us 41
          us.set dst (updFinite op a b c ((updLaneOp op a b c).getD 0))))
      else none

/-- Runs a program; the answer also holds the index of the first reserved instruction, which acts as NOP (R248). -/
def updRun (p : UpdProgram) (ks bs : List Word) (lanes : List (List Word)) : List (List Word) × Option Nat :=
  iter p.length (fun i (r : List (List Word) × Option Nat) =>
    match updInstr p.block ks bs (p.code.getD i 0) r.1 with
    | some l => (l, r.2)
    | none => (r.1, some (r.2.getD i))) (lanes, none)

/-! ### Gradient lines (R238, R252) -/

/-- Gradient elements of one line. -/
def Shard.perLine (sh : Shard) : Nat := if sh.gbf16 then 128 else 64

/-- Gradient lines that a shard takes (R252). -/
def Shard.linesNeeded (sh : Shard) : Nat := cdiv sh.elements sh.perLine

/-- The UPDATE section of the company that holds an engine. -/
def State.updOf (s : State) (e : Nat) : Option UpdSection := ((s.co (s.quarterOwner e)).seq.image).bind (fun i => i.update)

/-- The shard in hand on an engine: none once every shard has consumed its lines. -/
def State.shardNow (s : State) (e : Nat) : Option (UpdSection × Shard) :=
  (s.updOf e).bind (fun u => ((u.shardsOf e)[(s.engine e).shard]?).map (fun sh => (u, sh)))

/-- Engine `e` begins reading its next shard, from step cycle START (R252 step 1) (DESIGN CHOICE, log 12). -/
def State.shardStart (s : State) (e : Nat) : State :=
  let k := s.quarterOwner e
  let q := (s.co k).seq
  match s.shardNow e with
  | none => s
  | some (_, sh) =>
    if (q.phase = .step ∨ q.phase = .reshardWait) ∧ (s.engine e).started = false then
      let v := q.issueBase + sh.start
      (s.stageFrom k v).elim s (fun t => t.modEngine e (fun x => { x with started := true, startAt := v }))
    else s

/-- UPD_SHARD_START (R252). -/
def execUpdShardStart (engine : Nat) (s : State) : Host.Outcome State Fault Refusal := onEngine engine s (fun s => s.shardStart engine)

/-- The collective engine hands a gradient line to engine `e` in stage cycle `v`; in a recast phase no shard takes one (R238, R261)
(DEDUCED, log 45). -/
def State.gradientLine (s : State) (e v : Nat) (l : Line) : State :=
  let k := s.quarterOwner e
  if (s.shardNow e).isNone || (s.engine e).recast then (s.addFaults k 1).log 4 e 2 k 0x0A06#16 [(6, e)]
  else if 8192 ≤ (s.engine e).buffer.length then (s.addFaults k 1).log 4 e 2 k 0x0A05#16 [(6, e), (16, (s.engine e).shard)]
  else s.modEngine e (fun x => { x with buffer := x.buffer ++ [(v, l)] })

/-- The oldest line that the collective engine holds for engine `e` is handed over in its cycle (R207, R238). -/
def State.takeForEngine (s : State) (e : Nat) : State :=
  let k := s.quarterOwner e
  match (s.co k).col.forEngine.find? (fun x => x.1 = e) with
  | none => s
  | some x => (s.stageFrom k x.2.1).elim s (fun t =>
      (t.modCol k (fun c => { c with forEngine := c.forEngine.erase x })).gradientLine e x.2.1 x.2.2)

/-- UPD_GRADIENT_LINE (R238). -/
def execUpdGradientLine (engine : Nat) (s : State) : Host.Outcome State Fault Refusal :=
  onEngine engine s (fun s => s.takeForEngine engine)

/-- Elements of a gradient line; a BF16 subnormal widens to zero (R73, R252). -/
def gradElems (bf : Bool) (l : Line) (n : Nat) : List Word :=
  (List.range n).map (fun i =>
    if bf then f32pack (bfdec (BitVec.ofNat 16 (lineBits l (16 * i) 16))) else BitVec.ofNat 32 (lineBits l (32 * i) 32))

/-- An element that is not finite enters as +0.0 (R251): the elements and how many were replaced. -/
def substitute (ws : List Word) : List Word × Nat :=
  (ws.map (fun w => if (f32dec w).nonFinite then f32zero else w), (ws.filter (fun w => (f32dec w).nonFinite)).length)

/-- Counts substitutions in NONFINITE and SUBSTITUTED (R251, R254). -/
def State.countSubst (s : State) (k n : Nat) : State :=
  if n = 0 then s else s.modUpd k (fun u => { u with nonfinite := satAdd u.nonfinite n, substituted := u.substituted + BitVec.ofNat 32 n })

/-- Base of a shard's committed bank, or of the other one (R241). -/
def Shard.bank (sh : Shard) (b : Bool) : Nat := if b then sh.bankB else sh.bankA

/-- Field `f` of elements `first` to `first + n` of a bank (R239): the words as the stage reads them. -/
def State.fieldWords (s : State) (k : Nat) (sh : Shard) (base f first n : Nat) : List Word × State :=
  let r := iter (cdiv n 64) (fun i (r : List Line × State) =>
    let (l, s) := r.2.stageLine k (base + 256 * (sh.fields * (first / 64 + i) + f))
    (r.1 ++ [l], s)) (([] : List Line), s)
  ((r.1.flatMap (fun l => gradElems false l 64)).take n, r.2)

/-- The index in the shard table of shard `i` of an engine. -/
def UpdSection.tableIndex (u : UpdSection) (e i : Nat) : Nat :=
  (((u.shards.zipIdx).filter (fun x => x.1.engine = e))[i]?).elim 0 (fun x => x.2)

/-- U5 at entry: field 3 of the next round copy of a parcel's elements while an install is due; nothing, for +0.0, otherwise (R249, R330). -/
def State.shiftWords (s : State) (k : Nat) (u : UpdSection) (e i first n : Nat) : List Word × State :=
  let f := (s.co k).far
  match f.table with
  | none => ([], s)
  | some t =>
    if f.inRound ∧ f.applied ∧ f.s0 + t.land + 2 ≤ (s.co k).seq.step.toNat then
      match t.parcels.find? (fun p => p.shard = u.tableIndex e i) with
      | none => ([], s)
      | some p =>
        let base := if f.copy then p.round0 else p.round1
        let r := iter (cdiv n 64) (fun j (r : List Line × State) =>
          let (l, s) := r.2.stageLine k (base + 256 * (4 * (first / 64 + j) + 3))
          (r.1 ++ [l], s)) (([] : List Line), s)
        ((r.1.flatMap (fun l => gradElems false l 64)).take n, r.2)
    else ([], s)

/-! ### Bank reads (R239, R252 step 1) -/

/-- Groups of 64 elements of a shard (R239). -/
def Shard.groups (sh : Shard) : Nat := cdiv sh.elements 64

/-- The 64-byte units of group `g` that an engine reads: those of every field, and in a recast phase of field 0 (R239, R252, R261). -/
def Shard.unitsOf (sh : Shard) (recast : Bool) (g : Nat) : List Nat :=
  (List.range (if recast then 4 else 4 * sh.fields)).map (fun u => 4 * sh.fields * g + u)

/-- The first group that has not entered the pipeline. -/
def Engine.nextGroup (x : Engine) (sh : Shard) : Nat := if x.recast then x.linesTaken else x.linesTaken * (sh.perLine / 64)

/-- The next access of the bank that engine `e` wants on channel `c`: of successive groups, at most 64 ahead of the group that the pipeline
processes (R252 step 1). -/
def State.updWants (s : State) (e c : Nat) : Option Nat :=
  let x := s.engine e
  match s.shardNow e with
  | none => none
  | some (_, sh) =>
    if x.started then
      let g := x.nextGroup sh
      let base := sh.bank (s.co (s.quarterOwner e)).upd.committed
      (((List.range (min 64 (sh.groups - g))).flatMap (fun i => sh.unitsOf x.recast (g + i))).find? (fun u =>
        decide (chanOf (base + 64 * u) = c) && (tget none x.units u).isNone)).map (fun u => base + 64 * u)
    else none

/-- Engine `e` reads the access of its bank at `a` in slot `slot`. -/
def State.updRead (s : State) (e slot a : Nat) : State :=
  let k := s.quarterOwner e
  match s.shardNow e with
  | none => s
  | some (_, sh) =>
    let (d, _, s) := s.eccAccess k a false (tget 0 s.dramFlips (a / 64))
    s.modEngine e (fun x => { x with units := tset none x.units ((a - sh.bank (s.co k).upd.committed) / 64) (some (slotBegin slot, d)) })

/-- The stage cycle in which the last access of group `g` was read; none while one is missing (DEDUCED, log 45). -/
def Engine.groupRead (x : Engine) (sh : Shard) (g : Nat) : Option Nat :=
  (sh.unitsOf x.recast g).foldl (fun (o : Option Nat) u => match o, tget none x.units u with
    | some v, some d => some (max v d.1)
    | _, _ => none) (some 0)

/-- Field `f` of group `g` as read. -/
def Engine.groupField (x : Engine) (sh : Shard) (f g : Nat) : List Word :=
  (List.range 4).flatMap (fun a =>
    let d := (tget none x.units (4 * (sh.fields * g + f) + a)).elim 0 (fun d => d.2)
    (List.range 16).map (fun i => d.extractLsb' (32 * i) 32))

/-- Groups before `g` are no longer needed. -/
def Engine.dropGroups (x : Engine) (sh : Shard) (g : Nat) : Engine :=
  { x with units := x.units.filter (fun u => decide (4 * sh.fields * g ≤ u.1)) }

/-- Where every line of the shard has been taken, the engine turns to the next one (R252). -/
def Engine.shardTaken (x : Engine) (lines : Nat) : Engine :=
  if x.linesTaken = lines then { x with shard := x.shard + 1, started := false, linesTaken := 0, units := [] } else x

/-- The cycle in which a line whose groups are read enters the pipeline: after its hand-over, after the last read, and after the line before
it (R237, R252 step 3). -/
def Engine.entryCycle (x : Engine) (sh : Shard) (handed first n : Nat) : Option Nat :=
  ((List.range (cdiv n 64)).foldl (fun (o : Option Nat) i => match o, x.groupRead sh (first / 64 + i) with
    | some v, some r => some (max v (r + 1))
    | _, _ => none) (some (max (handed + 1) x.entryFree)))

/-- The buffer's oldest line enters the pipeline with the committed fields of its elements, once they are read (R249, R251, R252 steps 2
and 3). -/
def State.lineEnter (s : State) (e : Nat) : State :=
  match s.shardNow e, (s.engine e).buffer with
  | some (u, sh), (handed, l) :: rest =>
    let k := s.quarterOwner e
    let x := s.engine e
    let first := sh.perLine * x.linesTaken
    let n := min sh.perLine (sh.elements - first)
    match x.entryCycle sh handed first n with
    | none => s
    | some v =>
      if x.recast then s
      else (s.stageFrom k v).elim s (fun s =>
        let (gs, ng) := substitute (gradElems sh.gbf16 l n)
        let fs := (List.range sh.fields).map (fun f =>
          substitute (((List.range (cdiv n 64)).flatMap (fun i => x.groupField sh f (first / 64 + i))).take n))
        let (shift, s) := s.shiftWords k u e x.shard first n
        let (shift, ns) := substitute shift
        let s := s.countSubst k (ng + (fs.map (fun f => f.2)).foldl (· + ·) 0 + ns)
        s.modEngine e (fun x =>
          let x : Engine := { x with
            buffer := rest, linesTaken := x.linesTaken + 1, entryFree := v + cdiv n 32,
            pipe := x.pipe ++ [{ shard := x.shard, first := first, grads := gs, fields := fs.map (fun f => f.1), shift := shift, entered := v }] }
          (x.dropGroups sh (first / 64 + cdiv n 64)).shardTaken sh.linesNeeded))
  | _, _ => s

/-- UPD_LINE_ENTER (R252). -/
def execUpdLineEnter (engine : Nat) (s : State) : Host.Outcome State Fault Refusal := onEngine engine s (fun s => s.lineEnter engine)

/-! ### Exit: fields, copy and digest (R249, R252, R253) -/

/-- The cast descriptor of a shard's copy: the program's, with SAT 1 and the shard's ELEMENT_BASE (R244, R253). -/
def copyDesc (p : UpdProgram) (sh : Shard) : BitVec 128 :=
  (p.cast &&& ~~~((BitVec.allOnes 128) <<< 87)) ||| (1#128 <<< 56) ||| (BitVec.ofNat 128 sh.base <<< 88)

/-- Cuts bytes that begin at `a` into accesses: whole 64-byte units, and with `all` the rest as well (R240). -/
def cutUnits (a due : Nat) (all : Bool) (bs : List Byte) : List EngineWrite :=
  (List.range (if all then cdiv bs.length 64 else bs.length / 64)).map (fun i =>
    { addr := a + 64 * i, data := (bs.drop (64 * i)).take 64, due := due })

/-- Copy bytes leave the pipeline in cycle `due`: each access is written as it fills, and the last one of a shard with what it holds (R240). -/
def Engine.putCopy (x : Engine) (sh : Shard) (t : Target) (first n due : Nat) (bs : List Byte) : Engine :=
  let a := if first = 0 then sh.copy else x.copyAddr
  let bytes := (if first = 0 then [] else x.copyBuf) ++ bs
  let last := decide (sh.elements ≤ first + n)
  let ws := cutUnits a due last bytes
  { x with writes := x.writes ++ ws, copyBuf := if last then [] else bytes.drop (64 * ws.length),
           copyAddr := if last then sh.copy + castBytes t sh.elements else a + 64 * ws.length }

/-- Casts elements from `first` of a shard into its working copy, counts them, and hands the bytes on in cycle `due`; a reserved TARGET
gives no copy (R85, R240, R253) (DEDUCED, log 29). -/
def State.castCopy (s : State) (k e : Nat) (p : UpdProgram) (sh : Shard) (first due : Nat) (ws : List Word) : State :=
  let d := copyDesc p sh
  match castTarget d with
  | none => s
  | some t =>
    if sh.nocopy then s
    else
      let q := (s.co k).seq
      let slot := tget {} (s.engine e).rmon sh.slot
      let mon : Bool := bit d 57 && decide (t ≠ .fp32) && decide (slot.format ≠ 0)
      let key : RngKey := { seed := q.image.elim 0 (fun i => i.seed), step := q.step.toNat, attempt := q.attempt.toNat, tensor := sh.tensor }
      let g := castGroup d key (if mon then slot.scaleExp.toInt else 0) first ws 0
      let s := s.modEngine e (fun x => x.putCopy sh t first ws.length due g.bytes)
      if mon then s.modEngine e (fun x => { x with rmon := tmod {} x.rmon sh.slot (fun r =>
          { r with total := satAdd r.total ws.length, above := satAdd r.above g.above, below := satAdd r.below g.below }) })
      else s

/-- One element's term of the pass digest (R252 step 5). -/
def digestTerm (g : Nat) (fields : List Word) : Nat :=
  (iter fields.length (fun f h => rngMix (h ^^^ (fields.getD f 0).toNat ^^^ (f * 2 ^ 32)) 0) (rngMix (g % 2 ^ 64) 0))

/-- Constants K0 to K15 and power registers B0 to B3 of a program (R244, R249, R262). -/
def Upd.kOf (x : Upd) (n : Nat) : List Word := (List.range 16).map (fun i => tget 0 x.consts (16 * n + i))
def Upd.bOf (x : Upd) (n : Nat) : List Word := (List.range 4).map (fun j => tget 0 x.powers (4 * n + j))

/-- UPD_CODE_RESERVED, once per program per step (R248). -/
def State.codeReserved (s : State) (k e program instr : Nat) : State :=
  if (s.co k).seq.codeLogged.contains program then s
  else (s.modSeq k (fun q => { q with codeLogged := program :: q.codeLogged })).log 4 e 1 k 0x0A07#16 [(4, program), (6, instr)]

/-- New fields of a line's elements: the program runs on 32 elements at a time (R237, R249, R250). -/
def lineResults (p : UpdProgram) (x : Upd) (sh : Shard) (l : PipeLine) : List (List Word) × Option Nat :=
  let n := l.grads.length
  iter (cdiv n 32) (fun b (r : List (List Word) × Option Nat) =>
    let lanes := (List.range 32).map (fun i =>
      let j := 32 * b + i
      if j < n then [l.grads.getD j 0] ++ (List.range 4).map (fun f => (l.fields.getD f []).getD j f32zero) ++ [l.shift.getD j f32zero] ++ List.replicate 10 f32zero
      else List.replicate 16 f32zero)
    let (out, bad) := updRun p (x.kOf sh.program) (x.bOf sh.program) lanes
    (r.1 ++ (out.take (n - 32 * b)).map (fun us => (us.drop 1).take 4), match r.2 with
      | some i => some i
      | none => bad)) (([] : List (List Word)), none)

/-- The accesses that write the new fields of elements `first` onward into a bank, in element order; elements that left the pipeline together
become due together (R239, R252 step 4). -/
def fieldWrites (sh : Shard) (base first leaves : Nat) (news : List (List Word)) : List EngineWrite :=
  (List.range (cdiv news.length 16)).flatMap (fun j => (List.range sh.fields).map (fun f =>
    { addr := base + 256 * (sh.fields * (first / 64 + j / 4) + f) + 64 * (j % 4),
      data := ((news.drop (16 * j)).take 16).flatMap (fun us => leBytes 4 (us.getD f 0).toNat), due := leaves + j / 2 }))

/-- The cycle in which the first elements of a line leave the pipeline (R237). -/
def PipeLine.leaves (l : PipeLine) : Nat := l.entered + 272

/-- The cycle in which its last elements leave it: 32 elements leave per cycle (R237). -/
def PipeLine.leavesLast (l : PipeLine) : Nat := l.leaves + (cdiv l.grads.length 32 - 1)

/-- What a line that leaves the pipeline gives: writes of its fields, copy bytes, digest terms (R249, R252 steps 4 and 5, R253). -/
def State.lineOut (s : State) (k e : Nat) (sh : Shard) (p : UpdProgram) (l : PipeLine) : State :=
  let (news, bad) := lineResults p (s.co k).upd sh l
  let s := bad.elim s (fun i => s.codeReserved k e sh.program i)
  let ws := fieldWrites sh (sh.bank (!(s.co k).upd.committed)) l.first l.leaves news
  let s := s.modEngine e (fun x => { x with writes := x.writes ++ ws })
  let s := s.castCopy k e p sh l.first l.leavesLast (news.map (fun us => us.getD 0 0))
  if sh.digest then
    let sum := iter news.length (fun i a => a + digestTerm (sh.base + l.first + i) ((news.getD i []).take sh.fields)) 0
    s.modUpd k (fun u => { u with passDigest := u.passDigest + BitVec.ofNat 64 sum })
  else s

/-- The oldest line of the pipeline leaves it, 272 cycles after it entered (R237, R252). -/
def State.elementExit (s : State) (e : Nat) : State :=
  let k := s.quarterOwner e
  match (s.engine e).pipe with
  | [] => s
  | l :: rest =>
    match (s.updOf e).bind (fun u => ((u.shardsOf e)[l.shard]?).bind (fun sh => (u.programs[sh.program]?).map (fun p => (sh, p)))) with
    | none => s
    | some (sh, p) => (s.stageFrom k l.leavesLast).elim s (fun s =>
        (s.modEngine e (fun x => { x with pipe := rest })).lineOut k e sh p l)

/-- UPD_ELEMENT_EXIT (R237). -/
def execUpdElementExit (engine : Nat) (s : State) : Host.Outcome State Fault Refusal := onEngine engine s (fun s => s.elementExit engine)

/-! ### The recast phase (R261) -/

/-- The first shard from index `i` that has a copy (R261). -/
def nextCopy (shs : List Shard) (i : Nat) : Nat := i + ((shs.drop i).takeWhile (fun sh => sh.nocopy)).length

/-- An engine of a recast phase turns from its shard to the next one that has a copy. -/
def Engine.recastNext (x : Engine) (shs : List Shard) : Engine := { x with shard := nextCopy shs x.shard, started := true }

/-- In a recast phase a group whose field 0 has been read goes through the pipeline into the copy; an element that is not finite counts
and enters as +0.0; `fuel` bounds the groups (R251, R253, R261) (DEDUCED, log 43). -/
def State.recastGroups : Nat → State → Nat → State
  | 0, s, _ => s
  | fuel + 1, s, e =>
    let x := s.engine e
    match s.shardNow e with
    | none => s
    | some (u, sh) =>
      match x.groupRead sh x.linesTaken, u.programs[sh.program]? with
      | some r, some p =>
        let k := s.quarterOwner e
        let first := 64 * x.linesTaken
        let n := min 64 (sh.elements - first)
        let v := max (r + 1) x.entryFree
        let (ws, m) := substitute ((x.groupField sh 0 x.linesTaken).take n)
        let s := (s.countSubst k m).castCopy k e p sh first (v + 272 + (cdiv n 32 - 1)) ws
        let s := s.modEngine e (fun x =>
          let y := ({ x with linesTaken := x.linesTaken + 1, entryFree := v + cdiv n 32 }.dropGroups sh (x.linesTaken + 1)).shardTaken sh.groups
          if y.started then y else y.recastNext (u.shardsOf e))
        State.recastGroups fuel s e
      | _, _ => s

/-- The recast phase begins: every engine reads field 0 of the committed bank for its shards that have a copy, from phase cycle 0, and the
plans of the phase start over (R261). -/
def State.recastStart (s : State) (k : Nat) : State :=
  let c := s.co k
  match c.seq.image.bind (fun i => i.update) with
  | none => s
  | some u =>
    if c.seq.phase = .recast ∧ c.upd.recastArmed ∧ c.seq.advancing then
      let s := (s.modUpd k (fun x => { x with recastArmed := false })).modCol k (fun x => { x with next := [] })
      (s.engineList k).foldl (fun s e =>
        s.modEngine e (fun x => ({ x.fresh with recast := true, startAt := c.seq.issueBase } : Engine).recastNext (u.shardsOf e))) s
    else s

/-- RECAST_PHASE_START (R261). -/
def execRecastPhaseStart (company : Nat) (s : State) : Host.Outcome State Fault Refusal :=
  onCompany company s (fun s => s.recastStart company)

/-! ### UPD_SET_CONST, the curtain tail, roll forward -/

/-- The checks of UPD_SET_CONST (R266) (DEDUCED, log 87). -/
def constCheck (program : BitVec 4) (value : Word) (s : State) (k : Nat) : Option (Byte × Nat) :=
  let n := ((s.co k).seq.image.bind (fun i => i.update)).elim 0 (fun u => u.programs.length)
  if (f32dec value).nonFinite ∨ n ≤ program.toNat then some (stBadArg, 0) else none

/-- UPD_SET_CONST (R266, R267). -/
def execUpdSetConst (h : Pkt) (program : BitVec 4) (index : BitVec 4) (value : Word) (s : State) : Host.Outcome State Fault Refusal :=
  .next (s.serve h 0x0A01#16 [(4, program.toNat), (4, index.toNat), (32, value.toNat)] false .curtain
    (stageOr h (.updSetConst h program index value) (constCheck program value)
      (fun s k => State.applyCurtain k false (.updSetConst h program index value) s)))

/-- The 32 entries of a tail line (R214, R255). -/
def tailEntries (l : Line) : List DWord := (List.range 32).map (fun i => BitVec.ofNat 64 (lineBits l (64 * i) 64))

/-- The curtain tail is delivered: captured, written to TAIL_RECORD, TAIL_SEEN set (R256) (DEDUCED, log 51). -/
def State.tailDelivered (s : State) (k : Nat) : State :=
  match (s.co k).seq.image.bind (fun i => i.update), (s.co k).col.tail with
  | some u, some (v, l) => (s.stageFrom k v).elim s (fun s =>
      let s := s.modCol k (fun c => { c with tail := none })
      (s.dramWrite u.tailRecord (leBytes 256 l.toNat)).modUpd k (fun x => { x with tail := tailEntries l, tailSeen := true }))
  | _, _ => s

/-- CURTAIN_TAIL_DELIVERED (R256). -/
def execCurtainTailDelivered (company : Nat) (s : State) : Host.Outcome State Fault Refusal :=
  onCompany company s (fun s => s.tailDelivered company)

/-- The checks and effect of a roll forward (R299) (DEDUCED, log 52). -/
def rollBody (company : BitVec 4) (tailAddr : BitVec 48) (s : State) (_ : Nat) : Answer :=
  let k := company.toNat
  let c := s.co k
  match c.seq.image.bind (fun i => i.update) with
  | none => { state := s, status := stLocked }
  | some u =>
    if c.seq.state = .stopped ∧ c.upd.verdict = .incomplete ∧ s.passComplete k u = true then
      let tail := tailEntries (mline s.dram tailAddr.toNat)
      if tailCommits c.seq.members tail then
        { state := (s.commitBank k u (if c.upd.restored then 0 else c.upd.passDigest)).flushPosted k }
      else { state := s, status := stDenied }
    else { state := s, status := stLocked }

/-- RPR_ROLL_FORWARD (R299). -/
def execRprRollForward (h : Pkt) (company : BitVec 4) (tailAddr : BitVec 48) (s : State) : Host.Outcome State Fault Refusal :=
  .next (s.serve h 0x0484#16 [(4, company.toNat), (48, tailAddr.toNat)] true .never (rollBody company tailAddr))

end Sys2Proof.Machine
end

