-- ==== Sys2Proof/Machine/Collective.lean ====
section
/-!
DEFINITION. The collective engine (R205 to R222): how chunks start and end, the torus lines that sums and permutes send and receive (R177 to
R183), its DRAM accesses (R207), and the re-shard (R227 to R229). A restore's lines travel as lines of plan 0x0000 (R297).
-/

namespace Sys2Proof.Machine

/-! ### Lines handed over (R212 to R220) -/

/-- A line of a sum is handed over (R212 to R215): added to this member's contribution, or a result that goes on. -/
def State.sumLine (s : State) (k : Nat) (p : Plan) (ci : Nat) (c : Chunk) (pl : LinePlace) (cycle : Nat) (data : Line) : State :=
  let st := s.stagesOf k p c
  match st[pl.stage]?, (s.co k).activeChunk p.id ci with
  | some t, some a =>
    match t.shardOf c.lines pl.line with
    | none => s
    | some (plus, j) =>
      if pl.back then
        let s := s.modActive k p.id ci (fun a => { a with lines := tset 0 a.lines pl.line data })
        let s := s.deliver k p.id ci c (halfE t.ax) pl.line (cycle + 6) data
        let next := if plus then (t.me + 1) % t.len else (t.me + t.len - 1) % t.len
        let s := if next = j then s else s.sumReady k p ci c pl.stage true pl.line (cycle + 6) data
        s.sendOn k p ci c pl.stage (halfE t.ax) pl.line (cycle + 6) data
      else
        let sum := addLines (if pl.line = c.lines then 3 else p.format) data (tget 0 a.lines pl.line)
        if j = t.me then
          let cross := (st[pl.stage + 1]?).elim 0 (fun u => crossing (halfE t.ax) (halfE u.ax))
          s.contribute k p ci c (pl.stage + 1) pl.line (cycle + 6 + cross) sum
        else
          (s.modActive k p.id ci (fun a => { a with lines := tset 0 a.lines pl.line sum })).sumReady k p ci c pl.stage false pl.line (cycle + 6) sum
  | _, _ => s

/-- A line of a permute is handed over (R217, R220): written at its destination, or forwarded. -/
def State.permuteLine (s : State) (k : Nat) (p : Plan) (ci : Nat) (c : Chunk) (pl : LinePlace) (cycle : Nat) (data : Line) : State :=
  let ax := p.axes.getD 0 0
  let (plus, links) := permuteWay ((s.co k).seq.axisLen ax) c.dist
  if pl.stage < links then
    s.ready (dirPort ax plus) { company := k, plan := p.id, place := { pl with stage := pl.stage + 1 }, due := cycle + 4, issue := c.issue,
                                rank := pl.stage, forwarded := true, data := data }
  else if c.recv ∧ pl.line < c.lines then
    (s.modCol k (fun x => { x with got := tmod 0 x.got (65536 * p.id + ci) (fun n => n + 1) })).deliver k p.id ci c (halfE ax) pl.line cycle data
  else s

/-! ### Starting and ending a chunk (R214 to R216, R219, R255) -/

/-- The count word of a permute, read through port B at ISSUE: none for a static one (R210, R219). -/
def State.countWord (s : State) (k v : Nat) (c : Chunk) : Option Nat × State :=
  if nbits c.count 47 47 = 0 then (none, s)
  else match s.relPhys k (nbits c.count 26 22) (nbits c.count 21 17) with
    | some p => match State.tileLine (s.stageEnd k - v) s p v (nbits c.count 16 0) with
      | some (l, _, s) => (some (lineBits l (32 * nbits c.count 37 32) 32), s)
      | none => (none, s)
    | none => (none, s)

/-- Lines above the capacity are never sent: counted, and logged once per plan per step (R219). -/
def State.noteClipped (s : State) (k : Nat) (p : Plan) (ci : Nat) (c : Chunk) (count : Nat) : State :=
  if count ≤ c.lines then s
  else
    let s := s.modCol k (fun x => { x with
      clippedLines := x.clippedLines + BitVec.ofNat 32 (count - c.lines), clippedChunks := x.clippedChunks + 1 })
    if (s.co k).seq.clipped.contains p.id then s
    else (s.modSeq k (fun q => { q with clipped := p.id :: q.clipped })).log 3 0 1 k 0x0902#16 [(16, p.id), (16, ci), (32, count)]

/-- A chunk's source lines in the order in which they are read: for a sum in send order with its tail, for a permute every line of its
capacity where this module sends (R215, R218, R219). -/
def State.fetchOrder (s : State) (k : Nat) (p : Plan) (c : Chunk) : List Nat :=
  if p.permute then (if c.send then List.range c.lines else [])
  else match s.stagesOf k p c with
    | t :: _ => t.sendOrder c.lines
    | [] => List.range (c.lines + b2n c.tail)

/-- The next chunk of a plan starts at ISSUE (R208, R209, R215, R219). -/
def State.chunkStart (s : State) (k id : Nat) : State :=
  let c := s.co k
  let i := tget 0 c.col.next id
  match c.plan id with
  | none => s
  | some p =>
    match p.chunks[i]? with
    | none => s
    | some ch =>
      if c.seq.starting || !c.planRuns id then s
      else
        let v := c.seq.issueBase + ch.issue
        (s.stageFrom k v).elim s (fun s =>
          let (count, s) := if p.permute ∧ ch.send then s.countWord k v ch else (none, s)
          let s := s.noteClipped k p i ch (count.getD 0)
          let a : ActiveChunk := { plan := id, index := i, chunk := ch, fetch := s.fetchOrder k p ch, fetchAt := v,
                                   count := min (count.getD ch.lines) ch.lines, lastEvent := v }
          s.modCol k (fun x => { x with next := tset 0 x.next id (i + 1), active := x.active ++ [a] }))

/-- COLLECTIVE_CHUNK_START (R215). -/
def execCollectiveChunkStart (company : Nat) (plan : BitVec 16) (s : State) : Host.Outcome State Fault Refusal :=
  onCompany company s (fun s => s.chunkStart company plan.toNat)

/-- A chunk has had its last event on this module: a sum has delivered its results; a permute has used its transmit positions and, where it
receives a static chunk, written its lines. A chunk that has lost a line does not wait for what cannot come (R216) (DEDUCED, log 49). -/
def State.chunkEnded (s : State) (k : Nat) (p : Plan) (a : ActiveChunk) : Bool :=
  a.fetch.isEmpty &&
    (if p.permute then (!a.chunk.send || decide (a.used = a.chunk.lines)) &&
        (!a.chunk.recv || decide (nbits a.chunk.count 47 47 ≠ 0) || decide (a.chunk.lines ≤ a.delivered) || a.short)
      else decide (s.resultCount k p a.chunk ≤ a.delivered) || a.short)

/-- The oldest chunk of a plan is done, 2 cycles after its last event: CHUNKS counts it, AMOUNT is posted, and the digest plan's last chunk
brings the comparison (R216, R235, R257). -/
def State.chunkDone (s : State) (k id : Nat) : State :=
  match (s.co k).plan id, (s.co k).col.active.find? (fun a => a.plan = id) with
  | some p, some a =>
    if s.chunkEnded k p a then
      (s.stageFrom k (a.lastEvent + 2)).elim s (fun s =>
        let s := s.modCol k (fun x => { x with active := x.active.filter (fun b => decide (b.plan ≠ id) || decide (b.index ≠ a.index)), chunks := x.chunks + 1 })
        let s := if p.amount = 0 then s else s.stagePost k p.ctrIndex p.ctrGen p.amount
        match (s.co k).seq.image.bind (fun i => i.update) with
        | some u => if u.digestPlan = id ∧ a.index + 1 = p.chunks.length then s.compareDigests k u else s
        | none => s)
    else s
  | _, _ => s

/-! ### DRAM accesses of the engine (R207, R215) -/

/-- The line that the company's chunks read next on channel `c`: of the chunk that started first, the first in its order. -/
def State.colWants (s : State) (k c : Nat) : Option (ActiveChunk × Nat) :=
  ((s.co k).col.active.filter (fun a => decide (a.chunk.srcKind = 2))).findSome? (fun a =>
    (a.fetch.find? (fun i => decide (chanOf (a.chunk.src + 256 * i) = c))).map (fun i => (a, i)))

/-- The DRAM address of the next access of a source line. -/
def ActiveChunk.readAddr (a : ActiveChunk) (i : Nat) : Nat := a.chunk.src + 256 * i + 64 * tget 0 a.reads i

/-- One access of a source line; with its fourth the line is read, and ready 48 stage cycles later, plus the bridge crossing (R215). -/
def State.colRead (s : State) (k slot : Nat) (a : ActiveChunk) (i : Nat) : State :=
  let at_ := a.readAddr i
  let n := tget 0 a.reads i
  let (d, _, s) := s.eccAccess k at_ false (tget 0 s.dramFlips (at_ / 64))
  let l := putAccess (tget 0 a.lines i) n d
  let s := s.modActive k a.plan a.index (fun a => { a with lines := tset 0 a.lines i l, reads := tset 0 a.reads i (n + 1) })
  if n = 3 then
    let half := ((s.co k).plan a.plan).elim false (fun p => p.half)
    s.lineRead k a i 0 (slotBegin slot + 48 + crossing half (decide (24 ≤ a.chunk.src / quarterBytes))) l
  else s

/-- The oldest result line that is due on channel `c` by slot `slot` (R207). -/
def State.colWrites (s : State) (k c slot : Nat) : Option LineWrite :=
  (s.co k).col.writes.find? (fun w => decide (chanOf w.addr = c) && decide (w.due ≤ slotBegin slot))

/-- One access of a result line. -/
def State.colWrite (s : State) (k : Nat) (w : LineWrite) : State :=
  let s := s.dramWrite (w.addr + 64 * w.access) (getAccess w.data w.access)
  s.modCol k (fun x => { x with writes :=
    if w.access = 3 then x.writes.erase w else x.writes.map (fun y => if y = w then { y with access := y.access + 1 } else y) })

/-! ### Restore lines (R297) -/

/-- DRAM address of line `i` of a restore: of the partner's image, or of the own bank in list order. -/
def RestoreSession.addr (r : RestoreSession) (i : Nat) : Nat :=
  if r.image then (if r.bank then r.list.imageB else r.list.imageA) + 256 * i else listAddr r.bank r.list.records i

/-- The session of port `p` and company `k` in a direction. -/
def State.restoreOn (s : State) (sending : Bool) (k p : Nat) : Option RestoreSession :=
  s.restore.sessions.find? (fun r => decide (r.sending = sending) && decide (r.port = p) && decide (r.company = k))

/-- One more line of a restore, which its running CRC-32 takes in. -/
def State.restoreCount (s : State) (r : RestoreSession) (st : BitVec 4) (cycle : Nat) (bs : List Byte) : State :=
  { s with restore := { s.restore with
    lines := if s.restoreShown r then s.restore.lines + 1 else s.restore.lines,
    state := if s.restoreShown r then st else s.restore.state,
    sessions := s.restore.sessions.map (fun x =>
      if x.port = r.port then { x with count := x.count + 1, crc := bs.foldl (crcStep 0xEDB88320#32) x.crc, sentAt := cycle + 1 } else x) } }

/-- A restore line is written as it arrives. -/
def State.restoreGot (s : State) (r : RestoreSession) (data : Line) : State :=
  let bs := leBytes 256 data.toNat
  if r.count < r.list.lines then (s.dramWrite (r.addr r.count) bs).restoreCount r 3 0 bs else s

/-- The 512-byte header of the sender's own committed bank; zero without an UPDATE section (R298). -/
def State.ownHeader (s : State) (k : Nat) : List Byte :=
  match (s.co k).seq.image.bind (fun i => i.update) with
  | none => List.replicate 512 0
  | some u => mread s.dram (if (s.co k).upd.committed then u.headerB else u.headerA) 512

/-! ### LINE frames (R177 to R183) -/

/-- The bytes of a LINE frame that its CRC-32 covers: its fields in the order of R179 (DESIGN CHOICE, log 105). -/
def lineFrameBytes (k plan : Nat) (seq cycle : BitVec 16) (data : Line) : List Byte :=
  leBytes 1 k ++ leBytes 2 plan ++ leBytes 2 seq.toNat ++ leBytes 2 cycle.toNat ++ leBytes 256 data.toNat

/-- Sends a LINE frame with the sub-link's next sequence number and its CRC-32 (R179). -/
def State.sendLine (s : State) (p k plan cycle : Nat) (data : Line) : State :=
  let n := tget 0 (s.port p).seqTx k
  let c := BitVec.ofNat 16 cycle
  (s.modPort p (fun x => { x with seqTx := tset 0 x.seqTx k (n + 1) })).send p (.line k plan n c data (crc32 (lineFrameBytes k plan n c data)))

/-- A line of a restore leaves, on all 16 lanes; with the last one the CRC-32 of all lines and the header of the own committed bank follow
on the control channel (R297, R298) (DEDUCED, log 53). -/
def State.restoreSend (s : State) (r : RestoreSession) (cycle : Nat) : State :=
  if r.count < r.list.lines ∧ transmitAt 16 cycle ∧ r.sentAt ≤ cycle then
    let (bs, _, s) := s.dramGet r.company (r.addr r.count) 256 true
    let s := (s.sendLine r.port r.company 0 cycle (BitVec.ofNat 2048 (leNat bs))).restoreCount r 2 cycle bs
    if r.count + 1 = r.list.lines then
      s.send r.port (.restoreEnd r.company (~~~(bs.foldl (crcStep 0xEDB88320#32) r.crc)) (s.ownHeader r.company))
    else s
  else s

/-- A line takes the transmit position at stage cycle `cycle`: it leaves in a frame, unless it is one of the positions after a permute's
count, or the port has gone down (R178, R190, R215, R218, R219). -/
def State.takePosition (s : State) (k p cycle : Nat) (l : TorLine) : State :=
  let s := s.modPort p (fun x => { x with txq := x.txq.erase l, sentAt := tset 0 x.sentAt k (cycle + 1) })
  let s := if l.forwarded then s
    else s.modActive k l.plan l.place.chunk (fun a => { a with used := a.used + 1, occupying := true, lastEvent := max a.lastEvent cycle })
  if l.blank ∨ (s.port p).state ≠ .active then s else s.sendLine p k l.plan cycle l.data

/-- A line of the company's plans leaves at a transmit position of its sub-link, or a line of a restore (R178, R215, R297). -/
def State.lineSend (s : State) (k p cycle : Nat) : State :=
  match s.restoreOn true k p with
  | some r => s.restoreSend r cycle
  | none =>
    (s.stageAt k cycle).elim s (fun s =>
      if transmitAt ((s.co k).laneCount p) cycle && decide (tget 0 (s.port p).sentAt k ≤ cycle) then
        (s.nextLine k p cycle).elim s (fun l => s.takePosition k p cycle l)
      else s)

/-- TORUS_LINE_SEND (R178). -/
def execTorusLineSend (company : Nat) (port : BitVec 3) (cycle : Nat) (s : State) : Host.Outcome State Fault Refusal :=
  onCompany company s (fun s => s.lineSend company port.toNat cycle)

/-- A line of the company has been lost: the chunks in progress know it (R183) (DEDUCED, log 49). -/
def State.markShort (s : State) (k : Nat) : State :=
  s.modCol k (fun c => { c with active := c.active.map (fun a => { a with short := true }) })

/-- Frames missing before a sequence number (R183): each is logged and counted (DEDUCED, log 48). -/
def State.noteGap (s : State) (k p : Nat) (seq : BitVec 16) : State :=
  let want := tget 0 (s.port p).seqRx k
  let gap := (seq - want).toNat
  let s := s.modPort p (fun x => { x with seqRx := tset 0 x.seqRx k (seq + 1), lost := satAdd x.lost gap })
  let s := if gap = 0 then s else s.markShort k
  iter gap (fun i s => (s.addFaults k 1).log 2 p 2 k 0x0801#16 [(4, k), (16, (want.toNat + i) % 65536)]) s

/-- The stage cycle nearest to `now` whose low 16 bits are `low`. -/
def nearCycle (now low : Nat) : Nat :=
  let n := (low + 65536 - now % 65536) % 65536
  if n < 32768 then now + n else now + n - 65536

/-- A line of a company waits in the receive buffer for its hand-over at its send cycle plus 2,048; one that arrives after that is handed
over in its arrival cycle (R181, R182) (DEDUCED, log 48). -/
def State.bufferLine (s : State) (k p plan : Nat) (cycle : BitVec 16) (data : Line) (place : LinePlace) : State :=
  let now := (s.co k).seq.stageCycle.toNat
  let due := nearCycle now ((cycle + 2048).toNat)
  s.modPort p (fun x => { x with recv := x.recv ++
    [{ company := k, plan := plan, place := place, due := max due now, late := now - due, issue := 0, rank := 0, forwarded := false, data := data }] })

/-- The lane that has failed belongs to the company's sub-link, or to a restore, which has them all (R193, R297). -/
def State.laneLost (s : State) (k p : Nat) : Bool :=
  (s.port p).failedLanes.any (fun l => (s.restoreOn false k p).isSome || (s.co k).lanes.any (fun r => decide (r.1 = p) && decide (r.2.1 ≤ l) && decide (l < r.2.1 + r.2.2)))

/-- A LINE frame arrives (R182, R183, R193, R232, R297) (DEDUCED, log 48; DEDUCED, log 49). -/
def State.lineReceive (s : State) (k p plan : Nat) (seq cycle : BitVec 16) (data : Line) (crc : Word) (place : LinePlace) : State :=
  if (s.port p).state ≠ .active ∨ crc ≠ crc32 (lineFrameBytes k plan seq cycle data) ∨ s.laneLost k p = true then s
  else match s.restoreOn false k p with
    | some r =>
      let lost := decide (seq ≠ tget 0 (s.port p).seqRx k)
      let s := s.modPort p (fun x => { x with seqRx := tset 0 x.seqRx k (seq + 1) })
      if lost then s.restoreFail r 0 else if plan = 0 then s.restoreGot r data else s
    | none =>
      if (s.co k).onPort p then
        let s := s.noteGap k p seq
        if ((s.co k).plan plan).isNone then ((s.addFaults k 1).markShort k).log 3 0 2 k 0x0901#16 [(4, k), (16, plan), (3, p)]
        else if 192 * (s.co k).laneCount p ≤ ((s.port p).recv.filter (fun l => l.company = k)).length then
          (((s.modPort p (fun x => { x with overflow := satAdd x.overflow 1 })).addFaults k 1).markShort k).log 2 p 2 k 0x0803#16 [(4, k), (16, plan)]
        else s.bufferLine k p plan cycle data place
      else s

/-- TORUS_LINE_RECEIVE (R182). -/
def execTorusLineReceive (company : Nat) (port : BitVec 3) (plan : BitVec 16) (seq : BitVec 16) (sendCycle : BitVec 16)
    (payload : Line) (crc : Word) (place : LinePlace) (s : State) : Host.Outcome State Fault Refusal :=
  onCompany company s (fun s => s.lineReceive company port.toNat plan.toNat seq sendCycle payload crc place)

/-- A line that has been handed over goes to its chunk (R212 to R220). -/
def State.takeLine (s : State) (k cycle : Nat) (l : TorLine) : State :=
  match (s.co k).plan l.plan with
  | none => s
  | some pl =>
    match pl.chunks[l.place.chunk]? with
    | none => s
    | some c =>
      if pl.permute then s.permuteLine k pl l.place.chunk c l.place cycle l.data
      else s.sumLine k pl l.place.chunk c l.place cycle l.data

/-- The company's line that is due in stage cycle `cycle` is handed over; one that came late is counted (R181, R182). -/
def State.lineHandover (s : State) (k p cycle : Nat) : State :=
  match (s.port p).recv.find? (fun l => decide (l.company = k) && decide (l.due ≤ cycle)) with
  | none => s
  | some l =>
    (s.stageAt k cycle).elim s (fun s =>
      let s := s.modPort p (fun x => { x with recv := x.recv.erase l })
      let s := if l.late = 0 then s
        else ((s.modPort p (fun x => { x with late := satAdd x.late 1 })).addFaults k 1).log 2 p 2 k 0x0802#16 [(4, k), (16, l.late)]
      s.takeLine k cycle l)

/-- TORUS_LINE_HANDOVER (R181). -/
def execTorusLineHandover (company : Nat) (port : BitVec 3) (cycle : Nat) (s : State) : Host.Outcome State Fault Refusal :=
  onCompany company s (fun s => s.lineHandover company port.toNat cycle)

/-! ### Re-shard (R227 to R229) -/

/-- Lines that a chunk reads or writes: kind, first line and lines. -/
def Chunk.reads (c : Chunk) : List (Nat × Nat × Nat) := if c.send then [(c.srcKind, if c.srcKind = 2 then c.src / 256 else c.src, c.lines)] else []
def Chunk.writes (c : Chunk) : List (Nat × Nat × Nat) :=
  if c.recv ∧ c.dstKind ≠ 3 then [(c.dstKind, if c.dstKind = 2 then c.dst / 256 else c.dst, c.lines)] else []

/-- A destination line of a re-shard plan is also a source line of it (R227). -/
def plansClash (ps : List Plan) : Bool :=
  let cs := ps.flatMap (fun p => p.chunks)
  (cs.flatMap Chunk.writes).any (fun w => (cs.flatMap Chunk.reads).any (fun r =>
    decide (w.1 = r.1) && decide (w.2.1 < r.2.1 + r.2.2) && decide (r.2.1 < w.2.1 + w.2.2)))

/-- An entry of a re-shard plan names DRAM or an engine that another company holds (R227). -/
def State.planForeign (s : State) (k a len : Nat) : Bool :=
  let np := s.rd a 4
  let ne := min (s.rd (a + 4) 4) (len / 32)
  (List.range ne).any (fun i =>
    let w := s.rd (a + 16 + 64 * np + 32 * i) 32
    let foreign := fun kind v => match kind with
      | 2 => decide (v < dramBytes) && decide (s.quarterOwner (v / quarterBytes) ≠ k)
      | 3 => decide (v < 48) && decide (s.quarterOwner v ≠ k)
      | _ => false
    foreign (nbits w 199 198) (nbits w 187 140) || foreign (nbits w 197 196) (nbits w 139 92))

/-- The checks of COL_RESHARD in the order of R227; without an UPDATE section it is refused (R247). -/
def reshardCheck (addr len epochs ctr : Nat) (s : State) (k : Nat) : Option (Byte × Nat) :=
  let staged := (s.co k).txn.opened.elim [] (fun o => o.staged)
  let noUpdate := ((s.co k).seq.image.bind (fun i => i.update)).isNone
  if !(s.ownsDram k addr len) || (s.absCtr k ctr).isNone || s.planForeign k addr len then some (stDenied, 0)
  else if hasReshard staged ∨ epochs = 0 ∨ noUpdate = true then some (stBadArg, 0)
  else match readPlans s (s.loadCtx k) true { base := addr, len := len } with
    | none => some (stBadArg, 0)
    | some ps => if plansClash ps then some (stBadArg, 0) else none

/-- COL_RESHARD (R227). -/
def execColReshard (h : Pkt) (planAddr : BitVec 48) (planBytes : Word) (phaseEpochs : BitVec 8) (ctrIndex : BitVec 13)
    (ctrGen : BitVec 8) (s : State) : Host.Outcome State Fault Refusal :=
  .next (s.serve h 0x0901#16 [(48, planAddr.toNat), (32, planBytes.toNat), (8, phaseEpochs.toNat), (13, ctrIndex.toNat), (8, ctrGen.toNat)] false .curtain
    (stageOr h (.colReshard h planAddr planBytes phaseEpochs ctrIndex ctrGen)
      (reshardCheck planAddr.toNat planBytes.toNat phaseEpochs.toNat ctrIndex.toNat)
      (fun s k => State.applyCurtain k false (.colReshard h planAddr planBytes phaseEpochs ctrIndex ctrGen) s)))

/-- Lines of a plan's static permutes that have not arrived (R229). -/
def Col.missingOf (c : Col) (p : Plan) : Nat :=
  ((List.range p.chunks.length).map (fun i => match p.chunks[i]? with
    | some ch => if ch.recv ∧ nbits ch.count 47 47 = 0 then ch.lines - tget 0 c.got (65536 * p.id + i) else 0
    | none => 0)).foldl (· + ·) 0

/-- The re-shard phase ends (R228, R229): the script stops, the result is set and the counter advances. -/
def State.reshardEnd (s : State) (k : Nat) : State :=
  let c := s.co k
  match c.col.reshard with
  | none => s
  | some (ps, epochs, ctr, gen) =>
    if c.seq.phase = .reshard ∧ 65536 * epochs ≤ c.seq.phaseCycle then
      let bad := ps.filter (fun p => c.col.missingOf p ≠ 0)
      let s := bad.foldl (fun s p => s.log 3 0 1 k 0x0903#16 [(16, p.id), (32, c.col.missingOf p)]) s
      let s := (s.haltScript k).modCol k (fun x => { x with reshardResult := if bad.isEmpty then 1 else 3 })
      s.stagePost k ctr gen 1
    else s

/-- RESHARD_PHASE_END (R229). -/
def execReshardPhaseEnd (company : Nat) (s : State) : Host.Outcome State Fault Refusal :=
  onCompany company s (fun s => s.reshardEnd company)

end Sys2Proof.Machine
end

