-- ==== Sys2Proof/Machine/Snapshot.lean ====
section
/-!
DEFINITION. The snapshot commands and events (R276 to R283) and the restore commands and events (R295, R297, R298).
-/

namespace Sys2Proof.Machine

/-! ### PAK_SNAP_SET (R276, R277, R347, R362) -/

/-- Data bytes of the one message that seals a snapshot of a bank list (R280, R362). -/
def snapData (l : BankList) : Nat :=
  let n := 512 + 256 * l.lines
  n + 16 * cdiv n 65536 + 32

/-- A queue handle of a company: DENIED outside its grant, STALE where its generation has advanced (R384, R399). -/
def State.queueCheck (s : State) (k q : Nat) (gen : BitVec 8) : Option (Byte × Nat) :=
  match s.absQueue k q with
  | none => some (stDenied, 0)
  | some a => if (s.queue a).gen = gen then none else some (stStale, 0)

/-- The company's channel is bound in the nonce mode asked for (R347): DENIED outside its grant. -/
def State.chanCheck (s : State) (k c : Nat) (explicit : Bool) : Option (Byte × Nat) :=
  match s.absChan k c with
  | none => some (stDenied, 0)
  | some a => if (s.cipChan a).bound ∧ (s.cipChan a).nonce = explicit then none else some (stBadArg, 0)

/-- The checks of PAK_SNAP_SET (R247, R277, R347, R362) (DEDUCED, log 62). -/
def snapCheck (every listAddr : Nat) (dest : BitVec 2) (queue : Nat) (gen : BitVec 8) (cipher : BitVec 9) (pack : Bool) (width : BitVec 2)
    (s : State) (k : Nat) : Option (Byte × Nat) :=
  match s.readBankList k listAddr with
  | none => some (stBadArg, 0)
  | some l =>
    let none_ := decide (cipher = 0x1FF#9)
    if ((s.co k).seq.image.bind (fun i => i.update)).isNone ∨ every = 0 ∨ dest = 3 ∨ width = 3 ∨ (none_ = false ∧ 256 ≤ cipher.toNat) ∨
        (pack = true ∧ none_ = false) ∨ (dest ≠ 0 ∧ none_ = true) ∨ (none_ = false ∧ 2 ^ 36 - 32 < snapData l) then some (stBadArg, 0)
    else if dest ≠ 0 ∧ s.hasShare k (destPort dest) = false then some (stDenied, 0)
    else match if none_ then none else s.chanCheck k cipher.toNat false with
      | some e => some e
      | none => if dest = 0 then s.queueCheck k queue gen else none

/-- PAK_SNAP_SET (R276, R277). -/
def execPakSnapSet (h : Pkt) (enable : Bool) (every : BitVec 16) (listAddr : BitVec 48) (dest : BitVec 2) (queue : BitVec 13)
    (queueGen : BitVec 8) (cipher : BitVec 9) (pack : Bool) (width : BitVec 2) (s : State) : Host.Outcome State Fault Refusal :=
  .next (s.serve h 0x0601#16 [(1, b2n enable), (16, every.toNat), (48, listAddr.toNat), (2, dest.toNat), (13, queue.toNat), (8, queueGen.toNat), (9, cipher.toNat), (1, b2n pack), (2, width.toNat)] false .curtain
    (stageOr h (.pakSnapSet h enable every listAddr dest queue queueGen cipher pack width)
      (snapCheck every.toNat listAddr.toNat dest queue.toNat queueGen cipher pack width)
      (fun s k => s.applySnap k enable every.toNat listAddr.toNat dest queue.toNat queueGen cipher pack width)))

/-! ### Stream events (R279 to R283) -/

/-- SNAPSHOT_BLOCK (R281, R282, R284). -/
def execSnapshotBlock (company : Nat) (s : State) : Host.Outcome State Fault Refusal := onCompany company s (fun s => s.streamBlock company)

/-- SNAPSHOT_READS_DONE (R279). -/
def execSnapshotReadsDone (company : Nat) (s : State) : Host.Outcome State Fault Refusal :=
  onCompany company s (fun s => s.streamReadsDone company)

/-- SNAPSHOT_STREAM_END (R280). -/
def execSnapshotStreamEnd (company : Nat) (s : State) : Host.Outcome State Fault Refusal := onCompany company s (fun s => s.streamEnd company)

/-! ### Restores (R295, R297, R298) -/

/-- Every company with lanes on the port is empty, loaded or stopped, and no other restore is in progress on it (R297). -/
def State.restoreFree (s : State) (p : Nat) : Bool :=
  !s.restore.sessions.any (fun r => r.port = p) && (0 :: companyList).all (fun k => !(s.co k).onPort p ||
    (let q := (s.co k).seq.state; decide (q = .empty) || decide (q = .loaded) || decide (q = .stopped)))

/-- The checks and the start of a restore at one end (R275, R297); an image outside the company's DRAM is DENIED (R384) (DEDUCED, log 53). -/
def restoreBody (h : Pkt) (sending : Bool) (company p : Nat) (image bank : Bool) (listAddr timeoutMs : Nat) (s : State) (_ : Nat) : Answer :=
  match s.readBankList company listAddr with
  | none => { state := s, status := stBadArg }
  | some l =>
    if image = true ∧ s.ownsDram company (if bank then l.imageB else l.imageA) (256 * l.lines) = false then { state := s, status := stDenied }
    else if s.restoreFree p = false then { state := s, status := stLocked }
    else if (s.port p).state ≠ .active then { state := s, status := stFault }
    else
      let x : RestoreSession :=
        { sending := sending, company := company, port := p, image := image, bank := bank, list := l, cmd := h,
          deadline := s.nowNs + 1000000 * timeoutMs }
      let s := { s with restore := { lines := 0, company := BitVec.ofNat 4 company, port := BitVec.ofNat 3 p,
                                     state := if sending then 2 else 1, sessions := s.restore.sessions ++ [x] } }
      { state := if sending then s.send p (.restoreOffer company l.lines) else s, waits := true }

/-- RPR_RESTORE_SEND (R297). -/
def execRprRestoreSend (h : Pkt) (company : BitVec 4) (port : BitVec 3) (source : Bool) (bank : Bool) (listAddr : BitVec 48) (s : State) :
    Host.Outcome State Fault Refusal :=
  .next (s.serve h 0x0482#16 [(4, company.toNat), (3, port.toNat), (1, b2n source), (1, b2n bank), (48, listAddr.toNat)] true .never (restoreBody h true company.toNat port.toNat (!source) bank listAddr.toNat 0))

/-- RPR_RESTORE_RECV (R297). -/
def execRprRestoreRecv (h : Pkt) (company : BitVec 4) (port : BitVec 3) (target : Bool) (bank : Bool) (listAddr : BitVec 48)
    (timeoutMs : BitVec 16) (s : State) : Host.Outcome State Fault Refusal :=
  .next (s.serve h 0x0483#16 [(4, company.toNat), (3, port.toNat), (1, b2n target), (1, b2n bank), (48, listAddr.toNat), (16, timeoutMs.toNat)] true .never (restoreBody h false company.toNat port.toNat target bank listAddr.toNat timeoutMs.toNat))

/-- What a receiver with TARGET 0 does when the restore is done (R298): the bank's header is written from the sender's, and the pass of a bank
that is not committed is complete. Where no UPDATE section says where the header lies it waits for the next load (DEDUCED, log 53). -/
def State.restoreBank (s : State) (r : RestoreSession) (header : List Byte) : State :=
  match (s.co r.company).seq.image.bind (fun i => i.update) with
  | none => { s with restore := { s.restore with headers :=
      (r.company, r.bank, header) :: s.restore.headers.filter (fun x => decide (x.1 ≠ r.company) || decide (x.2.1 ≠ r.bank)) } }
  | some u =>
    (s.writeHeader (if r.bank then u.headerB else u.headerA) header).modUpd r.company
      (fun x => { x with restored := x.restored || decide (r.bank ≠ x.committed) })

/-- A restore ends on its port: with every line there and the CRC-32 of all lines equal at both ends, DONE (R297, R298) (DEDUCED, log 53). -/
def State.restoreComplete (s : State) (p : Nat) (outcome : RestoreEnd) : State :=
  match s.restore.sessions.find? (fun r => r.port = p) with
  | none => s
  | some r =>
    match outcome with
      | .ok header crc =>
        if r.count = r.list.lines then
          if crc = ~~~r.crc then (if r.sending = false ∧ r.image = false then s.restoreBank r header else s).restoreEnd r 4 stDone
          else s.restoreFail r 1
        else s
      | .linesDiffer => s.restoreEnd r 5 stBadArg
      | .frameLost => s.restoreFail r 0
      | .crcMismatch => s.restoreFail r 1
      | .portLost => s.restoreFail r 2

/-- RESTORE_COMPLETE (R297). -/
def execRestoreComplete (port : BitVec 3) (outcome : RestoreEnd) (s : State) : Host.Outcome State Fault Refusal :=
  .next (s.restoreComplete port.toNat outcome)

/-- The receiver's TIMEOUT_MS passes before its first line (R297). -/
def State.restoreTimeout (s : State) (p : Nat) : State :=
  match s.restore.sessions.find? (fun r => r.port = p) with
  | none => s
  | some r => if r.sending = false ∧ r.count = 0 ∧ r.deadline ≤ s.nowNs then s.restoreFail r 3 else s

/-- RESTORE_TIMEOUT (R297). -/
def execRestoreTimeout (port : BitVec 3) (s : State) : Host.Outcome State Fault Refusal := .next (s.restoreTimeout port.toNat)

end Sys2Proof.Machine
end

