-- ==== Sys2Proof/Machine/CipherCtl.lean ====
section
/-!
DEFINITION. The host's register accesses in general (R11, R370, R402, R470), and the cipher engine's commands and key registers (R345 to
R364).
-/

namespace Sys2Proof.Machine

/-! ### Register accesses -/

/-- A function's accesses reach the module: its PCIe link is up, and a virtual function has appeared (R470). -/
def State.reaches (s : State) (f : Nat) : Bool := s.boot.pcieUp && (decide (f = 0) || s.boot.vfEnable)

/-- A register write of function `f`, which a frozen function's never are (R402): a function above 16 is a fault of the model. -/
def onFunction (f : Nat) (s : State) (w : State → State) : Host.Outcome State Fault Refusal :=
  if 16 < f then .fault (.noSuchUnit f)
  else .next (if s.reaches f ∧ (s.func f).frozen = false then w s else s)

/-- A write to a locked field: dropped, logged, and its function frozen unless it is the house's (R11, R401, R430). -/
def State.lockedWrite (s : State) (f offset : Nat) (value : Nat) : State :=
  s.violation ((s.funcCo f).getD 0) 0x10 (.function f) [(32, offset), (32, value)]

/-! ### CIP commands (R354, R355, R363, R364) -/

/-- A key takes a slot's place (R352, R364). -/
def State.installKey (s : State) (slot key use : Nat) (unwrapped : Bool) : State :=
  s.modKeySlot slot (fun _ => { key := BitVec.ofNat 256 key, use := BitVec.ofNat 2 use, unwrapped := unwrapped })

/-- The key-encryption key that a blob names: the device KEK, or a KEK slot of the company; an error status otherwise (R354, R364). -/
def State.kekOf (s : State) (k ks : Nat) : Except Byte (List Byte) :=
  if ks = 0xFF then .ok (deviceKek s.serial)
  else if 64 ≤ ks then .error stBadArg
  else match s.absSlot k ks with
    | none => .error stDenied
    | some n => if (s.keySlot n).use = 2 then .ok (s.keySlot n).bytes else .error stBadArg

/-- The checks and effect of CIP_KEY_UNWRAP (R354, R364). -/
def unwrapBody (slot a : Nat) (s : State) (k : Nat) : Answer :=
  let fail := fun (e : Byte) => ({ state := s, status := e } : Answer)
  match s.absSlot k slot with
  | none => fail stDenied
  | some n =>
    let blob := mread s.dram a 72
    let at_ := fun (i : Nat) => (blob.getD i 0).toNat
    if s.ownsDram k a 72 = false ∨ at_ 4 ≠ k then fail stDenied
    else match s.kekOf k (at_ 5) with
      | .error e => if e = stDenied then fail e else if (s.boundTo n).isEmpty then fail e else fail stLocked
      | .ok kek =>
        if (s.boundTo n).isEmpty = false then fail stLocked
        else if blob.take 2 ≠ ascii "KB" ∨ at_ 2 ≠ 1 ∨ (at_ 3 ≠ 1 ∧ at_ 3 ≠ 2) ∨ at_ 6 ≠ 0 ∨ at_ 7 ≠ 0 then fail stBadArg
        else
          let bad : Answer :=
            { state := s.log 6 0 1 k 0x0502#16 [(6, n), (8, at_ 5), (64, leNat ((blob.drop 8).take 8))], status := stBadArg }
          match kwUnwrap kek (blob.drop 16) with
          | none => bad
          | some p => if p.drop 32 = blob.take 16 then { state := s.installKey n (leNat (p.take 32)) (at_ 3) true } else bad

/-- CIP_KEY_UNWRAP (R364). -/
def execCipKeyUnwrap (h : Pkt) (slot : BitVec 6) (blobAddr : BitVec 48) (s : State) : Host.Outcome State Fault Refusal :=
  .next (s.serve h 0x0501#16 [(6, slot.toNat), (48, blobAddr.toNat)] false .never (unwrapBody slot.toNat blobAddr.toNat))

/-- CIP_KEY_CLEAR (R363). -/
def execCipKeyClear (h : Pkt) (slot : BitVec 6) (s : State) : Host.Outcome State Fault Refusal :=
  .next (s.serve h 0x0502#16 [(6, slot.toNat)] false .never (fun s k =>
    match s.absSlot k slot.toNat with
    | none => { state := s, status := stDenied }
    | some n => if (s.boundTo n).isEmpty then { state := s.modKeySlot n (fun _ => {}) } else { state := s, status := stLocked }))

/-- The checks and effect of CIP_CHAN_SET (R346, R364). -/
def chanSetBody (channel : Nat) (unbind : Bool) (slot : Nat) (nonce : Bool) (fixed : Word) (s : State) (k : Nat) : Answer :=
  match s.absChan k channel with
  | none => { state := s, status := stDenied }
  | some c =>
    if unbind then
      if s.cip.busy c then { state := s, status := stLocked } else { state := s.modCipChan c (fun _ => {}) }
    else match s.absSlot k slot with
      | none => { state := s, status := stDenied }
      | some n =>
        if s.cip.busy c then { state := s, status := stLocked }
        else if (s.keySlot n).use ≠ 1 ∨ (s.boundTo n).any (fun x => decide (x.1 ≠ c) && decide (x.2.nonce ≠ nonce)) then
          { state := s, status := stBadArg }
        else { state := s.modCipChan c (fun _ => { bound := true, slot := BitVec.ofNat 6 n, nonce := nonce, fixed := fixed }) }

/-- CIP_CHAN_SET (R364). -/
def execCipChanSet (h : Pkt) (channel : BitVec 8) (unbind : Bool) (slot : BitVec 6) (nonce : Bool) (fixed : Word) (s : State) :
    Host.Outcome State Fault Refusal :=
  .next (s.serve h 0x0503#16 [(8, channel.toNat), (1, b2n unbind), (6, slot.toNat), (1, b2n nonce), (32, fixed.toNat)] false .never (chanSetBody channel.toNat unbind slot.toNat nonce fixed))

/-! ### Key entry and the mode (R350 to R353, R366 to R368) -/

/-- BAR0 offsets of CIP_CTRL and CIP_KEY_CTL (R366). -/
def cipCtrlAt : Nat := 0x0500000
def cipKeyCtlAt : Nat := 0x0500120

/-- The eight data words as one key, byte 0 lowest (R366). -/
def Cip.keyWords (c : Cip) : Nat := leNat (c.keyData.flatMap (fun w => leBytes 4 w.toNat))

/-- A write of CIP_KEY_CTL by the physical function (R352, R353, R368). A GO with a reserved USE installs nothing (DEDUCED, log 85). -/
def State.keyCtl (s : State) (value : Word) : State :=
  let use := bits value 11 10
  let slot := bits value 5 0
  let go := bit value 15
  if s.cip.sealedMode then
    if go ∨ use ≠ s.cip.keyUse.toNat ∨ slot ≠ s.cip.keySlot.toNat then s.lockedWrite 0 cipKeyCtlAt value.toNat else s
  else if go ∧ s.slotCo slot ≠ 0 then s.violation 0 0x11 (.function 0) [(32, slot)]
  else
    let s := { s with cip := { s.cip with keyUse := BitVec.ofNat 2 use, keySlot := BitVec.ofNat 6 slot } }
    if go = false ∨ use = 0 ∨ use = 3 then s
    else if (s.boundTo slot).isEmpty = false then s.log 6 0 1 0 0x0501#16 [(6, slot), (4, 0)]
    else
      let s := s.installKey slot s.cip.keyWords use false
      { s with cip := { s.cip with keyData := List.replicate 8 0 } }

/-- CIP_KEY_WRITE (R352): a virtual function sees no key-entry registers (R366). -/
def execCipKeyWrite (function : Nat) (value : Word) (s : State) : Host.Outcome State Fault Refusal :=
  onFunction function s (fun s => if function = 0 then s.keyCtl value else s)

/-- A write of CIP_CTRL.SEALED by the physical function: the first one decides until reset, and a later one that would change it is a
violation (R11, R350, R367). -/
def State.writeSealed (s : State) (v : Bool) : State :=
  if s.cip.locked then (if v = s.cip.sealedMode then s else s.lockedWrite 0 cipCtrlAt (b2n v))
  else { s with cip := { s.cip with locked := true, sealedMode := v } }

/-- SEALED_MODE_ENTER (R350). -/
def execSealedModeEnter (function : Nat) (s : State) : Host.Outcome State Fault Refusal :=
  onFunction function s (fun s => if function = 0 then s.writeSealed true else s)

/-- OPEN_MODE_LOCK (R350). -/
def execOpenModeLock (function : Nat) (s : State) : Host.Outcome State Fault Refusal :=
  onFunction function s (fun s => if function = 0 then s.writeSealed false else s)

end Sys2Proof.Machine
end

