-- ==== Sys2Proof/Machine/House.lean ====
section
/-!
DEFINITION. The house timebase (R185 to R187, R450, R479 to R481) and the readiness census on the lock tree (R482 to R484).
-/

namespace Sys2Proof.Machine

/-! ### Lock (R185, R186, R479, R481) -/

/-- This module's own lock follows its parent's report: the hop count, or holdover; a change is reported on (R185, R481). -/
def State.followParent (s : State) (p : Nat) (state : BitVec 3) (hops : BitVec 8) : State :=
  if s.tor.parent.toNat = p ∧ s.tor.root = false ∧ s.tor.lockState = 2 then
    if state = 2 then
      if s.tor.hops = hops + 1 then s else State.sendLock { s with tor := { s.tor with hops := hops + 1 } }
    else if state = 3 then s.holdover else s
  else s

/-- A port whose neighbour is neither locked nor in holdover does not stay ACTIVE (R186) (DEDUCED, log 64). -/
def State.unlockedPort (s : State) (p : Nat) : State :=
  if (s.port p).state = .active ∧ (s.port p).nbrLocked = false then
    (s.modPort p (fun x => { x with state := .measured, measured := false })).leftActive p
  else s

/-- A LOCK frame arrives on a trained port (R185, R186, R479, R481) (DEDUCED, log 64). -/
def State.lockIn (s : State) (p : Nat) (state : BitVec 3) (hops : BitVec 8) (childBit : Bool) : State :=
  if (s.port p).state.trained then
    let s := s.modPort p (fun x => { x with lockState := state, lockHops := hops, child := childBit,
                                            nbrLocked := decide (state = 2) || decide (state = 3) })
    (((s.followParent p state hops).unlockedPort p).selectParent).tryActive p
  else s

/-- LOCK_FRAME_RECEIVE (R185). -/
def execLockFrameReceive (port : BitVec 3) (state : BitVec 3) (hops : BitVec 8) (childBit : Bool) (s : State) :
    Host.Outcome State Fault Refusal :=
  .next (s.lockIn port.toNat state hops childBit)

/-- The stage PLL has locked to the parent's lane clock: the hop count follows, on a first lock the house epoch comes from the parent, and
each ACTIVE port measures again (R185, R186, R479, R480) (DEDUCED, log 64). -/
def State.relock (s : State) : State :=
  let p := s.tor.parent.toNat
  if s.tor.root = false ∧ s.tor.lockState ≠ 2 ∧ p < 8 ∧ (s.port p).lockState = 2 then
    let epoch := if s.tor.everLocked then s.tor.houseEpoch else ((s.port p).houseSeen.getLast?).elim s.tor.houseEpoch (fun h => h.1)
    let s := { s with tor := { s.tor with
      lockState := 2, hops := (s.port p).lockHops + 1, everLocked := true, houseEpoch := epoch, holdoverLogged := false } }
    let s := (List.range 8).foldl (fun s p =>
      let s := s.modPort p (fun x => { x with measured := false, houseSeen := x.houseSeen.filter (fun h => decide (epoch.toNat < h.1.toNat)) })
      if (s.port p).state = .active then s.probe p else s) s
    s.sendLock.tryAll
  else s

/-- RELOCK_DONE (R186). -/
def execRelockDone (s : State) : Host.Outcome State Fault Refusal := .next s.relock

/-- LOCK_HOLDOVER (R186, R196): logged once in a holdover, with the last parent. -/
def execLockHoldover (s : State) : Host.Outcome State Fault Refusal :=
  .next (if s.tor.lockState = 3 ∧ s.tor.holdoverLogged = false ∧ s.bestParent.isNone then
      State.log { s with tor := { s.tor with holdoverLogged := true } } 0xD 0 1 0 0x0809#16
        [(4, (if s.tor.parent = 0xF#4 then s.tor.lastParent else s.tor.parent).toNat)]
    else s)

/-! ### House epochs (R187, R450) -/

/-- The local ceiling (R450). -/
def Pwr.localCeil (p : Pwr) : BitVec 3 := if p.capCeil.toNat ≤ p.thermCeil.toNat then p.capCeil else p.thermCeil

/-- The HOUSE frame of the next boundary leaves on each ACTIVE port whose lead has been reached `period` stage-clock periods after the last
boundary, once (R187, R450). -/
def State.houseSend (s : State) (period : Nat) : State :=
  let n := s.tor.houseEpoch + 1
  (List.range 8).foldl (fun s p =>
    if (s.port p).state = .active ∧ (s.port p).houseSent ≠ some n ∧ 65536 ≤ period + s.lead p then
      (s.modPort p (fun x => { x with houseSent := some n })).send p (.house n s.pwr.m)
    else s) s

/-- HOUSE_FRAME_SEND (R187, R450). -/
def execHouseFrameSend (period : Nat) (s : State) : Host.Outcome State Fault Refusal := .next (s.houseSend period)

/-- A neighbour's HOUSE frame is kept until its boundary; before the first lock only the last one counts (R187, R450, R479). -/
def State.houseIn (s : State) (p : Nat) (epoch : DWord) (minimum : BitVec 3) : State :=
  if (s.port p).state = .active ∨ (s.port p).state = .measured then
    s.modPort p (fun x => { x with houseSeen :=
      (if s.tor.everLocked then x.houseSeen.filter (fun h => h.1 ≠ epoch) else []) ++ [(epoch, minimum)] })
  else s

/-- HOUSE_FRAME_RECEIVE (R187, R450, R479). -/
def execHouseFrameReceive (port : BitVec 3) (epoch : DWord) (minimum : BitVec 3) (s : State) : Host.Outcome State Fault Refusal :=
  .next (s.houseIn port.toNat epoch minimum)

/-- The running minimum that a port's HOUSE frame of boundary `n` carries; 7 for none. -/
def Port.houseMin (x : Port) (n : DWord) : BitVec 3 := (x.houseSeen.find? (fun h => h.1 = n)).elim 7 (fun h => h.2)

def minOp (a b : BitVec 3) : BitVec 3 := if a.toNat ≤ b.toNat then a else b

/-- The running minimum and the island ceiling at the boundary that begins house epoch `n` (R450). -/
def State.ceilingWindow (s : State) (n : Nat) : State :=
  let got := (List.range 8).foldl (fun m p => if (s.port p).state = .active then minOp m ((s.port p).houseMin (BitVec.ofNat 64 n)) else m) s.pwr.m
  if n % 256 = 128 then { s with pwr := { s.pwr with m := s.pwr.localCeil } }
  else if 128 < n % 256 then { s with pwr := { s.pwr with m := got } }
  else if n % 256 = 0 then { s with pwr := { s.pwr with windows := s.pwr.windows ++ [(n / 256, s.pwr.m)] } }
  else s

/-- Every ACTIVE port's HOUSE frame of the next boundary is here (R187). -/
def State.houseReady (s : State) : Bool :=
  (List.range 8).all (fun p => decide ((s.port p).state ≠ .active) ||
    (s.port p).houseSeen.any (fun h => decide (s.tor.houseEpoch + 1 = h.1)))

/-- The house epoch `n` begins: the ceiling window advances, transactions of companies that run no script apply, armed scripts of this epoch
start, and the fixed point takes effect (R124, R405, R450, R516). -/
def State.houseBegin (s : State) (n : DWord) : State :=
  let s := { s with tor := { s.tor with houseEpoch := n, epochNs := s.nowNs } }
  let s := { s with pwr := { s.pwr with stretch := 0, drooped := 0, throttle := false, throttleLogged := false, droopLogged := false } }
  let s := s.ceilingWindow n.toNat
  let s := (List.range 8).foldl (fun s p => s.modPort p (fun x => { x with houseSeen := x.houseSeen.filter (fun h => decide (n.toNat < h.1.toNat)) })) s
  let s := (0 :: companyList).foldl (fun s k =>
    if s.runs k then s else s.applyTxns k (fun t => t.step.isNone) State.applyEpoch) s
  let s := (0 :: companyList).foldl (fun s k =>
    if (s.co k).seq.state = .armed ∧ (s.co k).seq.startEpoch = n then s.startScript k else s) s
  s.houseBoundaryPoint

/-- A house epoch boundary: HOUSE frames not yet sent leave, and the counter advances once the neighbours' frames are here (R187). -/
def State.houseBoundary (s : State) : State :=
  let s := s.houseSend 65536
  if s.houseReady then s.houseBegin (s.tor.houseEpoch + 1) else s

/-- HOUSE_EPOCH_BOUNDARY (R187). -/
def execHouseEpochBoundary (s : State) : Host.Outcome State Fault Refusal := .next s.houseBoundary

/-! ### The census (R482 to R484) -/

/-- Ports to this module's children. -/
def State.children (s : State) : List Nat := (List.range 8).filter (fun p => (s.port p).child && (s.port p).state.trained)

/-- READY of the module's census vector for a round of this revision (R483). -/
def State.censusReadyNow (s : State) (revision : Word) : Bool :=
  match s.island.sheet with
  | none => false
  | some sh =>
    decide (s.boot.phase = 3) && decide (s.island.role = 1) && decide (sh.revision = revision) &&
      (List.range 8).all (fun p => decide (sh.axes.getD (p / 2) 1 < 2) ||
        (decide ((s.port p).state = .active) && s.agrees p && (s.port p).measured)) &&
      (s.cip.sealedMode || decide (sh.active ≤ 64))

/-- Ports that disagree and are not overridden. -/
def State.disagreeing (s : State) : Nat := ((List.range 8).filter (fun p => s.disagrees p)).length

/-- A completed round (R484). -/
def State.censusResult (s : State) (revision : Word) (ready disagree : Nat) : State :=
  let s := { s with island := { s.island with
    censusRevision := revision, censusReady := BitVec.ofNat 16 (min ready 65535), censusDisagree := BitVec.ofNat 8 (min disagree 255),
    ready := s.island.sheet.elim false (fun sh => decide (ready = sh.active)), roundRevision := none, summing := false } }
  s.children.foldl (fun s p => s.send p (.censusResult revision ready disagree)) s

/-- Once every child's sum is here the module's total goes to its parent, or completes the root's round (R482). -/
def State.censusTotal (s : State) : State :=
  match s.island.roundRevision with
  | none => s
  | some rev =>
    let cs := s.children
    if s.island.summing && cs.all (fun p => (s.port p).childSum.isSome) then
      let t := cs.foldl (fun (t : Nat × Nat × Nat) p =>
        let v := ((s.port p).childSum).getD (0, 0, 0)
        (t.1 + v.1, t.2.1 + v.2.1, t.2.2 + v.2.2)) (1, b2n (s.censusReadyNow rev), s.disagreeing)
      if s.tor.root then s.censusResult rev t.2.1 t.2.2
      else
        let s := { s with island := { s.island with summing := false } }
        if s.tor.parent.toNat < 8 then s.send s.tor.parent.toNat (.censusSum t.1 t.2.1 t.2.2) else s
    else s

/-- A round begins at this module: START goes to its children (R482). -/
def State.censusBegin (s : State) (round : Nat) (revision : Word) : State :=
  let s := { s with island := { s.island with round := round, roundRevision := some revision, roundNs := some s.nowNs, summing := true } }
  let s := (List.range 8).foldl (fun s p => s.modPort p (fun x => { x with childSum := none })) s
  (s.children.foldl (fun s p => s.send p (.censusStart round revision)) s).censusTotal

/-- A round's time after the last one has come: 250 ms while the latest completed round does not show ISLAND_READY, else 1 s (R482). -/
def State.censusDue (s : State) : Bool :=
  s.island.roundNs.elim true (fun t => decide (t + (if s.island.ready then 1000000000 else 250000000) ≤ s.nowNs))

/-- CENSUS_ROUND_START (R482): the root's next round, with its own sheet's revision, once it is due. -/
def execCensusRoundStart (s : State) : Host.Outcome State Fault Refusal :=
  .next (match s.island.sheet with
    | some sh =>
      if s.tor.root && s.censusDue then
        s.censusBegin (s.island.round + 1) sh.revision
      else s
    | none => s)

/-- CENSUS_START_RECEIVE (R482). -/
def execCensusStartReceive (port : BitVec 3) (round : Nat) (revision : Word) (s : State) : Host.Outcome State Fault Refusal :=
  .next (if s.tor.root = false ∧ s.tor.parent.toNat = port.toNat then s.censusBegin round revision else s)

/-- CENSUS_SUM_RECEIVE (R483). -/
def execCensusSumReceive (port : BitVec 3) (members ready disagree : Nat) (s : State) : Host.Outcome State Fault Refusal :=
  .next (if s.children.contains port.toNat ∧ s.island.summing then
      (s.modPort port.toNat (fun x => { x with childSum := some (members, ready, disagree) })).censusTotal
    else s)

/-- CENSUS_RESULT_RECEIVE (R484). -/
def execCensusResultReceive (port : BitVec 3) (revision : Word) (ready disagree : Nat) (s : State) : Host.Outcome State Fault Refusal :=
  .next (if s.tor.root = false ∧ s.tor.parent.toNat = port.toNat then s.censusResult revision ready disagree else s)

/-- CENSUS_ROUND_ABANDON (R482): a round that has not completed within 3 ms for each of 65 hops. -/
def execCensusRoundAbandon (s : State) : Host.Outcome State Fault Refusal :=
  .next (if s.island.roundNs.elim false (fun t => decide (t + 195000000 ≤ s.nowNs)) then
      { s with island := { s.island with roundRevision := none, summing := false } }
    else s)

end Sys2Proof.Machine
end

