-- ==== Sys2Proof/Machine/Island.lean ====
section
/-!
DEFINITION. The call sheet and the island commands (R472, R473, R477, R478, R481) and adoption (R296).
-/

namespace Sys2Proof.Machine

/-- Reads the header and the entries of a call sheet (R472). -/
def readSheet (s : State) (a : Nat) : Sheet :=
  let active := s.rd (a + 0x14) 4
  let below := s.rd (a + 0x18) 2
  { coreCount := s.rd (a + 0x0A) 2, island := BitVec.ofNat 32 (s.rd (a + 0x0C) 4), axes := (List.range 4).map (fun i => s.rd (a + 0x10 + i) 1),
    active := active, understudies := below, revision := BitVec.ofNat 32 (s.rd (a + 0x1C) 4), root := BitVec.ofNat 64 (s.rd (a + 0x20) 8),
    entries := (List.range (active + below)).map (fun i =>
      let e := a + 96 + 16 * i
      { serial := BitVec.ofNat 64 (s.rd e 8), coord := BitVec.ofNat 32 (s.rd (e + 8) 4), role := BitVec.ofNat 2 (s.rd (e + 12) 1) }) }

/-- Reserved fields of a sheet and its entries are zero, and every role is a role (R472). -/
def sheetZeros (s : State) (a n : Nat) : Bool :=
  s.zeroAt (a + 0x1A) 2 && s.zeroAt (a + 0x28) 24 &&
    (List.range n).all (fun i => s.zeroAt (a + 96 + 16 * i + 13) 3)

/-- The coordinate of an index in the order of the entries (R472). -/
def coordAt (axes : List Nat) (i : Nat) : Nat :=
  let q := axes.getD 1 1
  let p := axes.getD 2 1
  let d := axes.getD 3 1
  i / (q * p * d) + 256 * (i / (p * d) % q) + 65536 * (i / d % p) + 16777216 * (i % d)

/-- The form of a sheet's lengths and entries (R473 reason 0x05). -/
def sheetForm (s : State) (a : Nat) (sh : Sheet) : Bool :=
  sh.axes.all (fun l => decide (1 ≤ l) && decide (l ≤ 64)) && decide (sh.axes.foldl (· * ·) 1 = sh.active) && decide (sh.active ≤ 12288) &&
    decide (sh.understudies ≤ 256) && decide (sh.island ≠ 0) && decide (sh.revision ≠ 0) &&
    (decide (sh.coreCount = 768) || decide (sh.coreCount = 800)) &&
    (List.range sh.entries.length).all (fun i =>
      let role := s.rd (a + 96 + 16 * i + 12) 1
      let coord := s.rd (a + 96 + 16 * i + 8) 4
      if i < sh.active then decide (role = 1) && decide (coord = coordAt sh.axes i) else decide (role = 2) && decide (coord = 0xFFFFFFFF)) &&
    noRepeat (sh.entries.map (fun e => e.serial.toNat)) && sh.entries.any (fun e => decide (e.serial = sh.root) && decide (e.role = 1))

/-- Some company's script is armed, running or held (R473 reason 0x02). -/
def State.scriptBusy (s : State) : Bool :=
  (0 :: companyList).any (fun k => let q := (s.co k).seq.state; decide (q = .armed) || decide (q = .running) || decide (q = .held))

/-- This module's entry of a sheet. -/
def Sheet.mine (sh : Sheet) (serial : DWord) : Option SheetEntry := sh.entries.find? (fun e => e.serial = serial)

/-- The checks of R473 in order: reason and status of the first that fails. -/
def sheetCheck (s : State) (a len : Nat) : Option (Byte × Byte) :=
  let n := s.rd (a + 0x14) 4 + s.rd (a + 0x18) 2
  if !s.ownsDram 0 a len || decide (len ≠ 96 + 16 * n) then some (0x01, stDenied)
  else if s.scriptBusy then some (0x02, stLocked)
  else if mread s.dram a 8 ≠ ascii "PV8CALLS" ∨ s.rd (a + 8) 2 ≠ 1 ∨ sheetZeros s a n = false then some (0x03, stBadArg)
  else if sha256 (mread s.dram a 0x40 ++ mread s.dram (a + 96) (16 * n)) ≠ mread s.dram (a + 0x40) 32 then some (0x04, stBadArg)
  else
    let sh := readSheet s a
    if sheetForm s a sh = false then some (0x05, stBadArg)
    else if (sh.mine s.serial).isSome ∧ s.gradeA768 ∧ sh.coreCount = 800 then some (0x06, stNoResource)
    else if (sh.mine s.serial).isSome ∧
        companyList.any (fun k => (s.co k).rect.elim false (fun r => decide (sh.coreCount / 32 < r.row0 + r.rows))) then some (0x07, stNoResource)
    else none

/-- A sheet takes force (R473, R476 to R479) (DEDUCED, log 64). -/
def State.installSheet (s : State) (sh : Sheet) : State :=
  let me := sh.mine s.serial
  let root := decide (sh.root = s.serial)
  let lost := s.tor.root && !root
  let s := { s with
    grid := if me.isSome then sh.coreCount / 32 else s.grid,
    island := { s.island with
      sheet := some sh, role := me.elim 0 (fun e => e.role), coord := me.elim 0xFFFFFFFF#32 (fun e => e.coord), island := sh.island },
    tor := { s.tor with
      root := root, hops := if root then 0 else if lost then 0xFF#8 else s.tor.hops, parent := if root then 0xF#4 else s.tor.parent,
      lockState := if root then 2 else if lost then 3 else s.tor.lockState, everLocked := s.tor.everLocked || root } }
  let s := (List.range 8).foldl (fun s p => s.modPort p (fun x => { x with overridden := none, expectSerial := none })) s
  let s := (List.range 8).foldl (fun s p => s.logCheck p) s
  let s := if root || lost then s.sendLock else s
  s.selectParent.tryAll

/-- The effect of ISL_CALL_SHEET (R473). -/
def sheetBody (addr len : Nat) (s : State) (_ : Nat) : Answer :=
  match sheetCheck s addr len with
  | some (reason, status) =>
    { state := s.log 0xD 0 1 0 0x0011#16 [(8, reason.toNat), (32, s.rd (addr + 0x1C) 4)], status := status, detail := reason }
  | none =>
    let s := s.installSheet (readSheet s addr)
    { state := s, result := [s.island.role.setWidth 8] }

/-- ISL_CALL_SHEET (R473). -/
def execIslCallSheet (h : Pkt) (sheetAddr : BitVec 48) (sheetBytes : Word) (s : State) : Host.Outcome State Fault Refusal :=
  .next (s.serve h 0x0020#16 [(48, sheetAddr.toNat), (32, sheetBytes.toNat)] true .never (sheetBody sheetAddr.toNat sheetBytes.toNat))

/-- ISL_OVERRIDE (R478, R489) (DEDUCED, log 64). -/
def execIslOverride (h : Pkt) (port : BitVec 3) (set : Bool) (s : State) : Host.Outcome State Fault Refusal :=
  .next (s.serve h 0x0021#16 [(3, port.toNat), (1, b2n set)] true .never (fun s _ =>
    let p := port.toNat
    if set = true ∧ s.portCheck p ≠ 2 then { state := s, status := stBadArg }
    else if s.scriptBusy then { state := s, status := stLocked }
    else
      let serial := ((s.port p).ident).elim 0 (fun i => i.serial.toNat)
      let s := s.modPort p (fun x => { x with overridden := if set then x.ident else none })
      { state := (s.log 0xD 0 1 0 0x0013#16 [(3, p), (64, serial), (1, b2n set)]).tryActive p }))

/-- ISL_ROOT (R481). -/
def execIslRoot (h : Pkt) (s : State) : Host.Outcome State Fault Refusal :=
  .next (s.serve h 0x0022#16 [] true .never (fun s _ =>
    if s.island.adopted = true ∨ s.island.sheet.isNone then { state := s, status := stLocked }
    else
      let s := { s with tor := { s.tor with root := true, hops := 0, parent := 0xF#4, lockState := 2, everLocked := true, holdoverLogged := false } }
      { state := s.sendLock.tryAll }))

/-- RPR_ADOPT (R296): a warm understudy takes a failed module's place. -/
def execRprAdopt (h : Pkt) (island : Word) (coord : Word) (failedSerial : DWord) (s : State) : Host.Outcome State Fault Refusal :=
  .next (s.serve h 0x0481#16 [(32, island.toNat), (32, coord.toNat), (64, failedSerial.toNat)] true .never (fun s _ =>
    if s.isWarm = false then { state := s, status := stLocked }
    else
      let s := { s with island := { s.island with
        island := island, coord := coord, role := 1, adopted := true, failedSerial := failedSerial } }
      let s := s.log 0xD 0 1 0 0x0482#16 [(32, coord.toNat), (64, failedSerial.toNat)]
      { state := ((List.range 8).foldl (fun s p => s.logCheck p) s).tryAll }))

end Sys2Proof.Machine
end

