-- ==== Sys2Proof/Machine/FarForm.lean ====
section
/-!
DEFINITION. The arithmetic of a round (R312 to R316, R329): contributions of the three classes and their decoded values, the form pass and
the apply pass over one parcel.
-/

namespace Sys2Proof.Machine

/-- A value an update engine never holds enters as +0.0 (R251). -/
def finite0 (w : Word) : Word := if (f32dec w).nonFinite then f32zero else w

def uadd (a b : Word) : Word := finiteOf (fadd a b)
def usub (a b : Word) : Word := finiteOf (fsub a b)
def umul (a b : Word) : Word := finiteOf (fmul a b)
def ufma (a b c : Word) : Word := finiteOf (ffma a b c)

/-! ### Contributions (R313 to R315) -/

/-- Magnitude of a finite FP32 pattern, as its low 31 bits order it. -/
def magOf (w : Word) : Nat := w.toNat % 2 ^ 31

/-- Positions of the K largest magnitudes of a block, ascending; equal ones by lower position (R316). -/
def topK (k : Nat) (xs : List Word) : List Nat :=
  (List.range xs.length).filter (fun i =>
    let m := magOf (xs.getD i 0)
    decide (((List.range xs.length).filter (fun j =>
      let n := magOf (xs.getD j 0)
      decide (m < n) || (decide (n = m) && decide (j < i)))).length < k))

/-- BF16 of an element: a finite value never becomes an infinity (R251, R316) (DEDUCED, log 59). -/
def finiteBf (w : Word) : BitVec 16 :=
  let b := toBf w
  if (f32dec (bfWiden b)).nonFinite then (if w.msb then 0xFF7F#16 else 0x7F7F#16) else b

/-- A class S record of one block (R313). -/
def recordS (k : Nat) (xs : List Word) : List Byte :=
  let ps := topK k xs
  let pad := k - ps.length
  let poss := ps ++ List.replicate pad 0xFFF
  let vals := ps.map (fun i => (finiteBf (xs.getD i 0)).toNat) ++ List.replicate pad 0
  padTo (4 * cdiv (7 * k) 8) (leBytes (cdiv (3 * k) 2) (packBits (poss.map (fun p => (12, p)))) ++ vals.flatMap (fun v => leBytes 2 v))

/-- Decoded element `e` of a class S record (R315). -/
def valueS (k : Nat) (rec : List Byte) (e : Nat) : Word :=
  let ps := leNat (rec.take (cdiv (3 * k) 2))
  match (List.range k).find? (fun i => nbits ps (12 * i + 11) (12 * i) = e) with
  | some i => finite0 (bfWiden (BitVec.ofNat 16 (leNat ((rec.drop (cdiv (3 * k) 2 + 2 * i)).take 2))))
  | none => f32zero

/-- A Q4 block (R314): a P4 cast with RNE. -/
def blockQ4 (xs : List Word) : List Byte :=
  (castP4 0 (List.replicate 32 none) (xs.map (fun w => (f32dec w, f32subnormal w)))).1

/-- The scale of a Q2 block (R314). -/
def scaleQ2 (xs : List Word) : Byte :=
  let mean := umul (tree32 uadd (xs.map fabs)) (f32pow2 (-5))
  match f32dec mean with
  | .fin _ m e => if m = 0 then 0 else BitVec.ofNat 8 (p4scale 1 m e)
  | _ => 0xF7

/-- Half of a Q2 scale, and the scale as FP32. -/
def halfQ2 (s : Byte) : Fp := (e5m3dec s).elim .nan (fun x => .fin false x.1 (x.2 - 1))
def fullQ2 (s : Byte) : Word := (e5m3dec s).elim f32zero (fun x => f32pack (.fin false x.1 x.2))

/-- The 2-bit code of an element (R314). -/
def codeQ2 (s : Byte) (x : Word) : Nat :=
  if Fp.lt (halfQ2 s) (f32dec x) then 1 else if Fp.lt (f32dec x) (halfQ2 s).neg then 2 else 0

/-- A Q2 block of 9 bytes. -/
def blockQ2 (xs : List Word) : List Byte :=
  let s := scaleQ2 xs
  leBytes 8 (packBits (xs.map (fun x => (2, codeQ2 s x)))) ++ [s]

/-- Decoded element of a Q2 block (R315). -/
def valueQ2 (b : List Byte) (e : Nat) : Word :=
  let s := b.getD 8 0
  match nbits (leNat (b.take 8)) (2 * e + 1) (2 * e) with
  | 1 => fullQ2 s
  | 2 => if fullQ2 s = f32zero then f32zero else fneg (fullQ2 s)
  | _ => f32zero

/-- The contribution of a shard (R313, R314). -/
def contribution (cls k : Nat) (xs : List Word) : List Byte :=
  match cls with
  | 1 => (pieces 4096 (cdiv xs.length 4096) xs).flatMap (recordS k)
  | 2 => (pieces 32 (cdiv xs.length 32) xs).flatMap blockQ4
  | _ => (pieces 32 (cdiv xs.length 32) xs).flatMap blockQ2

/-- The decoded elements of a contribution (R315) (DEDUCED, log 59). -/
def decoded (cls k n : Nat) (bs : List Byte) : List Word :=
  match cls with
  | 1 =>
    let len := 4 * cdiv (7 * k) 8
    (List.range (cdiv n 4096)).flatMap (fun b =>
      let rec_ := (bs.drop (len * b)).take len
      (List.range (min 4096 (n - 4096 * b))).map (valueS k rec_))
  | 2 => (List.range (cdiv n 32)).flatMap (fun b => (List.range 32).map (fun e => finite0 (f32pack (p4elem ((bs.drop (17 * b)).take 17) e))))
  | _ => (List.range (cdiv n 32)).flatMap (fun b => (List.range 32).map (valueQ2 ((bs.drop (9 * b)).take 9)))

/-! ### Round copies (R312) -/

/-- The parcels of a round table with their shards. -/
def parcelPairs (t : RoundTable) (u : UpdSection) : List (Parcel × Shard) :=
  t.parcels.filterMap (fun p => (u.shards[p.shard]?).map (fun sh => (p, sh)))

/-- Round copy `b` of a parcel. -/
def Parcel.copy (p : Parcel) (b : Bool) : Nat := if b then p.round1 else p.round0

/-- The outgoing area of a round. -/
def Parcel.out (p : Parcel) (r : Nat) : Nat := if r % 2 = 0 then p.out0 else p.out1

/-- The shard of a parcel as its round copies are laid out: four fields (R312). -/
def Shard.round (sh : Shard) : Shard := { sh with fields := 4 }

/-- Field `f` of all elements of a bank or copy; values that are not finite enter as +0.0 and count (R251). -/
def State.wholeField (s : State) (k : Nat) (sh : Shard) (base f : Nat) : List Word × State :=
  let (ws, s) := s.fieldWords k sh base f 0 sh.elements
  let (ws, n) := substitute ws
  (ws, s.countSubst k n)

/-- Writes one field of a copy. -/
def State.putField (s : State) (base fields f : Nat) (ws : List Word) : State :=
  iter (cdiv ws.length 64) (fun i s =>
    s.dramWrite (base + 256 * (fields * i + f)) (((ws.drop (64 * i)).take 64).flatMap (fun w => leBytes 4 w.toNat))) s

/-! ### The form pass over one parcel (R316) -/

def State.formParcel (s : State) (k r : Nat) (copy bank : Bool) (p : Parcel) (sh : Shard) : State :=
  let (master, s) := s.wholeField k sh (sh.bank bank) 0
  let (anchor, s) := s.wholeField k sh.round (p.copy copy) 0
  let (residual, s) := s.wholeField k sh.round (p.copy copy) 1
  let d := (anchor.zip master).map (fun x => usub x.1 x.2)
  let x := (d.zip residual).map (fun y => uadd y.1 y.2)
  let c := contribution p.cls p.k x
  let v := decoded p.cls p.k sh.elements c
  let s := s.putField (p.copy (!copy)) 4 1 ((x.zip v).map (fun y => usub y.1 y.2))
  let s := s.putField (p.copy (!copy)) 4 3 d
  s.dramWrite (p.out r) c

/-! ### The apply pass over one parcel (R329) -/

/-- State 0 ABSENT, 1 ACCEPTED, 2 PENDING of a site in CURRENT, and its resolution in PRIOR (R324). -/
def siteBits (w : Word) (site : Nat) : Nat := nbits w.toNat (2 * site + 1) (2 * site)

/-- What the apply pass reads of one element: anchor, momentum, residual, pull, and the own values of this round and of the one before. -/
structure ApplyIn where
  a : Word
  m : Word
  res : Word
  p : Word
  own : Word
  ownPrev : Word

/-- New anchor, residual, momentum and shift of one element (R329); `cur` and `prev` are the values to add, sites ascending. -/
def applyElem (t : RoundTable) (skip ownAbsent priDropped : Bool) (x : ApplyIn) (cur prev : List Word) : Word × Word × Word × Word :=
  let back := fun (r : Word) => if priDropped then uadd r x.ownPrev else r
  if skip then (x.a, back (uadd x.res x.own), x.m, f32zero)
  else
    let sum := cur.foldl uadd f32zero
    let sum := prev.foldl (fun a v => ufma t.stale v a) sum
    let g := umul sum (updRcp (f32pack (Fp.ofInt cur.length)))
    let m2 := ufma t.mu x.m g
    let u := ufma t.mu m2 g
    let a2 := ufma (fneg t.eta) u x.a
    (a2, back (if ownAbsent then uadd x.res x.own else x.res), m2, uadd (usub a2 x.a) x.p)

/-- The opened contribution of entry `j` of a parcel's slots (R317, R326). -/
def State.slotBytes (s : State) (p : Parcel) (sh : Shard) (j : Nat) : List Byte :=
  mread s.dram (p.slots + 256 + j * up256 (sealedBytes p.cls p.k sh.elements) + 16) (contribBytes p.cls p.k sh.elements)

/-- The apply pass over one parcel: the state, and its term of ANCHOR_DIGEST (R329, R332). -/
def State.applyParcel (s : State) (k : Nat) (t : RoundTable) (r : Nat) (copy skip : Bool) (dec : Decision) (p : Parcel) (sh : Shard) :
    State × Nat :=
  let n := sh.elements
  let (a, s) := s.wholeField k sh.round (p.copy copy) 0
  let (m, s) := s.wholeField k sh.round (p.copy copy) 2
  let (res, s) := s.wholeField k sh.round (p.copy (!copy)) 1
  let (pull, s) := s.wholeField k sh.round (p.copy (!copy)) 3
  let area := fun (r : Nat) => decoded p.cls p.k n (mread s.dram (p.out r) (contribBytes p.cls p.k n))
  let own := area r
  let ownPrev := area (r + 1)
  let val := fun (site j : Nat) => if site = t.site then (if j < 16 then own else ownPrev) else decoded p.cls p.k n (s.slotBytes p sh j)
  let cur := ((List.range 16).filter (fun i => siteBits dec.current i = 1)).map (fun i => val i i)
  let prev := ((List.range 16).filter (fun i => siteBits dec.prior i = 1)).map (fun i => val i (16 + i))
  let out := (List.range n).map (fun i =>
    applyElem t skip (decide (siteBits dec.current t.site = 0)) (decide (siteBits dec.prior t.site = 2))
      { a := a.getD i 0, m := m.getD i 0, res := res.getD i 0, p := pull.getD i 0, own := own.getD i 0, ownPrev := ownPrev.getD i 0 }
      (cur.map (fun l => l.getD i 0)) (prev.map (fun l => l.getD i 0)))
  let nxt := p.copy (!copy)
  let s := s.putField nxt 4 0 (out.map (fun x => x.1))
  let s := s.putField nxt 4 1 (out.map (fun x => x.2.1))
  let s := s.putField nxt 4 2 (out.map (fun x => x.2.2.1))
  let s := s.putField nxt 4 3 (out.map (fun x => x.2.2.2))
  (s, iter n (fun i acc => acc + digestTerm (sh.base + i) [(out.getD i (0, 0, 0, 0)).1]) 0)

end Sys2Proof.Machine
end

