-- ==== Sys2Proof/Machine/FarExchange.lean ====
section
/-!
DEFINITION. The far exchange (R306 to R337): FAR_RUN and its companions, the passes of a round, sealing and opening, CFX between the
gateways, the decision, and the ledger. The layout of a gateway's inbox is a DESIGN CHOICE, log 16.
-/

namespace Sys2Proof.Machine

/-- A company's far run: its table, its parcels with their shards, and the axis lengths of the island. -/
structure FarCtx where
  t : RoundTable
  ps : List (Parcel × Shard)
  axes : List Nat
  r : Nat

def State.farCtx (s : State) (k : Nat) : Option FarCtx :=
  let c := s.co k
  match c.far.table, c.seq.image with
  | some t, some im => im.update.map (fun u => { t := t, ps := parcelPairs t u, axes := im.axes, r := c.far.round.toNat })
  | _, _ => none

/-- The company's far run while a round is in progress. -/
def State.roundCtx (s : State) (k : Nat) : Option FarCtx := if (s.co k).far.inRound then s.farCtx k else none

/-- A counter of the round table: 0 SEAL_CTR, 1 LAND_CTR, 2 OPEN_CTR (R309). -/
def State.farPost (s : State) (k : Nat) (t : RoundTable) (i : Nat) : State :=
  s.wingsPost k ((s.absChan k t.channel).getD 0) (t.ctrs.getD i 0) (t.gens.getD i 0) 1

/-! ### Commands (R331, R334, R335, R347, R351) -/

/-- The checks of FAR_RUN (R247, R335, R347). With ENABLE clear the table is not read. -/
def farCheck (addr len : Nat) (enable : Bool) (s : State) (k : Nat) : Option (Byte × Nat) :=
  if enable then
    if s.ownsDram k addr len = false then some (stDenied, 0)
    else match readRoundTable s k addr len with
      | none => some (stBadArg, 0)
      | some (t, ps) =>
        if s.cip.sealedMode = false then some (stLocked, 0)
        else if roundDenied s k t ps then some (stDenied, 0)
        else s.chanCheck k t.channel true
  else if ((s.co k).seq.image.bind (fun i => i.update)).isNone then some (stBadArg, 0)
  else if s.cip.sealedMode = false then some (stLocked, 0) else none

/-- FAR_RUN (R335). -/
def execFarRun (h : Pkt) (tableAddr : BitVec 48) (tableBytes : Word) (enable : Bool) (s : State) : Host.Outcome State Fault Refusal :=
  .next (s.serve h 0x0701#16 [(48, tableAddr.toNat), (32, tableBytes.toNat), (1, b2n enable)] false .curtain
    (stageOr h (.farRun h tableAddr tableBytes enable) (farCheck tableAddr.toNat tableBytes.toNat enable)
      (fun s k => s.applyFar k tableAddr.toNat tableBytes.toNat enable)))

/-- The export header (R331). -/
def exportHeader (run : Word) (round : Nat) (coord : Word) : List Byte := padTo 512 (leBytes 4 run.toNat ++ leBytes 5 round ++ leBytes 4 coord.toNat)

/-- FAR_ANCHOR_EXPORT (R331): the current round copy leaves as a stream through the house's queue; without a far run BAD_ARGUMENT (DEDUCED, log 58; DEDUCED, log 62). -/
def exportBody (h : Pkt) (company queue : Nat) (gen : BitVec 8) (listAddr : Nat) (s : State) (_ : Nat) : Answer :=
  match s.readBankList company listAddr, (s.co company).far.table with
  | some l, some t =>
    match s.queueCheck 0 queue gen with
    | some e => { state := s, status := e.1 }
    | none =>
      let f := (s.co company).far
      let x : Stream :=
        { kind := 1, commits := (s.co company).upd.commits, bank := f.copy, list := l, header := exportHeader t.run f.installed s.island.coord,
          queue := queue, queueGen := gen, dest := 0, cipher := 0x1FF#9, pack := false, width := 0, reply := some h }
      { state := s.modPak 0 (fun p => { p with streams := p.streams ++ [x] }), waits := true }
  | _, _ => { state := s, status := stBadArg }

/-- FAR_ANCHOR_EXPORT (R331). -/
def execFarAnchorExport (h : Pkt) (company : BitVec 4) (queue : BitVec 13) (queueGen : BitVec 8) (listAddr : BitVec 48) (s : State) :
    Host.Outcome State Fault Refusal :=
  .next (s.serve h 0x0702#16 [(4, company.toNat), (13, queue.toNat), (8, queueGen.toNat), (48, listAddr.toNat)] true .never (exportBody h company.toNat queue.toNat queueGen listAddr.toNat))

/-- The parcels of the table in force, or of the run before a load, with their shards (R331). -/
def State.joinParcels (s : State) (k : Nat) : List (Parcel × Shard) :=
  match (s.co k).far.lastTable, (s.co k).seq.image.bind (fun i => i.update) with
  | some t, some u => parcelPairs t u
  | _, _ => []

/-- FAR_JOIN (R331): residual and pull of the current copy become zero, the round is the last installed one, and RESYNC clears, also for the
run that the next load and FAR_RUN bring (DEDUCED, log 58; DEDUCED, log 62). -/
def joinBody (company round : Nat) (s : State) (_ : Nat) : Answer :=
  let k := company
  if (s.co k).seq.state ≠ .stopped then { state := s, status := stLocked }
  else
    let s := (s.joinParcels k).foldl (fun s (p : Parcel × Shard) =>
      let zeros := List.replicate p.2.elements f32zero
      let base := p.1.copy (s.co k).far.copy
      (s.putField base 4 1 zeros).putField base 4 3 zeros) s
    { state := (s.farDrop k).modFar k (fun f => { f with
        installed := round, round := BitVec.ofNat 40 round, inRound := false, phase := .idle, applied := false, formDone := false,
        resync := false, reloaded := false, joined := true }) }

/-- FAR_JOIN (R331). -/
def execFarJoin (h : Pkt) (company : BitVec 4) (round : BitVec 40) (s : State) : Host.Outcome State Fault Refusal :=
  .next (s.serve h 0x0703#16 [(4, company.toNat), (40, round.toNat)] true .never (joinBody company.toNat round.toNat))

/-- FAR_PORT_SET (R334, R351). -/
def execFarPortSet (h : Pkt) (port : Bool) (address : BitVec 128) (snapPeer : BitVec 128) (snapUdp : BitVec 16) (s : State) :
    Host.Outcome State Fault Refusal :=
  .next (s.serve h 0x0704#16 [(1, b2n port), (128, address.toNat), (128, snapPeer.toNat), (16, snapUdp.toNat)] true .never (fun s _ =>
    if s.cip.sealedMode then
      { state := s.modFarPort (b2n port) (fun f => { f with addrSet := true, address := address, snapPeer := snapPeer, snapUdp := snapUdp }) }
    else { state := s, status := stLocked }))

/-! ### Form (R316) -/

/-- The stage cycle of step cycle `n` of the step in progress. -/
def Seq.cycleAt (q : Seq) (n : Nat) : Nat := q.stageCycle.toNat - q.stepCycle.toNat + n

/-- The form pass of every engine of the company, in the step after the round curtain, after the update pass and from FORM_START (R316, R318)
(DESIGN CHOICE, log 118). -/
def State.formPass (s : State) (k : Nat) : State :=
  match s.roundCtx k, (s.co k).seq.image.bind (fun i => i.update) with
  | some x, some u =>
    let f := (s.co k).far
    let q := (s.co k).seq
    if f.phase = .form ∧ f.formDone = false ∧ q.step.toNat = f.s0 + 1 ∧ q.phase = .step ∧ s.passComplete k u then
      (s.stageFrom k (q.cycleAt x.t.formStart)).elim s (fun s =>
        (x.ps.foldl (fun s p => s.formParcel k x.r f.copy (s.co k).upd.committed p.1 p.2) s).modFar k (fun f => { f with formDone := true }))
    else s
  | _, _ => s

/-- FORM_PASS (R316). -/
def execFormPass (company : Nat) (s : State) : Host.Outcome State Fault Refusal := onCompany company s (fun s => s.formPass company)

/-- FORM_DONE (R316): the FAR unit starts sealing. -/
def State.formDone (s : State) (k : Nat) : State :=
  let f := (s.co k).far
  if f.inRound ∧ f.phase = .form ∧ f.formDone then s.modFar k (fun f => { f.fresh with phase := .sealing }) else s

def execFormDone (company : Nat) (s : State) : Host.Outcome State Fault Refusal := onCompany company s (fun s => s.formDone company)

/-! ### Messages of the FAR unit (R317, R324, R328, R359, R401) -/

/-- The descriptor of a sealed parcel or record (R317, R324) (DEDUCED, log 54). -/
def farDescriptor (run : Word) (round site shard coord : Nat) : List Byte :=
  leBytes 4 run.toNat ++ leBytes 5 round ++ leBytes 1 site ++ leBytes 2 shard ++ leBytes 4 coord

/-- The nonce of a sealed parcel, and with `record` of a decision record (R317, R324) (DEDUCED, log 54). -/
def farNonce (round site shard coord : Nat) (record : Bool) : List Byte :=
  leBytes 5 round ++ leBytes 1 (site + (if record then 128 else 0)) ++ leBytes 4 coord ++ leBytes 2 shard

/-- A message that seals `data` under the run key, or with a tag opens it. -/
def farMessage (client : CipClient) (t : RoundTable) (round site shard coord : Nat) (record : Bool) (data : List Byte) (tag : Option (List Byte)) :
    Message :=
  { chan := 0, client := client, opening := tag.isSome, iv := BitVec.ofNat 96 (beNat (farNonce round site shard coord record)),
    aad := farDescriptor t.run round site shard coord, data := data, closed := true, tag := BitVec.ofNat 128 (beNat (tag.getD [])) }

/-- The FAR unit asks for a message on CHANNEL; a channel that is no longer the company's is a violation, and the message is lost (R359,
R401) (DEDUCED, log 111). -/
def State.farAsk (s : State) (k : Nat) (t : RoundTable) (m : Message) : State :=
  match s.absChan k t.channel with
  | some c => s.msgAsk { m with chan := c }
  | none => (s.targetGone k none t.channel).msgLost m

/-! ### Sealing (R317) -/

/-- The contribution that the FAR unit reads next. -/
def State.sealRead (s : State) (k : Nat) (x : FarCtx) : Option (Nat × Nat) :=
  (x.ps[(s.co k).far.taken]?).map (fun p => (p.1.out x.r, contribBytes p.1.cls p.1.k p.2.elements))

/-- A parcel whose contribution has been read is sealed: its descriptor goes behind the contribution, and its ciphertext and tag follow as the
cipher engine makes them (R317). -/
def State.sealGo (s : State) (k : Nat) (x : FarCtx) : State :=
  match x.ps[(s.co k).far.taken]?, s.sealRead k x with
  | some p, some r =>
    if s.wingsHas (.far k) r.1 r.2 then
      let bs := (s.wingsBytes (.far k) r.1 r.2).1
      let at_ := r.1 + sealedOffset p.1.cls p.1.k p.2.elements
      let m := farMessage (.far k .parcel (at_ + 16)) x.t x.r x.t.site p.1.shard s.island.coord.toNat false bs none
      (((s.wingsUse (.far k) r.1 r.2).wingsPut (.far k) at_ m.aad).modFar k (fun f => { f with taken := f.taken + 1 })).farAsk k x.t m
    else s
  | _, _ => s

/-- SEAL_COMPLETE (R317): every parcel is sealed and written behind its contribution; SEAL_CTR is posted, and where the module is no gateway
LAND_CTR with it (R319). -/
def State.sealComplete (s : State) (k : Nat) : State :=
  match s.roundCtx k with
  | none => s
  | some x =>
    let f := (s.co k).far
    if f.phase = .sealing ∧ f.finished = x.ps.length ∧ s.wingsBusy (.far k) = false then
      let s := s.farPost k x.t 0
      let s := if f.gateway then s else s.farPost k x.t 1
      s.modFar k (fun f => { f with phase := .send })
    else s

def execSealComplete (company : Nat) (s : State) : Host.Outcome State Fault Refusal := onCompany company s (fun s => s.sealComplete company)

/-! ### A gateway's inbox (R320, R326) -/

/-- Modules that a gateway serves: their place in the order of coordinates (DESIGN CHOICE, log 16). -/
def FarCtx.served (x : FarCtx) : List Nat :=
  let n := servedModules x.axes x.t.gateways
  (List.range n).map (fun m => x.t.gatewayIndex * n + m)

/-- The sealed length of a parcel. -/
def parcelLen (p : Parcel × Shard) : Nat := sealedBytes p.1.cls p.1.k p.2.elements

/-- Items of the gateway in order: module place, coordinate, parcel, the inbox address of its slots, its offset in the contribution. -/
structure InboxItem where
  coord : Nat
  parcel : Parcel
  shard : Shard
  slots : Nat
  off : Nat

def FarCtx.items (x : FarCtx) : List InboxItem :=
  (x.served.zipIdx).flatMap (fun m =>
    (x.ps.zipIdx).map (fun p =>
      { coord := coordAt x.axes m.1, parcel := p.1.1, shard := p.1.2,
        slots := x.t.inbox + m.2 * slotBytes x.ps + slotBytes (x.ps.take p.2),
        off := m.2 * parcelBytes x.ps + parcelBytes (x.ps.take p.2) }))

def InboxItem.len (i : InboxItem) : Nat := parcelLen (i.parcel, i.shard)

/-- Entry `j` of an item's slots (R326). -/
def InboxItem.entry (i : InboxItem) (j : Nat) : Nat := i.slots + 256 + j * up256 i.len

/-- Bytes of a site's contribution to this gateway (R320). -/
def FarCtx.length (x : FarCtx) : Nat := x.served.length * parcelBytes x.ps

/-- The own site's contribution is complete in the inbox: every entry of the own site bears this round's descriptor (R325). -/
def State.ownComplete (s : State) (x : FarCtx) : Bool :=
  x.items.all (fun i => mread s.dram (i.entry x.t.site) 16 = farDescriptor x.t.run x.r x.t.site i.parcel.shard i.coord)

/-- The own site's entry that the gateway reads next from its inbox, once its contribution is complete there. -/
def State.ownRead (s : State) (k : Nat) (x : FarCtx) : Option (Nat × Nat) :=
  let f := (s.co k).far
  if f.gateway ∧ f.replay = false ∧ f.t0.isSome then (x.items[f.taken]?).map (fun i => (i.entry x.t.site, i.len)) else none

/-- T0 is the moment at which the own site's contribution is complete in the inbox; the gateway reads it entry by entry (R320, R325). -/
def State.ownGo (s : State) (k : Nat) (x : FarCtx) : State :=
  let s := if (s.co k).far.t0.isNone && s.ownComplete x then s.modFar k (fun f => { f with t0 := some s.nowNs }) else s
  match s.ownRead k x with
  | none => s
  | some r =>
    if s.wingsHas (.far k) r.1 r.2 then
      let bs := (s.wingsBytes (.far k) r.1 r.2).1
      (s.wingsUse (.far k) r.1 r.2).modFar k (fun f => { f with own := f.own ++ bs, taken := f.taken + 1 })
    else s

/-- The own site's contribution as read from the inbox, once that is whole (R320). -/
def State.ownContribution (s : State) (k : Nat) (x : FarCtx) : Option (List Byte) :=
  let f := (s.co k).far
  if f.t0.isSome ∧ f.taken = x.items.length then some f.own else none

/-! ### CFX streams (R320 to R323) -/

/-- Sends a datagram to the gateway of a site where the far port carries traffic and the company has a share of it (R311, R320, R351). -/
def State.cfxSend (s : State) (k : Nat) (t : RoundTable) (site : Nat) (d : List Byte) : State :=
  match t.peers[site * t.gateways + t.gatewayIndex]? with
  | none => s
  | some p =>
    if s.farUp (b2n p.port) ∧ s.hasShare k (b2n p.port) then
      s.farSend (b2n p.port) p.address (if p.udp = 0 then 47344 else p.udp.toNat) d
    else s

/-- One segment of an outgoing stream as a datagram. -/
def outDatagram (t : RoundTable) (o : OutStream) (seg : Nat) : List Byte :=
  cfxFrame o.kind t.run o.round t.site t.gatewayIndex seg o.segments.length (o.segments.getD seg [])

/-- A stream to a site begins: every segment is sent. -/
def State.cfxStream (s : State) (k : Nat) (t : RoundTable) (kind round site : Nat) (data : List Byte) : State :=
  let segs := pieces 8192 (cdiv data.length 8192) data
  let o : OutStream := { kind := kind, round := round, site := site, segments := segs, unacked := List.range segs.length, firstNs := s.nowNs,
                         sentNs := (List.range segs.length).map (fun i => (i, s.nowNs + 1)), stopped := false }
  let s := s.modFar k (fun f => { f with outStreams := f.outStreams.filter (fun y => decide (round ≤ y.round + 1)) ++ [o] })
  (List.range segs.length).foldl (fun s i => s.cfxSend k t site (outDatagram t o i)) s

/-- Sites other than this one. -/
def otherSites (t : RoundTable) : List Nat := (List.range t.sites).filter (fun i => i ≠ t.site)

/-- A gateway that has read its own site's contribution sends it to its peers, and the leader its sealed record (R320, R324). -/
def State.sendGo (s : State) (k : Nat) (x : FarCtx) : State :=
  let f := (s.co k).far
  let s := match s.ownContribution k x with
    | some bs =>
      if f.outStreams.any (fun o => decide (o.kind = 1) && decide (o.round = x.r)) then s
      else (otherSites x.t).foldl (fun s site => s.cfxStream k x.t 1 x.r site bs) s
    | none => s
  match f.record with
  | some bs => ((otherSites x.t).foldl (fun s site => s.cfxStream k x.t 3 x.r site bs) s).modFar k (fun f => { f with record := none })
  | none => s

/-- Header fields of a datagram (R321). -/
structure CfxHead where
  typ : Nat
  run : Nat
  round : Nat
  site : Nat
  gateway : Nat
  seg : Nat
  segs : Nat
  payload : List Byte

/-- Reads a datagram; none where MAGIC, VERSION, LEN or CRC is wrong (R321). -/
def cfxRead (d : List Byte) : Option CfxHead :=
  let n := fun (a c : Nat) => leNat ((d.drop a).take c)
  if d.take 2 = ascii "CX" ∧ n 2 1 = 1 ∧ 32 ≤ d.length ∧ n 0x18 2 = d.length - 32 ∧ d.length ≤ 32 + 8192 ∧
      n 0x1C 4 = (crc32c (d.take 0x1C ++ [0, 0, 0, 0] ++ d.drop 32)).toNat then
    some { typ := n 3 1, run := n 4 4, round := n 8 5, site := n 0x0D 1, gateway := n 0x0E 2, seg := n 0x10 4, segs := n 0x14 4, payload := d.drop 32 }
  else none

/-- A bad datagram: counted, and logged once per second with the number discarded in the last second (R321, R337). -/
def State.badFrame (s : State) (k : Nat) : State :=
  let s := s.modFar k (fun f => { f with badFrames := satAdd f.badFrames 1,
                                         badTimes := s.nowNs :: f.badTimes.filter (fun t => decide (s.nowNs < t + 1000000000)) })
  let f := (s.co k).far
  if f.badLoggedNs.elim true (fun t => decide (t + 1000000000 ≤ s.nowNs)) then
    (s.modFar k (fun f => { f with badLoggedNs := some s.nowNs })).log 5 0 0 k 0x0706#16 [(32, f.badTimes.length)]
  else s

/-- A datagram of a far run of type `typ` arrives: in open mode and on a port that is down nothing does (R321, R351) (DEDUCED, log 55). -/
def State.cfxIn (s : State) (port : Bool) (k typ : Nat) (d : List Byte) (f : CfxHead → RoundTable → State) : State :=
  if s.farUp (b2n port) = false then s
  else match cfxRead d, (s.co k).far.table with
    | some h, some t =>
      if h.run ≠ t.run.toNat ∨ t.sites ≤ h.site then s.badFrame k
      else if h.typ = typ ∧ h.gateway = t.gatewayIndex then f h t
      else s
    | _, _ => s.badFrame k

/-- ACK frames of an incoming stream: a bitmap of at most 65,536 segments to a frame (R322). -/
def ackFrames (t : RoundTable) (x : InStream) : List (List Byte) :=
  (List.range (cdiv x.segs 65536)).map (fun j =>
    let n := min 65536 (x.segs - 65536 * j)
    let map := (List.range (cdiv n 8)).map (fun b =>
      BitVec.ofNat 8 ((List.range 8).foldl (fun a i => a + (if x.seen.contains (65536 * j + 8 * b + i) then 2 ^ i else 0)) 0))
    cfxFrame 2 t.run x.round t.site t.gatewayIndex (65536 * j) x.segs map)

def State.sendAck (s : State) (k : Nat) (t : RoundTable) (x : InStream) : State := (ackFrames t x).foldl (fun s d => s.cfxSend k t x.site d) s

/-- One segment of an incoming stream is kept; a duplicate is discarded, and a stream that completes is acknowledged (R323) (DEDUCED, log 55). -/
def State.keepSegment (s : State) (k : Nat) (h : CfxHead) (t : RoundTable) (decide_ : Bool) : State :=
  let r := (s.co k).far.round.toNat
  if r + 2 < h.round then s.badFrame k
  else if h.round + 1 < r ∨ h.segs ≤ h.seg ∨ h.site = t.site then s
  else
    let same := fun (x : InStream) => decide (x.round = h.round) && decide (x.site = h.site) && decide (x.decide = decide_)
    let old := ((s.co k).far.inStreams.find? same).getD
      { round := h.round, site := h.site, decide := decide_, segs := h.segs, data := [], seen := [] }
    if old.segs ≠ h.segs then s
    else if old.seen.contains h.seg then (if old.seen.length = old.segs then s.sendAck k t old else s)
    else
      let new := { old with data := tput old.data h.seg h.payload, seen := h.seg :: old.seen }
      let s := s.modFar k (fun f => { f with
        inStreams := (f.inStreams.filter (fun x => !same x && decide (r ≤ x.round + 1))) ++ [new] })
      if new.seen.length = new.segs then s.sendAck k t new else s

/-- The segments that a bitmap names (DEDUCED, log 55). -/
def ackNames (h : CfxHead) (seg : Nat) : Bool :=
  decide (h.seg ≤ seg) && ((h.payload.getD ((seg - h.seg) / 8) 0).getLsbD ((seg - h.seg) % 8))

/-- An ACK of a snapshot: its segments leave the list of those not acknowledged, and the stream goes on (R323). -/
def State.snapAck (s : State) (p : Nat) (h : CfxHead) : State :=
  let s := s.modFarPort p (fun f => { f with snapUnacked := f.snapUnacked.filter (fun u =>
    !(decide (u.1.1 = h.gateway) && decide (u.1.2.1 % 2 ^ 40 = h.round) && ackNames h u.1.2.2)) })
  if h.gateway < 16 then s.streamFlush h.gateway else s

/-- An ACK of a round: the segments leave the streams of that round to that site with as many segments (R323) (DEDUCED, log 55). -/
def State.roundAck (s : State) (k : Nat) (h : CfxHead) : State :=
  s.modFar k (fun f => { f with outStreams := f.outStreams.map (fun o =>
    if o.round = h.round ∧ o.site = h.site ∧ o.segments.length = h.segs then { o with unacked := o.unacked.filter (fun i => !ackNames h i) } else o) })

/-! ### Retransmission (R323) -/

/-- RETX_MS in ns: that of the company's round table, 2 ms where it has none (R309, R323) (DEDUCED, log 56). -/
def Far.retxNs (f : Far) : Nat := (f.lastTable.elim 2 (fun t => t.retxMs)) * 1000000

/-- CFX_ACK_TIMER (R323): half of RETX_MS after the last one, an ACK goes out for every incomplete stream. -/
def State.ackTimer (s : State) (k : Nat) : State :=
  let f := (s.co k).far
  match f.table with
  | none => s
  | some t =>
    if f.ackNs + f.retxNs / 2 ≤ s.nowNs then
      (f.inStreams.filter (fun x => decide (x.seen.length < x.segs))).foldl (fun s x => s.sendAck k t x)
        (s.modFar k (fun f => { f with ackNs := s.nowNs }))
    else s

def execCfxAckTimer (company : Nat) (s : State) : Host.Outcome State Fault Refusal := onCompany company s (fun s => s.ackTimer company)

/-- Snapshot segments `seg` of the company that are not acknowledged RETX_MS after they last left go out again on far port `p` (R323)
(DEDUCED, log 56). -/
def State.snapAgain (s : State) (k p seg : Nat) : State :=
  let f := s.farPort p
  let due := fun (u : (Nat × Nat × Nat) × Nat × List Byte) =>
    decide (u.1.1 = k) && decide (u.1.2.2 = seg) && decide (u.2.1 + (s.co k).far.retxNs ≤ s.nowNs)
  if s.farUp p ∧ s.hasShare k p then
    let s1 := (f.snapUnacked.filter due).foldl (fun s u =>
      (s.modFar k (fun f => { f with retx := f.retx + 1 })).farSend p f.snapPeer (if f.snapUdp = 0 then 47344 else f.snapUdp.toNat) u.2.2) s
    s1.modFarPort p (fun f => { f with snapUnacked := f.snapUnacked.map (fun u => if due u then (u.1, s.nowNs, u.2.2) else u) })
  else s

/-- HARD_MS have passed since the first send of a round (R323). -/
def State.roundExpired (s : State) (k round : Nat) : Bool :=
  let f := (s.co k).far
  f.table.elim false (fun t => f.outStreams.any (fun o => decide (o.round = round) && decide (o.firstNs + t.hardMs * 1000000 ≤ s.nowNs)))

/-- A stream has to send segment `seg` to `site` again: it is not acknowledged RETX_MS after it last left (R323). -/
def State.resends (s : State) (k site seg : Nat) (o : OutStream) : Bool :=
  decide (o.site = site) && !o.stopped && !s.roundExpired k o.round && o.unacked.contains seg &&
    decide (tget 0 o.sentNs seg + (s.co k).far.retxNs ≤ s.nowNs + 1)

/-- CFX_RETRANSMIT (R323): the segment goes out again in every stream to the site that has still to be acknowledged for it; sites 16 and 17 name
the snapshot peers of the far ports (DEDUCED, log 56). -/
def State.retransmit (s : State) (k site seg : Nat) : State :=
  if 16 ≤ site then s.snapAgain k (site - 16) seg else
  match (s.co k).far.table with
  | none => s
  | some t =>
    let s1 := ((s.co k).far.outStreams.filter (s.resends k site seg)).foldl (fun s o =>
      (s.modFar k (fun f => { f with retx := f.retx + 1 })).cfxSend k t site (outDatagram t o seg)) s
    s1.modFar k (fun f => { f with outStreams := f.outStreams.map (fun o =>
      if s.resends k site seg o then { o with sentNs := tset 0 o.sentNs seg (s.nowNs + 1) } else o) })

def execCfxRetransmit (company site segment : Nat) (s : State) : Host.Outcome State Fault Refusal :=
  onCompany company s (fun s => s.retransmit company site segment)

/-- CFX_HARD_EXPIRY (R323): the streams of every round whose first send lies HARD_MS back stop. -/
def State.hardExpiry (s : State) (k : Nat) : State :=
  s.modFar k (fun f => { f with outStreams := f.outStreams.map (fun o => if s.roundExpired k o.round then { o with stopped := true } else o) })

def execCfxHardExpiry (company : Nat) (s : State) : Host.Outcome State Fault Refusal := onCompany company s (fun s => s.hardExpiry company)

/-! ### The decision (R324 to R327) -/

/-- The contribution of a site to a round, once every segment has arrived. -/
def Far.complete (f : Far) (round site : Nat) : Option (List Byte) :=
  (f.inStreams.find? (fun x => decide (x.round = round) && decide (x.site = site) && !x.decide && decide (x.seen.length = x.segs))).map
    (fun x => x.data.flatMap (fun p => p.2))

/-- A word with two bits per site. -/
def siteWord (sites : Nat) (f : Nat → Nat) : Word := BitVec.ofNat 32 (packBits ((List.range sites).map (fun i => (2, f i))))

/-- The record of the previous round, when it is round r − 1 (R324) (DEDUCED, log 57). -/
def Far.priorOf (f : Far) (r : Nat) : Option Decision := f.prior.filter (fun d => decide (d.round + 1 = r))

/-- The leader's decision `ms` after T0: none before its earliest moment (R325) (DEDUCED, log 57). -/
def decideRound (f : Far) (x : FarCtx) (ms : Nat) : Option Decision :=
  let t := x.t
  let done := fun (site : Nat) => decide (site = t.site) || (f.complete x.r site).isSome
  let count := ((List.range t.sites).filter done).length
  let make := fun (verdict : Byte) (current : Nat → Nat) =>
    let prior := (f.priorOf x.r).elim 0 (fun d => siteWord t.sites (fun i =>
      if siteBits d.current i = 2 then (if verdict = 0 ∧ (f.complete (x.r - 1) i).isSome then 1 else 2) else 0))
    ({ round := x.r, verdict := verdict, gateway := t.gatewayIndex, current := siteWord t.sites current, prior := prior,
       elapsedMs := BitVec.ofNat 32 ms } : Decision)
  if ms ≤ t.hardMs ∧ count = t.sites then some (make 0 (fun _ => 1))
  else if t.deadlineMs ≤ ms ∧ ms ≤ t.hardMs ∧ t.quorum ≤ count then some (make 0 (fun i => if done i then 1 else if t.carry then 2 else 0))
  else if t.hardMs ≤ ms then some (make 1 (fun _ => 0))
  else none

/-- Milliseconds since T0 (R324). -/
def State.sinceT0 (s : State) (k : Nat) : Option Nat := (s.co k).far.t0.map (fun t => (s.nowNs - t) / 1000000)

/-- FAR_DECISION (R325): the leader's gateway decides, logs a late or void round, and has the record sealed for its peers (R324). -/
def State.farDecide (s : State) (k : Nat) : State :=
  match s.roundCtx k with
  | none => s
  | some x =>
    let f := (s.co k).far
    if f.gateway ∧ x.t.site = x.t.leader ∧ f.phase = .exchange ∧ f.decision.isNone ∧ f.replay = false then
      match (s.sinceT0 k).bind (decideRound f x) with
      | none => s
      | some d =>
        let s := s.modFar k (fun f => { f with decision := some d, recordAsked := true })
        let pick := fun (st : Nat → Bool) => packBits ((List.range 16).map (fun i => (1, b2n (decide (i < x.t.sites) && st (siteBits d.current i)))))
        let s :=
          if d.verdict = 1 then s.log 5 0 1 k 0x0703#16 [(40, x.r), (16, x.t.gatewayIndex), (16, packBits ((List.range x.t.sites).map (fun i =>
            (1, b2n (decide (i = x.t.site) || (f.complete x.r i).isSome)))))]
          else if pick (fun st => decide (st ≠ 1)) ≠ 0 then
            s.log 5 0 1 k 0x0702#16 [(40, x.r), (16, x.t.gatewayIndex), (16, pick (fun st => decide (st ≠ 1)))]
          else s
        s.farAsk k x.t (farMessage (.far k .record 0) x.t x.r x.t.site 0xFFFF x.t.gatewayIndex true d.bytes none)
    else s

/-- A gateway that holds every segment of the leader's record has it opened (R324, R326) (DEDUCED, log 55). -/
def State.recordGo (s : State) (k : Nat) (x : FarCtx) : State :=
  let f := (s.co k).far
  match f.inStreams.find? (fun y => decide (y.round = x.r) && y.decide && decide (y.seen.length = y.segs)) with
  | none => s
  | some y =>
    let bs := y.data.flatMap (fun p => p.2)
    let m := farMessage (.far k .decide 0) x.t x.r x.t.leader 0xFFFF x.t.gatewayIndex true ((bs.drop 16).take 32) (some (bs.drop 48))
    if f.recordAsked ∨ f.replay ∨ f.decision.isSome ∨ bs.length ≠ 64 ∨ bs.take 16 ≠ m.aad then s
    else (s.modFar k (fun f => { f with recordAsked := true })).farAsk k x.t m

/-- Every contribution that a record marks ACCEPTED or CARRIED, sites ascending, with its slot base: 0 for the round, 16 for the one before
(R326). -/
def Decision.needs (d : Decision) (t : RoundTable) : List (Nat × Nat) :=
  (List.range t.sites).flatMap (fun i =>
    (if siteBits d.current i = 1 then [(i, 0)] else []) ++ (if siteBits d.prior i = 1 then [(i, 16)] else []))

/-- A contribution that the gateway holds: its own from the inbox, or as it was sent in the round before, another site's as received. -/
def State.heldContribution (s : State) (k : Nat) (x : FarCtx) (n : Nat × Nat) : Option (List Byte) :=
  let f := (s.co k).far
  if n.1 = x.t.site then
    (if n.2 = 0 then s.ownContribution k x
     else some ((f.outStreams.find? (fun o => decide (o.kind = 1) && decide (o.round + 1 = x.r))).elim [] (fun o => o.segments.flatten)))
  else f.complete (if n.2 = 0 then x.r else x.r - 1) n.1

/-- Replay (R333): the record and the contributions at the front of the bytes taken from LEDGER_QUEUE, once all are there. -/
def replayRecord (x : FarCtx) (bs : List Byte) : Option (Decision × List ((Nat × Nat) × List Byte)) :=
  let d := readDecision ((bs.drop 64).take 32)
  let needs := d.needs x.t
  if 96 ≤ bs.length ∧ 96 + needs.length * x.length ≤ bs.length then
    some (d, (needs.zipIdx).map (fun n => (n.1, (bs.drop (96 + n.2 * x.length)).take x.length)))
  else none

/-- Every contribution that a record marks, with its slot base; none while the gateway lacks one (R326, R333). -/
def State.held (s : State) (k : Nat) (x : FarCtx) (d : Decision) : Option (List ((Nat × Nat) × List Byte)) :=
  if (s.co k).far.replay then
    (if siteBits d.current x.t.site = 1 ∧ s.ownComplete x = false then none else (replayRecord x (s.co k).far.replayBuf).map (fun r => r.2))
  else allSome (fun n => (s.heldContribution k x n).map (fun bs => (n, bs))) (d.needs x.t)

/-- The inbound slots of every served module go out to be written: the record ahead of the slots, and each needed contribution of the other
sites (R326). -/
def State.writeSlots (s : State) (k : Nat) (x : FarCtx) (d : Decision) (got : List ((Nat × Nat) × List Byte)) : State :=
  (x.items.foldl (fun s i =>
    got.foldl (fun s g =>
      if g.1.1 = x.t.site then s else s.wingsPut (.far k) (i.entry (g.1.1 + g.1.2)) ((g.2.drop i.off).take i.len))
      (s.wingsPut (.far k) i.slots d.bytes)) s).modFar k (fun f => { f with decision := some d, put := true })

/-- A gateway's entries of the vote vector (R327, R328). -/
def gatewayVotes (d : Decision) (sites : Nat) (v : Table Nat) : Table Nat :=
  let v := (List.range sites).foldl (fun v i => if siteBits d.current i = 1 then tset 0 v i 1 else v) v
  if d.verdict = 0xFF then tset 0 v 16 1 else if d.verdict = 1 then tset 0 v 18 1 else v

/-- LEDGER_QUEUE while its handle is current and it streams in the direction asked for: mode 1 out, 2 in (R332, R333, R392). -/
def State.ledgerQueue (s : State) (k : Nat) (t : RoundTable) (mode : Nat) : Option Nat :=
  (s.absQueue k t.ledgerQueue).filter (fun q =>
    let y := s.queue q
    y.enable && decide (y.gen = t.ledgerGen) && decide (y.typ = 2) && decide (y.mode.toNat = mode))

/-- Moves the ledger stream into the ring of LEDGER_QUEUE as far as it has room, at most `limit` bytes; a stale handle ends it, and a queue
that is no longer the company's is a violation (R283, R332, R392, R401) (DEDUCED, log 111). -/
def State.ledgerOut (s : State) (k limit : Nat) : State :=
  let f := (s.co k).far
  match f.table with
  | none => s
  | some t =>
    if f.ledgerBuf = [] then s
    else
      let ended := s.modFar k (fun f => { f with ledgerBuf := [] })
      match s.ledgerQueue k t 1 with
      | none => if (s.absQueue k t.ledgerQueue).isNone then ended.targetGone k (s.absChan k t.channel) t.ledgerQueue else ended
      | some q =>
        if s.entryWaits q then s
        else
          let (n, s) := s.ringStream q limit f.ledgerBuf
          let s := s.modFar k (fun f => { f with ledgerBuf := f.ledgerBuf.drop n })
          if n = f.ledgerBuf.length then s.ringStreamEnd q else s

/-- Moves out what can leave without a wings slot. -/
def State.ledgerFlush (s : State) (k : Nat) : State :=
  s.ledgerOut k (((s.co k).far.table.bind (fun t => s.ledgerQueue k t 1)).elim 0 (fun q => (s.queue q).streamLimit))

/-- The ledger record of a round (R332). -/
def ledgerRecord (x : FarCtx) (d : Decision) (got : List ((Nat × Nat) × List Byte)) : List Byte :=
  let body := d.bytes ++ got.flatMap (fun g => g.2)
  padTo 64 (ascii "PV8LEDGR" ++ leBytes 5 x.r ++ leBytes 1 x.t.site ++ leBytes 2 x.t.gatewayIndex ++ leBytes 8 (64 + body.length)) ++ body

/-- A replaying gateway takes the entries of LEDGER_QUEUE one by one until it holds the record of the round in progress; records of other
rounds are passed over (R333) (DEDUCED, log 58). -/
def State.replayTake (k q : Nat) (x : FarCtx) : Nat → State → State
  | 0, s => s
  | n + 1, s =>
    match (if (s.co k).far.decision.isNone ∧ 0 < (s.queue q).count then s.ringEntry q 0 else none) with
    | none => s
    | some e =>
      let bs := (s.co k).far.replayBuf ++ e
      let s := (s.takeEntries q 1).modQueue q (fun y => { y with streamBytes := y.streamBytes + 64 })
      State.replayTake k q x n (match replayRecord x bs with
        | none => s.modFar k (fun f => { f with replayBuf := bs })
        | some r =>
          let s := s.modQueue q (fun y => { y with streamEnds := y.streamEnds + 1 })
          if bs.take 8 = ascii "PV8LEDGR" ∧ r.1.round = x.r then s.modFar k (fun f => { f with replayBuf := bs, decision := some r.1 })
          else s.modFar k (fun f => { f with replayBuf := [] }))

def State.replayGo (s : State) (k : Nat) (x : FarCtx) : State :=
  match s.ledgerQueue k x.t 2 with
  | some q => if (s.co k).far.replay ∧ s.queueFrozen q = false ∧ s.entryWaits q = false then State.replayTake k q x (s.queue q).count s else s
  | none => s

/-- The slots have been written: the gateway adds its votes, streams its ledger record and posts LAND_CTR (R326 to R328, R332, R333). -/
def State.gatewayDone (s : State) (k : Nat) (x : FarCtx) (d : Decision) : State :=
  let got := if d.verdict = 0xFF then [] else (s.held k x d).getD []
  let replay := (s.co k).far.replay
  let s := s.modFar k (fun f => { f with put := false, phase := .landing, votes := gatewayVotes d x.t.sites f.votes, replayBuf := [],
                                         ledgerBuf := f.ledgerBuf ++ (if replay then [] else ledgerRecord x d got) })
  (s.ledgerFlush k).farPost k x.t 1

/-- The FAR unit's writes have left: a gateway is done with its slots (R326, R327), an owner posts OPEN_CTR (R328). -/
def State.farSettle (s : State) (k : Nat) (x : FarCtx) : State :=
  let f := (s.co k).far
  if f.put && !s.wingsBusy (.far k) then
    match f.phase, f.decision with
    | .exchange, some d => s.gatewayDone k x d
    | .opening, _ => (s.modFar k (fun f => { f with put := false })).farPost k x.t 2
    | _, _ => s
  else s

/-- GATEWAY_DECIDED (R326, R333): the gateway holds the record and what it marks, and its slots go out to be written. -/
def State.gatewayDecide (s : State) (k : Nat) : State :=
  match s.roundCtx k, (s.co k).far.decision with
  | some x, some d =>
    let f := (s.co k).far
    if f.gateway ∧ f.phase = .exchange ∧ f.put = false then
      match s.held k x d with
      | some got => (s.writeSlots k x d got).farSettle k x
      | none => s
    else s
  | _, _ => s

/-- GATEWAY_UNDECIDED (R327): HARD_MS after T0 the gateway is not decided. -/
def State.gatewayUndecide (s : State) (k : Nat) : State :=
  match s.roundCtx k with
  | none => s
  | some x =>
    let f := (s.co k).far
    let decided := f.decision.elim false (fun d => (s.held k x d).isSome)
    if f.gateway ∧ f.phase = .exchange ∧ f.put = false ∧ decided = false ∧ (s.sinceT0 k).elim false (fun ms => decide (x.t.hardMs ≤ ms)) then
      (s.writeSlots k x { round := x.r, verdict := 0xFF, gateway := x.t.gatewayIndex } []).farSettle k x
    else s

/-! ### Opening and the vote (R328) -/

/-- The slots that an owner opens, in order: parcel, site, entry (R326, R328). -/
def openList (x : FarCtx) (d : Decision) : List ((Parcel × Shard) × Nat × Nat) :=
  x.ps.flatMap (fun p => ((d.needs x.t).filter (fun n => n.1 ≠ x.t.site)).map (fun n => (p, n.1, n.1 + n.2)))

/-- Address and length of a slot entry of an owner (R326). -/
def slotAt (o : (Parcel × Shard) × Nat × Nat) : Nat × Nat :=
  (o.1.1.slots + 256 + o.2.2 * up256 (parcelLen o.1), parcelLen o.1)

/-- What the owner reads next: the record ahead of its first slots, then each marked slot (R328). -/
def State.openRead (s : State) (k : Nat) (x : FarCtx) : Option (Nat × Nat) :=
  let f := (s.co k).far
  match f.ownerRecord with
  | none => x.ps.head?.map (fun p => (p.1.slots, 32))
  | some d => ((openList x d)[f.taken]?).map slotAt

/-- A slot that has been read is opened in place; one whose descriptor is wrong fails at once (R328). -/
def State.openSlot (s : State) (k : Nat) (x : FarCtx) (o : (Parcel × Shard) × Nat × Nat) (a : Nat) (bs : List Byte) : State :=
  let r := if o.2.2 < 16 then x.r else x.r - 1
  let m := farMessage (.far k (.slot r o.1.1.shard o.2.1) (a + 16)) x.t r o.2.1 o.1.1.shard s.island.coord.toNat false
    ((bs.drop 16).take (bs.length - 32)) (some (bs.drop (bs.length - 16)))
  let s := s.modFar k (fun f => { f with taken := f.taken + 1 })
  if bs.take 16 = m.aad then s.farAsk k x.t m else s.slotFailed k r o.1.1.shard o.2.1

def State.openGo (s : State) (k : Nat) (x : FarCtx) : State :=
  match s.openRead k x with
  | none => s
  | some r =>
    if s.wingsHas (.far k) r.1 r.2 then
      let bs := (s.wingsBytes (.far k) r.1 r.2).1
      let s := s.wingsUse (.far k) r.1 r.2
      match (s.co k).far.ownerRecord with
      | none => s.modFar k (fun f => { f with ownerRecord := some (readDecision bs) })
      | some d => ((openList x d)[(s.co k).far.taken]?).elim s (fun o => s.openSlot k x o r.1 bs)
    else s

/-- The vote vector at VOTE_SRC: entries 0 to 19, every other one zero (R328). -/
def voteBytes (v : Table Nat) : List Byte := (List.range 20).flatMap (fun i => leBytes 8 (tget 0 v i)) ++ List.replicate (65536 - 160) 0

/-- OPEN_COMPLETE (R328): every marked slot has been opened or has failed; the vote vector goes out, and OPEN_CTR is posted once it is written
(DEDUCED, log 57). -/
def State.openRound (s : State) (k : Nat) : State :=
  match s.roundCtx k, (s.co k).far.ownerRecord with
  | some x, some d =>
    let f := (s.co k).far
    if f.phase = .opening ∧ f.put = false ∧ tget 0 f.votes 19 = 0 ∧ f.finished = (openList x d).length then
      let votes := tset 0 (tset 0 f.votes 17 f.tagFails) 19 1
      let s := s.modFar k (fun f => { f with decision := some d, votes := votes, put := true })
      s.wingsPut (.far k) x.t.voteSrc (voteBytes votes)
    else s
  | _, _ => s

def execOpenComplete (company : Nat) (s : State) : Host.Outcome State Fault Refusal := onCompany company s (fun s => s.openRound company)

/-! ### The FAR unit goes on -/

/-- What the FAR unit reads next in the phase in hand (R317, R320, R328). -/
def State.farReads (s : State) (k : Nat) : Option (Nat × Nat) :=
  (s.roundCtx k).bind (fun x => match (s.co k).far.phase with
    | .sealing => s.sealRead k x
    | .exchange => s.ownRead k x
    | .opening => s.openRead k x
    | _ => none)

/-- The FAR unit asks for the access at `u`: it belongs to what it reads next, and has not been read. -/
def State.farWants (s : State) (k u : Nat) : Bool :=
  (s.farReads k).elim false (fun r => decide (u % 64 = 0) && decide (r.1 < u + 64) && decide (u < r.1 + r.2) && (s.wingsFind (.far k) u).isNone)

/-- The FAR unit goes on as far as what it has read and received lets it (R317, R320, R324, R326, R328, R333). -/
def State.farGo (s : State) (k : Nat) : State :=
  match s.roundCtx k with
  | none => s
  | some x =>
    match (s.co k).far.phase with
    | .sealing => s.sealGo k x
    | .exchange => if (s.co k).far.gateway then ((((s.ownGo k x).sendGo k x).recordGo k x).replayGo k x).farSettle k x else s
    | .opening => (s.openGo k x).farSettle k x
    | _ => s

/-- COLLECTIVE_CHUNK_DONE (R216, R320). -/
def execCollectiveChunkDone (company : Nat) (plan : BitVec 16) (s : State) : Host.Outcome State Fault Refusal :=
  onCompany company s (fun s => (s.chunkDone company plan.toNat).farGo company)

/-- CFX_PARCEL_RECEIVE (R322, R323). -/
def execCfxParcelReceive (farPort : Bool) (company : Nat) (datagram : List Byte) (s : State) : Host.Outcome State Fault Refusal :=
  onCompany company s (fun s => (s.cfxIn farPort company 1 datagram (fun h t => s.keepSegment company h t false)).farGo company)

/-- CFX_DECIDE_RECEIVE (R324): kept until the gateway is decided. -/
def execCfxDecideReceive (farPort : Bool) (company : Nat) (datagram : List Byte) (s : State) : Host.Outcome State Fault Refusal :=
  onCompany company s (fun s => (s.cfxIn farPort company 3 datagram (fun h t =>
    if h.site = t.leader then s.keepSegment company h t true else s)).farGo company)

/-- CFX_ACK_RECEIVE (R323). -/
def execCfxAckReceive (farPort : Bool) (company : Nat) (datagram : List Byte) (s : State) : Host.Outcome State Fault Refusal :=
  onCompany company s (fun s =>
    match cfxRead datagram with
    | some h =>
      if h.typ = 2 ∧ h.run = 0 then (if s.farUp (b2n farPort) then s.snapAck (b2n farPort) h else s)
      else s.cfxIn farPort company 2 datagram (fun h _ => s.roundAck company h)
    | none => s.cfxIn farPort company 2 datagram (fun _ _ => s))

/-- CFX_SNAP_RECEIVE (R321 to R323): the frame is checked; the manual gives a module nowhere to keep another's snapshot (DEDUCED, log 55). -/
def execCfxSnapReceive (farPort : Bool) (company : Nat) (datagram : List Byte) (s : State) : Host.Outcome State Fault Refusal :=
  onCompany company s (fun s =>
    if s.farUp (b2n farPort) = false then s
    else match cfxRead datagram with
      | some h => if h.run = 0 then s else s.badFrame company
      | none => s.badFrame company)

/-- FAR_DECISION (R325). -/
def execFarDecision (company : Nat) (s : State) : Host.Outcome State Fault Refusal :=
  onCompany company s (fun s => (s.farGo company).farDecide company)

/-- GATEWAY_DECIDED (R326). -/
def execGatewayDecided (company : Nat) (s : State) : Host.Outcome State Fault Refusal :=
  onCompany company s (fun s => (s.farGo company).gatewayDecide company)

/-- GATEWAY_UNDECIDED (R327). -/
def execGatewayUndecided (company : Nat) (s : State) : Host.Outcome State Fault Refusal :=
  onCompany company s (fun s => (s.farGo company).gatewayUndecide company)

/-! ### The apply pass and the ledger (R328, R329, R332) -/

/-- Where the sum of the vote vector stands: the destination of the round plan that reads VOTE_SRC, or VOTE_SRC itself where no plan does (DEDUCED, log 57). -/
def State.voteSum (s : State) (k : Nat) (t : RoundTable) : Nat :=
  let chunks := ((s.co k).seq.image.elim [] (fun i => i.plans)).flatMap (fun p => p.chunks)
  (chunks.find? (fun c => decide (c.srcKind = 2) && decide (c.src = t.voteSrc) && decide (c.dstKind = 2))).elim t.voteSrc (fun c => c.dst)

/-- A round's entry in the module's ledger ring (R332). -/
def ledgerEntry (f : Far) (d : Decision) (digest : Nat) (votes : List Nat) (missed : Bool) : List Byte :=
  padTo 256 (leBytes 8 f.round.toNat ++ leBytes 8 (f.s0 + 2 ^ 48 * f.a0) ++ leBytes 8 f.c0.toNat ++ leBytes 8 digest ++ d.bytes ++
    votes.flatMap (fun v => leBytes 8 v) ++ [BitVec.ofNat 8 (b2n missed)])

/-- APPLY_PASS (R329), from APPLY_START: the vote is read, every parcel is applied, and the round is recorded. -/
def State.applyRound (s : State) (k : Nat) : State :=
  match s.roundCtx k with
  | none => s
  | some x =>
    let f := (s.co k).far
    let q := (s.co k).seq
    match f.decision with
    | none => s
    | some d =>
      if f.phase = .apply ∧ f.applied = false ∧ q.step.toNat = f.s0 + x.t.land + 1 ∧ q.phase = .step then
        (s.stageFrom k (q.cycleAt x.t.applyStart)).elim s (fun s =>
        let at_ := s.voteSum k x.t
        let votes := (List.range 20).map (fun i => s.dramNat (at_ + 8 * i) 8)
        let missed := decide (votes.getD 16 0 ≠ 0) || decide (votes.getD 17 0 ≠ 0) || decide (votes.getD 19 0 ≠ q.members)
        let r := x.ps.foldl (fun (r : State × Nat) p =>
          let o := r.1.applyParcel k x.t x.r f.copy (missed || decide (d.verdict ≠ 0)) d p.1 p.2
          (o.1, r.2 + o.2)) (s, 0)
        let s := r.1.dramWrite (x.t.ledger + 256 * (x.r % 2 ^ x.t.ledgerLog2)) (ledgerEntry f d r.2 votes missed)
        let s := s.modFar k (fun f => { f with applied := true, phase := .install, resync := f.resync || missed,
                                               missedRounds := if missed then satAdd f.missedRounds 1 else f.missedRounds })
        if missed then s.log 5 0 1 k 0x0704#16 [(40, x.r), (32, votes.getD 16 0), (32, votes.getD 17 0)] else s)
      else s

def execApplyPass (company : Nat) (s : State) : Host.Outcome State Fault Refusal := onCompany company s (fun s => s.applyRound company)

/-! ### Far ports (R283, R341) -/

/-- A far port's link goes down: logged, and the snapshot streams on it end early (R283, R337). -/
def State.farDown (s : State) (p : Nat) : State :=
  if (s.farPort p).link = 0 then s
  else
    let s := (s.modFarPort p (fun f => { f with link := 0, snapUnacked := [] })).log 5 0 1 0 0x0707#16 [(1, p)]
    (0 :: companyList).foldl (fun s k => s.abortStreams k 3 (fun x => decide (x.dest ≠ 0) && decide (destPort x.dest = p))) s

/-- FAR_PORT_DOWN (R337). -/
def execFarPortDown (port : Bool) (s : State) : Host.Outcome State Fault Refusal := .next (s.farDown (b2n port))

/-- FAR_PORT_LINK_UP (R341). -/
def execFarPortLinkUp (port : Bool) (s : State) : Host.Outcome State Fault Refusal :=
  .next (s.modFarPort (b2n port) (fun f => { f with link := if f.lasers then 2 else f.link }))

end Sys2Proof.Machine
end

