-- ==== Sys2Proof/Machine/Company.lean ====
section
/-!
DEFINITION. Configuration transactions (R405 to R408) and the company commands' checks (R371, R373, R374, R376, R389, R400).
-/

namespace Sys2Proof.Machine

/-! ### Transactions -/

/-- TXN_BEGIN (R405). -/
def beginBody (curtain : Bool) (timeoutS : Nat) (s : State) (k : Nat) : Answer :=
  let x := (s.co k).txn
  if x.opened.isSome then { state := s, status := stNoResource }
  else
    let id : Word := BitVec.ofNat 32 (k * 2 ^ 28 + (x.count + 1))
    let o : OpenTxn := { id := id, curtain := curtain, timeoutS := if timeoutS = 0 then 10 else timeoutS, begunNs := s.nowNs, staged := [] }
    { state := s.modCo k (fun c => { c with txn := { c.txn with count := c.txn.count + 1, opened := some o } }), txn := some id }

def execTxnBegin (h : Pkt) (mode : Bool) (timeoutS : BitVec 10) (s : State) : Host.Outcome State Fault Refusal :=
  .next (s.serve h 0x0001#16 [(1, b2n mode), (10, timeoutS.toNat)] false .never (beginBody mode timeoutS.toNat))

/-- A curtain that may still be named (R407). In a recast or re-shard phase the step counter names the step to come, whose curtain is still
ahead. -/
def Seq.curtainAhead (q : Seq) (step : BitVec 48) : Bool :=
  match q.state with
  | .empty => false
  | .stopped => false
  | .loaded => true
  | .armed => decide (q.startStep.toNat ≤ step.toNat)
  | _ => decide (q.step.toNat < step.toNat) || (decide (q.step = step) && !(q.curtainActed && decide (q.phase = .step)))

/-- The epoch at which an epoch transaction committed now applies (R405). -/
def State.nextEpoch (s : State) (k : Nat) : Nat :=
  let q := (s.co k).seq
  if s.runs k then q.startEpoch.toNat + q.epochs + (if q.waiting then 0 else 1) else s.tor.houseEpoch.toNat + 1

/-- TXN_COMMIT (R407) (DEDUCED, log 61). -/
def commitBody (step : BitVec 48) (ctr : Nat) (gen : BitVec 8) (s : State) (k : Nat) : Answer :=
  let x := (s.co k).txn
  match x.opened with
  | none => { state := s, status := stBadArg }
  | some o =>
    if o.curtain = true ∧ (s.co k).seq.curtainAhead step = false then { state := s, status := stBadArg }
    else if 8 ≤ x.committed.length then { state := s, status := stNoResource }
    else match (if ctr = 0x1FFF then some true else s.ctrCurrent k ctr gen) with
      | none => { state := s, status := stDenied }
      | some false => { state := s, status := stStale }
      | some true =>
        let t : CommittedTxn := { id := o.id, step := if o.curtain then some step else none, ctr := if ctr = 0x1FFF then none else some (ctr, gen),
                                  staged := o.staged }
        let s' := s.modCo k (fun c => { c with
          txn := { c.txn with opened := none, committed := c.txn.committed ++ [t] },
          col := if o.curtain && hasReshard o.staged then { c.col with reshardState := 1 } else c.col })
        { state := s', result := leBytes 8 (if o.curtain then step.toNat else s.nextEpoch k) }

def execTxnCommit (h : Pkt) (step : BitVec 48) (ctrIndex : BitVec 13) (ctrGen : BitVec 8) (s : State) : Host.Outcome State Fault Refusal :=
  .next (s.serve h 0x0002#16 [(48, step.toNat), (13, ctrIndex.toNat), (8, ctrGen.toNat)] false .never (commitBody step ctrIndex.toNat ctrGen))

/-- TXN_ABORT (R408) (DEDUCED, log 61). -/
def execTxnAbort (h : Pkt) (s : State) : Host.Outcome State Fault Refusal :=
  .next (s.serve h 0x0003#16 [] false .never (fun s k => { state := s.abortTxn k }))

/-- TXN_TIMEOUT (R408): TIMEOUT_S has passed since TXN_BEGIN. -/
def execTxnTimeout (company : Nat) (s : State) : Host.Outcome State Fault Refusal :=
  onCompany company s (fun s =>
    match (s.co company).txn.opened with
    | none => s
    | some o =>
      if o.begunNs + o.timeoutS * 1000000000 ≤ s.nowNs then (s.abortTxn company).log 8 0 1 company 0x0001#16 [(4, company), (32, o.id.toNat)]
      else s)

/-! ### What staged company commands have reserved (R406) -/

/-- The house's grants as they will stand when its staged and committed commands have been applied (DEDUCED, log 60). -/
def State.reserved (s : State) : State :=
  let x := (s.co 0).txn
  let staged := ((x.committed.filter (fun t => t.step.isNone)).flatMap (fun t => t.staged)) ++ x.opened.elim [] (fun o => if o.curtain then [] else o.staged)
  staged.foldl (fun s i => State.applyEpoch i s) s

/-- A company that CO_DESTROY, CO_GRANT and CO_RETURN may name. -/
def State.isCompany (s : State) (k : Nat) : Bool := decide (1 ≤ k) && (s.co k).present

/-- A company's script is empty (R164). -/
def State.scriptEmpty (s : State) (k : Nat) : Bool := decide ((s.co k).seq.state = .empty)

/-! ### CO_CREATE and CO_DESTROY (R370, R389) -/

/-- A function serves a company. -/
def State.serves (s : State) (f : Nat) : Bool := companyList.any (fun k => (s.co k).present && decide ((s.co k).function = f))

/-- The checks of CO_CREATE, against the state and what is reserved (DEDUCED, log 60). -/
def createCheck (k f : Nat) (v r : State) : Option (Byte × Nat) :=
  if k = 0 ∨ (v.co k).present ∨ f = 0 ∨ 16 < f then some (stBadArg, 0)
  else if v.serves f ∨ r.serves f ∨ (r.co k).present then some (stNoResource, 0)
  else none

/-- The states against which a company command is checked: its own view, and everything reserved (R376, R406) (DEDUCED, log 60). -/
def State.views (s : State) (h : Pkt) : State × State := let r := s.reserved; (if h.txn = 0 then s else r, r)

def execCoCreate (h : Pkt) (company : BitVec 4) (function : BitVec 5) (s : State) : Host.Outcome State Fault Refusal :=
  .next (s.serve h 0x0010#16 [(4, company.toNat), (5, function.toNat)] true .epoch (stageOr h (.coCreate h company function)
    (fun s _ => let v := s.views h; createCheck company.toNat function.toNat v.1 v.2)
    (fun s _ => s.applyCreate company.toNat function.toNat)))

/-- The checks of CO_DESTROY. -/
def destroyCheck (k : Nat) (v : State) : Option (Byte × Nat) :=
  if v.isCompany k = false then some (stBadArg, 0) else if v.scriptEmpty k = false then some (stLocked, 0) else none

def execCoDestroy (h : Pkt) (company : BitVec 4) (s : State) : Host.Outcome State Fault Refusal :=
  .next (s.serve h 0x0011#16 [(4, company.toNat)] true .epoch (stageOr h (.coDestroy h company)
    (fun s _ => destroyCheck company.toNat (s.views h).1)
    (fun s _ => s.applyDestroy company.toNat)))

/-! ### CO_GRANT and CO_RETURN (R371, R373, R374, R376, R400) -/

/-- Most indices of a kind that is granted by range: queues, counters, watches, key slots, channels. -/
def kindLimit (kind : Nat) : Option Nat :=
  match kind with
  | 3 => some 32768
  | 4 => some 8192
  | 5 => some 16384
  | 6 => some 64
  | 7 => some 256
  | _ => none

/-- The range of a kind that a company holds. -/
def Co.range (c : Co) (kind : Nat) : Option Range :=
  match kind with
  | 3 => c.queues
  | 4 => c.counters
  | 5 => c.watches
  | 6 => c.keySlots
  | 7 => c.chans
  | _ => none

/-- The fields of a grant are in form and in range (R371). -/
def grantForm (kind first count extra : Nat) : Bool :=
  match kind with
  | 1 => decide (nbits first 7 5 = 0) && decide (first < 2 ^ 13) && decide (nbits count 7 5 = 0) && decide (count < 2 ^ 14) &&
      decide (1 ≤ nbits count 4 0) && decide (1 ≤ nbits count 13 8) && decide (extra = 0)
  | 2 => decide (first = 0) && decide (count = 0) && decide (0 < extra) && decide (extra < 2 ^ 48)
  | 8 => decide (first = 0) && decide (1 ≤ count) && decide (count ≤ 64) && decide (extra = 0)
  | 9 => decide (nbits first 7 4 = 0) && decide (first < 2 ^ 11) && [1, 2, 4, 8, 16].contains count && decide (nbits first 3 0 % count = 0) &&
      decide (extra = 0)
  | 10 => decide (first ≤ 1) && decide (1 ≤ count) && decide (count ≤ 64) && decide (extra = 0)
  | _ => (kindLimit kind).elim false (fun n => decide (1 ≤ count) && decide (first + count ≤ n) && decide (extra = 0))

/-- The company already holds a grant of the kind, or of the kind on the port (R371). -/
def Co.holds (c : Co) (kind port : Nat) : Bool :=
  match kind with
  | 1 => c.rect.isSome
  | 2 => decide (c.quarters ≠ 0)
  | 8 => decide (c.contexts ≠ 0)
  | 9 => c.onPort port
  | 10 => c.farShare.any (fun x => x.1 = port)
  | _ => (c.range kind).isSome

/-- Die rows that a rectangle touches: die and row (R373). -/
def Rect.touches (r : Rect) : List (Bool × Nat) :=
  (List.range r.rows).flatMap (fun i =>
    (if r.col0 < 16 then [(false, r.row0 + i)] else []) ++ (if 16 < r.col0 + r.cols then [(true, r.row0 + i)] else []))

/-- The rectangle of a grant (R371). -/
def grantRect (first count : Nat) : Rect :=
  { row0 := nbits first 4 0, col0 := nbits first 12 8, rows := nbits count 4 0, cols := nbits count 13 8 }

/-- Two ranges share an index. -/
def rangesMeet (a b : Range) : Bool := decide (a.first < b.first + b.count) && decide (b.first < a.first + a.count)

/-- Other companies than `k` that exist. -/
def State.others (v : State) (k : Nat) : List Nat := companyList.filter (fun j => decide (j ≠ k) && (v.co j).present)

/-- A grant conflicts with what others hold, or with the grid (R373, R374, R376). -/
def grantClash (k kind first count extra : Nat) (v : State) : Bool :=
  match kind with
  | 1 =>
    let r := grantRect first count
    decide (v.grid < r.row0 + r.rows) || decide (32 < r.col0 + r.cols) ||
      (v.others k).any (fun j => (v.co j).rect.elim false (fun x => r.touches.any (fun d => x.touches.contains d)))
  | 2 => (v.others k).any (fun j => decide ((v.co j).quarters &&& BitVec.ofNat 48 extra ≠ 0))
  | 8 => !v.cip.sealedMode && decide (64 < ((v.others k).map (fun j => (v.co j).contexts)).foldl (· + ·) 0 + count)
  | 9 =>
    let port := nbits first 10 8
    let lane := nbits first 3 0
    (v.others k).any (fun j => (v.co j).lanes.any (fun l =>
      decide (l.1 = port) && rangesMeet { first := l.2.1, count := l.2.2 } { first := lane, count := count }))
  | 10 => decide (64 < ((v.others k).flatMap (fun j => ((v.co j).farShare.filter (fun x => x.1 = first)).map (fun x => x.2))).foldl (· + ·) 0 + count)
  | _ => (v.others k).any (fun j => ((v.co j).range kind).elim false (fun r => rangesMeet r { first := first, count := count }))

/-- The longest wait among the indices of a grant (R400). -/
def grantWait (kind first count : Nat) (s : State) : Nat :=
  let last := fun (i : Nat) => match kind with
    | 3 => s.tooSoon (s.queue i).changedNs
    | 4 => s.tooSoon (s.ctr i).changedNs
    | 5 => s.tooSoon (s.watch i).changedNs
    | _ => 0
  if kind = 3 ∨ kind = 4 ∨ kind = 5 then (List.range count).foldl (fun m i => max m (last (first + i))) 0 else 0

/-- The port that a grant of kinds 0x9 and 0xA names. -/
def grantPort (kind first : Nat) : Nat := if kind = 9 then nbits first 10 8 else first

/-- A grant or return of kinds 0x1, 0x2 and 0x9 waits for an empty script (R376). -/
def stageKind (kind : Nat) : Bool := decide (kind = 1) || decide (kind = 2) || decide (kind = 9)

/-- The checks of CO_GRANT against the command's view and what is reserved (DEDUCED, log 60). -/
def grantCheck (k kind first count extra : Nat) (v r : State) : Option (Byte × Nat) :=
  if v.isCompany k = false ∨ grantForm kind first count extra = false ∨ (v.co k).holds kind (grantPort kind first) then some (stBadArg, 0)
  else if stageKind kind ∧ v.scriptEmpty k = false then some (stLocked, 0)
  else if grantClash k kind first count extra v ∨ grantClash k kind first count extra r ∨ (r.co k).holds kind (grantPort kind first) then
    some (stNoResource, 0)
  else
    let w := grantWait kind first count v
    if w = 0 then none else some (stBusy, min 65535 (cdiv w 1000))

def execCoGrant (h : Pkt) (company : BitVec 4) (kind : BitVec 4) (first : Word) (count : Word) (extra : DWord) (s : State) :
    Host.Outcome State Fault Refusal :=
  .next (s.serve h 0x0012#16 [(4, company.toNat), (4, kind.toNat), (32, first.toNat), (32, count.toNat), (64, extra.toNat)] true .epoch (stageOr h (.coGrant h company kind first count extra)
    (fun s _ => let v := s.views h; grantCheck company.toNat kind.toNat first.toNat count.toNat extra.toNat v.1 v.2)
    (fun s _ => s.applyGrant company.toNat kind.toNat first.toNat count.toNat extra.toNat)))

/-- The checks of CO_RETURN (R376, R389) (DEDUCED, log 60). -/
def returnCheck (k kind port : Nat) (v : State) : Option (Byte × Nat) :=
  if v.isCompany k = false ∨ (v.co k).holds kind port = false then some (stBadArg, 0)
  else if stageKind kind ∧ v.scriptEmpty k = false then some (stLocked, 0)
  else none

def execCoReturn (h : Pkt) (company : BitVec 4) (kind : BitVec 4) (port : BitVec 3) (s : State) : Host.Outcome State Fault Refusal :=
  .next (s.serve h 0x0013#16 [(4, company.toNat), (4, kind.toNat), (3, port.toNat)] true .epoch (stageOr h (.coReturn h company kind port)
    (fun s _ => returnCheck company.toNat kind.toNat port.toNat (s.views h).1)
    (fun s _ => s.applyReturn company.toNat kind.toNat port.toNat)))

end Sys2Proof.Machine
end

