-- ==== Sys2Proof/Machine/DramStage.lean ====
section
/-!
DEFINITION. Which engine an access of a command slot belongs to, and what it does: the update engine of a quarter goes before the collective
engine, and that before the fly engine (R148, R207, R252, R258).
-/

namespace Sys2Proof.Machine

/-! ### Update and collective engines in a slot (R148, R207, R252) -/

/-- A read that the update engine of the channel's quarter can make in a slot. -/
def State.updReadIn (s : State) (c slot : Nat) : Option Nat :=
  (s.updWants (c / 8) c).filter (fun a => decide ((s.engine (c / 8)).startAt ≤ slotBegin slot) && s.canStageAccess c slot a)

/-- A write that the update engine can make in a slot: the oldest on the channel that has left the pipeline. -/
def State.updWriteIn (s : State) (c slot : Nat) : Option EngineWrite :=
  ((s.engine (c / 8)).writes.find? (fun w => decide (chanOf w.addr = c) && decide (w.due ≤ slotBegin slot))).filter
    (fun w => s.canStageAccess c slot w.addr)

/-- The update engine takes a slot in which it can make an access. -/
def State.updTakes (s : State) (c slot : Nat) : Bool := (s.updReadIn c slot).isSome || (s.updWriteIn c slot).isSome

/-- A read, and a write, that the collective engine of the channel's company can make in a slot. -/
def State.colReadIn (s : State) (c slot : Nat) : Option (ActiveChunk × Nat) :=
  (s.colWants (s.channelCo c) c).filter (fun x => decide (x.1.fetchAt ≤ slotBegin slot) && s.canStageAccess c slot (x.1.readAddr x.2))
def State.colWriteIn (s : State) (c slot : Nat) : Option LineWrite :=
  (s.colWrites (s.channelCo c) c slot).filter (fun w => s.canStageAccess c slot (w.addr + 64 * w.access))

/-- The collective engine takes a slot in which it can make an access. -/
def State.colTakes (s : State) (c slot : Nat) : Bool := (s.colReadIn c slot).isSome || (s.colWriteIn c slot).isSome

/-- A read of the update engine or, where that does not take the slot, of the collective engine (R207). -/
def State.engineRead (s : State) (c slot a : Nat) : State :=
  if s.updReadIn c slot = some a then
    let s := (s.noteAccess c slot a).updRead (c / 8) slot a
    if (s.engine (c / 8)).recast then State.recastGroups 64 s (c / 8) else s
  else match s.colReadIn c slot with
    | some (x, i) => if x.readAddr i = a ∧ s.updTakes c slot = false then (s.noteAccess c slot a).colRead (s.channelCo c) slot x i else s
    | none => s

/-- A write of the update engine or, where that does not take the slot, of the collective engine (R207, R252). -/
def State.engineWrite (s : State) (c slot a : Nat) : State :=
  match s.updWriteIn c slot, s.colWriteIn c slot with
  | some w, _ =>
    if w.addr = a then
      ((s.noteAccess c slot a).dramWrite a w.data).modEngine (c / 8) (fun x => { x with writes := x.writes.erase w })
    else s
  | none, some w =>
    if w.addr + 64 * w.access = a ∧ s.updTakes c slot = false then (s.noteAccess c slot a).colWrite (s.channelCo c) w else s
  | none, none => s

/-! ### Fly engines and posted writes in a slot (R148, R258) -/

/-- The access of fly engine `e` in a slot that neither other engine takes, where its command has begun and its line is in hand (R148,
R207). -/
def State.flySlot (s : State) (e c slot : Nat) : State :=
  match (s.fly e).active with
  | none => s
  | some f =>
    match s.flyCore (s.quarterOwner e) f with
    | none => s
    | some p =>
      let a := (s.fly e).addr f
      if s.canStageAccess c slot a && decide ((s.fly e).startAt ≤ slotBegin slot) && !s.updTakes c slot && !s.colTakes c slot then
        let (s, go) := if f.kind = 2 ∧ (s.fly e).access = 0 then s.flyFetch e slot p f else (s, true)
        if go then (s.noteAccess c slot a).flyAccess e slot p f else s
      else s

/-- The next 64 bytes of the company's oldest posted write land (R258). -/
def State.postedAccess (s : State) (k : Nat) : State :=
  match (s.co k).upd.posted with
  | [] => s
  | w :: ws =>
    let s := s.dramWrite w.addr (w.data.take 64)
    s.modUpd k (fun u => { u with
      posted := if w.data.length ≤ 64 then ws else { addr := w.addr + 64, data := w.data.drop 64 } :: ws })

/-! ### Commands of a slot (R150) -/

/-- A stage command of a channel. One that the controller could not issue in that slot changes nothing (R150, R515). -/
def State.dramStage (s : State) (c slot : Nat) (cmd : DramCmd) : State :=
  let x := s.chanTo c slot
  match cmd with
  | .activate bank row =>
    if s.stageSlot c slot && x.canActivate bank slot && decide (bank < 48) && decide (row < 21845 + (if bank < 16 then 1 else 0)) then
      s.chanCommand c slot (fun x => { x with rows := tset 0 x.rows bank (row + 1), activatedAt := markSlot x.activatedAt bank slot })
    else s
  | .precharge bank =>
    if s.stageSlot c slot && x.canPrecharge bank slot then
      s.chanCommand c slot (fun x => { x with rows := tset 0 x.rows bank 0, prechargedAt := markSlot x.prechargedAt bank slot })
    else s
  | .flyAccess e => s.flySlot e c slot
  | .postedWrite k =>
    match (s.co k).upd.posted with
    | [] => s
    | w :: _ => if s.canStageAccess c slot w.addr then (s.noteAccess c slot w.addr).postedAccess k else s
  | .engineRead a => s.engineRead c slot a
  | .engineWrite a => s.engineWrite c slot a

/-- DRAM_STAGE_ACCESS (R150). -/
def execDramStageAccess (channel slot : Nat) (cmd : DramCmd) (s : State) : Host.Outcome State Fault Refusal :=
  if channel < 384 then .next (s.dramStage channel slot cmd) else .fault (.noSuchUnit channel)

end Sys2Proof.Machine
end

