-- ==== Sys2Proof/Machine/MatrixSlot.lean ====
section
/-!
DEFINITION. The matrix slot's commands (R131 to R133).
-/

namespace Sys2Proof.Machine

/-- RUN (R32, R131, R132). -/
def execRun (core cycle : Nat) (slot : DWord) (s : State) : Host.Outcome State Fault Refusal :=
  slotOutcome s core cycle 3 slot (fun _ c w => c.issueRun w)

/-- DRAIN (R49 to R53, R133). -/
def execDrain (core cycle : Nat) (slot : DWord) (s : State) : Host.Outcome State Fault Refusal :=
  slotOutcome s core cycle 3 slot (fun _ c w => c.issueDrain w)

end Sys2Proof.Machine
end

