-- ==== Sys2Proof/Machine/MoveControl.lean ====
section
/-!
DEFINITION. The move and control slots' commands, and NOP in every slot (R129, R130, R139 to R142).
-/

namespace Sys2Proof.Machine

/-- VLD (R139, R143). -/
def execVld (core cycle : Nat) (slot : DWord) (s : State) : Host.Outcome State Fault Refusal :=
  slotOutcome s core cycle 1 slot (fun _ c w => c.issueVld w)

/-- VST (R139, R143). -/
def execVst (core cycle : Nat) (slot : DWord) (s : State) : Host.Outcome State Fault Refusal :=
  slotOutcome s core cycle 1 slot (fun _ c w => c.issueVst w)

/-- SEND (R139, R143, R169). -/
def execSend (core cycle : Nat) (slot : DWord) (s : State) : Host.Outcome State Fault Refusal :=
  slotOutcome s core cycle 1 slot (fun x c w => Core.issueSend x c w)

/-- LOOP (R140, R141). -/
def execLoop (core cycle : Nat) (slot : DWord) (s : State) : Host.Outcome State Fault Refusal :=
  slotOutcome s core cycle 0 slot (fun _ c w => c.issueLoop w)

/-- MSETLD (R132, R140). -/
def execMsetld (core cycle : Nat) (slot : DWord) (s : State) : Host.Outcome State Fault Refusal :=
  slotOutcome s core cycle 0 slot (fun _ c w => c.issueMsetld w)

/-- CDLD (R138, R140). -/
def execCdld (core cycle : Nat) (slot : DWord) (s : State) : Host.Outcome State Fault Refusal :=
  slotOutcome s core cycle 0 slot (fun _ c w => c.issueCdld w)

/-- SINC (R140, R142). -/
def execSinc (core cycle : Nat) (slot : DWord) (s : State) : Host.Outcome State Fault Refusal :=
  slotOutcome s core cycle 0 slot (fun _ c w => c.issueSinc w)

/-- PARTEND (R128, R140). -/
def execPartend (core cycle : Nat) (slot : DWord) (s : State) : Host.Outcome State Fault Refusal :=
  slotOutcome s core cycle 0 slot (fun _ c w => c.issuePartend w)

/-- NOP in any slot: opcode 0x00 ignores its other bits; an opcode that no chapter lists executes as NOP and is logged (R129, R130). -/
def execNop (core cycle : Nat) (position : BitVec 2) (slot : DWord) (s : State) : Host.Outcome State Fault Refusal :=
  slotOutcome s core cycle position.toNat slot (fun _ c w => if slotOp w = 0 then some c else none)

end Sys2Proof.Machine
end

