-- ==== Sys2Proof/Machine/Queues.lean ====
section
/-!
DEFINITION. Queues and their doorbells (R378 to R382), DMA descriptors and host reads (R390 to R393, R429), sync counters and watches as the
host writes them (R394 to R400), releases (R403), and the host interface's resets (R404, R470).
-/

namespace Sys2Proof.Machine

/-! ### Names and generations -/

/-- A queue as a function names it: the physical function by absolute index, a virtual function by local index (R375, R382). -/
def State.funcQueue (s : State) (f n : Nat) : Option Nat :=
  if f = 0 then (if n < 32768 then some n else none) else (s.funcCo f).bind (fun k => s.absQueue k n)

/-! ### Space in a ring that the module writes (R379, R398) -/

/-- The ring in host memory has room for another entry. -/
def Queue.room (x : Queue) : Bool := !x.loc && !x.full

/-- The oldest entry that waits for the queue is written: its source goes on (R379, R385). -/
def State.writeWaiting (s : State) (q : Nat) : State :=
  match (s.queue q).waiting with
  | [] => s
  | w :: ws =>
    let s := (((s.modQueue q (fun x => { x with waiting := ws })).produce q w.1).replied w.2)
    w.2.elim s (fun c => s.fetch c)

/-- Entries that wait for the queue are written while it has room. -/
def State.fillWaiting (s : State) (q : Nat) : Nat → State
  | 0 => s
  | n + 1 => if (s.queue q).room && !(s.queue q).waiting.isEmpty then State.fillWaiting (s.writeWaiting q) q n else s

/-- The oldest watch message that waits for the queue is written; it is lost where the queue is no longer the one it was meant for, and stale
where its watch has been disarmed (R398, R399). -/
def State.writeMessage (s : State) (k q : Nat) : State :=
  match (s.co k).watchPending.find? (fun p => p.1 = q) with
  | none => s
  | some p =>
    let s := s.modCo k (fun c => { c with watchPending := c.watchPending.erase p })
    let w := s.watch p.2.2.1
    if w.gen ≠ p.2.1 then s.countStale k
    else match s.targetLost q w.queGen with
      | some cause => s.loseMessage k (s.localIndex (fun c => c.watches) k p.2.2.1) cause
      | none => s.produce q p.2.2.2

/-- Watch messages that wait for the queue are written in order while it has room (R398). -/
def State.fillMessages (s : State) (k q : Nat) : Nat → State
  | 0 => s
  | n + 1 =>
    if (s.queue q).room && (s.co k).watchPending.any (fun p => p.1 = q) then State.fillMessages (s.writeMessage k q) k q n else s

/-- Streams and FAR units go on as far as their rings let them (R281, R332, R333). -/
def State.fillStreams (s : State) : State :=
  (0 :: companyList).foldl (fun s k => ((s.streamFlush k).ledgerFlush k).farGo k) s

/-- A ring that the module writes has room again. -/
def State.roomIn (s : State) (q : Nat) : State :=
  let s := s.fillWaiting q (s.queue q).waiting.length
  let k := s.queueCo q
  (s.fillMessages k q (s.co k).watchPending.length).fillStreams

/-! ### Doorbells (R382, R401) -/

/-- The host writes the ring: commands, descriptors and stream-in data (R378, R392). -/
def Queue.hostWrites (x : Queue) : Bool := decide (x.typ = 1) || (decide (x.typ = 2) && decide (x.mode ≠ 1))

/-- A doorbell moves its pointer forward, and not past the other one (R382). -/
def Queue.accepts (x : Queue) (p : Nat) : Bool :=
  let d := 2 * x.depth
  decide (p < d) &&
    (if x.hostWrites then decide (x.count ≤ (p + d - x.head) % d) && decide ((p + d - x.head) % d ≤ x.depth)
     else decide ((x.tail + d - p) % d ≤ x.count))

/-- A doorbell with its queue found (R382, R399, R402). -/
def State.ring (s : State) (q : Nat) (value : Word) : State :=
  let x := s.queue q
  let p := bits value 16 0
  if bits value 31 24 ≠ x.gen.toNat then s.modQueue q (fun x => { x with stale := x.stale + 1 })
  else if x.enable = false ∨ (x.hostWrites = false ∧ x.frozen) then s
  else if x.accepts p = false then s.violation (s.queueCo q) 0x12 (.queue q) [(32, q)]
  else if x.hostWrites then
    let s := s.modQueue q (fun x => { x with tail := p })
    if x.typ = 1 then s.fetch q else s.farGo (s.queueCo q)
  else (s.modQueue q (fun x => { x with head := p })).roomIn q

/-- What the host has put into its own memory, 64 bytes to a piece (R378). -/
def State.hostPut (s : State) (host : List (Nat × BitVec 512)) : State :=
  host.foldl (fun s p => { s with hostMem := mwrite s.hostMem p.1 (leBytes 64 p.2.toNat) }) s

/-- DOORBELL (R382): a command queue then fetches (R383) (DESIGN CHOICE, log 11). -/
def execDoorbell (function n : Nat) (value : Word) (host : List (Nat × BitVec 512)) (s : State) : Host.Outcome State Fault Refusal :=
  onFunction function (s.hostPut host) (fun s => (s.funcQueue function n).elim s (fun q => s.ring q value))

/-! ### Queue registers (R11, R380, R381, R400) -/

/-- The LK fields of QUE_CFG, as its 64-bit image holds them. -/
def Queue.cfgFields (x : Queue) : Nat :=
  packBits [(5, x.depthLog2.toNat), (3, x.typ.toNat), (1, b2n x.loc), (1, b2n x.irq), (11, x.vector.toNat), (15, x.pair.toNat), (2, x.mode.toNat)]

/-- QUE_CFG's LK fields as a write carries them. -/
def Queue.withCfg (x : Queue) (v : DWord) : Queue :=
  { x with mode := BitVec.ofNat 2 (bits v 49 48), pair := BitVec.ofNat 15 (bits v 46 32), vector := BitVec.ofNat 11 (bits v 31 21), irq := bit v 20,
           loc := bit v 19, typ := BitVec.ofNat 3 (bits v 18 16), depthLog2 := BitVec.ofNat 5 (bits v 12 8) }

/-- PAIR names an enabled completion queue of the company (R381). -/
def State.pairGood (s : State) (k : Nat) (x : Queue) : Bool :=
  (s.absQueue k x.pair.toNat).elim false (fun p => (s.queue p).enable && decide ((s.queue p).typ = 3))

/-- The configuration may be enabled (R381). -/
def State.cfgGood (s : State) (k : Nat) (x : Queue) : Bool :=
  decide (1 ≤ x.typ.toNat) && decide (x.typ.toNat ≤ 5) && decide (4 ≤ x.depthLog2.toNat) && decide (x.depthLog2.toNat ≤ 16) &&
    (if x.typ = 2 then decide (x.mode ≠ 3) else decide (x.mode = 0)) &&
    (!x.loc || s.ownsDram k (x.base.toNat * 4096) (64 * x.depth)) &&
    (!(decide (x.typ = 1) || decide (x.typ = 2)) || s.pairGood k x)

/-- A 64-bit write of QUE_CFG by function `f` (R11, R381, R400) (DEDUCED, log 71). -/
def State.writeQueCfg (s : State) (f q offset : Nat) (v : DWord) : State :=
  let x := s.queue q
  let k := s.queueCo q
  let y := x.withCfg v
  if x.enable then
    if y.cfgFields ≠ x.cfgFields then s.lockedWrite f offset v.toNat
    else if bit v 0 then s else s.resetQueue q
  else if bit v 0 then
    if s.cfgGood k y = false then s.modQueue q (fun x => { x with cause := 0x01 })
    else if s.tooSoon x.changedNs ≠ 0 then
      (s.modQueue q (fun x => { x with cause := 0x02 })).logTooSoon k 0 (s.localIndex (fun c => c.queues) k q) x.changedNs
    else s.modQueue q (fun _ => { y with enable := true, head := 0, tail := 0, waiting := [], streamOff := 0, streamBytes := 0, streamEnds := 0 })
  else s.modQueue q (fun _ => y)

/-- BAR0 offset of queue n's registers (R380). -/
def queueAt (n : Nat) : Nat := 0x1000000 + 64 * n

/-- QUEUE_ENABLE (R381): a write of QUE_CFG with ENABLE set. -/
def execQueueEnable (function n : Nat) (value : DWord) (s : State) : Host.Outcome State Fault Refusal :=
  onFunction function s (fun s => (s.funcQueue function n).elim s (fun q => s.writeQueCfg function q (queueAt n + 8) (value ||| 1)))

/-- QUEUE_DISABLE (R381): a write of QUE_CFG with ENABLE clear. -/
def execQueueDisable (function n : Nat) (value : DWord) (s : State) : Host.Outcome State Fault Refusal :=
  onFunction function s (fun s => (s.funcQueue function n).elim s (fun q => s.writeQueCfg function q (queueAt n + 8) (value &&& ~~~1)))

/-! ### Counters (R394 to R396, R399, R400) -/

/-- A counter outside the grant of the function's company: blocked, counted, a violation (R396, R401). -/
def State.blockedWrite (s : State) (f k n : Nat) : State :=
  (s.modCo k (fun c => { c with synBlocked := satAdd c.synBlocked 1 })).violation k 0x11 (.function f) [(32, n)]

/-- A write of SYN_CTR_WR: it takes its turn at the sync unit behind every other change (R394, R395). -/
def State.writeCtr (s : State) (f n : Nat) (v : DWord) : State :=
  match s.funcCo f with
  | none => s
  | some k =>
    if (s.absCtr k n).isNone then s.blockedWrite f k n
    else { s with incHost := s.incHost ++ [{ src := .host k, index := n, gen := BitVec.ofNat 8 (bits v 39 32), amount := bits v 31 0, reset := bit v 63 }] }

/-- SYN_CTR_ADD (R394): RESET clear. -/
def execSynCtrAdd (function n : Nat) (value : DWord) (s : State) : Host.Outcome State Fault Refusal :=
  onFunction function s (fun s => s.writeCtr function n (value &&& ~~~((1 : DWord) <<< 63)))

/-- SYN_CTR_RESET (R394): RESET set. -/
def execSynCtrReset (function n : Nat) (value : DWord) (s : State) : Host.Outcome State Fault Refusal :=
  onFunction function s (fun s => s.writeCtr function n (value ||| ((1 : DWord) <<< 63)))

/-- SYNC_INCREMENT_APPLY (R395): the stage's queue first, then DMA completions, then the wings engines, then host writes. -/
def State.syncApply (s : State) : State :=
  match s.incStage, s.incDma, s.incWings, s.incHost with
  | x :: xs, _, _, _ => State.applyInc { s with incStage := xs } x
  | [], x :: xs, _, _ => State.applyInc { s with incDma := xs } x
  | [], [], x :: xs, _ => State.applyInc { s with incWings := xs } x
  | [], [], [], x :: xs => State.applyInc { s with incHost := xs } x
  | [], [], [], [] => s

def execSyncIncrementApply (s : State) : Host.Outcome State Fault Refusal := .next s.syncApply

/-! ### Watches (R397, R398, R400) -/

/-- The LK fields of SYN_WATCH_CFG. -/
def Watch.cfgFields (w : Watch) : Nat :=
  packBits [(15, w.queue.toNat), (8, w.queGen.toNat), (1, b2n w.persist), (2, w.cond.toNat), (13, w.ctrIndex.toNat), (8, w.ctrGen.toNat)]

def Watch.withCfg (w : Watch) (v : DWord) : Watch :=
  { w with ctrGen := BitVec.ofNat 8 (bits v 55 48), ctrIndex := BitVec.ofNat 13 (bits v 47 35), cond := BitVec.ofNat 2 (bits v 34 33), persist := bit v 32,
           queGen := BitVec.ofNat 8 (bits v 31 24), queue := BitVec.ofNat 15 (bits v 23 9) }

/-- A watch as a function names it (R375, R397). -/
def State.funcWatch (s : State) (f n : Nat) : Option Nat :=
  if f = 0 then (if n < 16384 then some n else none) else (s.funcCo f).bind (fun k => s.absWatch k n)

/-- BAR0 offset of watch n's registers (R397). -/
def watchAt (n : Nat) : Nat := 0x0D20000 + 32 * n

/-- A 64-bit write of SYN_WATCH_CFG (R11, R398, R400, R401) (DEDUCED, log 71). -/
def State.writeWatchCfg (s : State) (f n w : Nat) (v : DWord) : State :=
  let x := s.watch w
  let k := x.company
  let y := x.withCfg v
  if x.enable then
    if y.cfgFields ≠ x.cfgFields then s.lockedWrite f (watchAt n) v.toNat
    else if bit v 0 then s else s.disarmWatch w
  else if bit v 0 then
    if (s.absCtr k y.ctrIndex.toNat).isNone ∨ (s.absQueue k y.queue.toNat).isNone then
      s.violation ((s.funcCo f).getD 0) 0x11 (.function f) [(32, if (s.absCtr k y.ctrIndex.toNat).isNone then y.ctrIndex.toNat else y.queue.toNat)]
    else if s.tooSoon x.changedNs ≠ 0 then s.logTooSoon k 2 n x.changedNs
    else (s.modWatch w (fun _ => { y with enable := true, fired := false, held := false })).evalWatch w
  else s.modWatch w (fun _ => y)

/-- WATCH_ARM (R398): a write of SYN_WATCH_CFG with ENABLE set. -/
def execWatchArm (function n : Nat) (value : DWord) (s : State) : Host.Outcome State Fault Refusal :=
  onFunction function s (fun s => (s.funcWatch function n).elim s (fun w => s.writeWatchCfg function n w (value ||| 1)))

/-- WATCH_DISARM (R398): a write of SYN_WATCH_CFG with ENABLE clear. -/
def execWatchDisarm (function n : Nat) (value : DWord) (s : State) : Host.Outcome State Fault Refusal :=
  onFunction function s (fun s => (s.funcWatch function n).elim s (fun w => s.writeWatchCfg function n w (value &&& ~~~1)))

/-! ### DMA descriptors (R390, R391, R401, R403) -/

/-- The fields of a descriptor (R390). -/
structure Descriptor where
  op : Nat
  seal_ : Bool
  open_ : Bool
  pack : Bool
  width : Nat
  notify : Bool
  channel : Nat
  length : Nat
  host : Nat
  dram : Nat
  tag : Word
  ctr : Nat
  ctrGen : BitVec 8
  amount : Nat
  nonce : List Byte
  /-- reserved bits, gathered -/
  zero : Nat

def readDescriptor (d : BitVec 512) : Descriptor :=
  { op := bits d 7 0, seal_ := bit d 8, open_ := bit d 9, pack := bit d 10, width := bits d 12 11, notify := bit d 13, channel := bits d 31 16,
    length := bits d 63 32, host := bits d 127 64, dram := bits d 191 128, tag := BitVec.ofNat 32 (bits d 223 192), ctr := bits d 236 224,
    ctrGen := BitVec.ofNat 8 (bits d 247 240), amount := bits d 271 256, nonce := leBytes 12 (bits d 383 288),
    zero := bits d 15 14 + bits d 239 237 + bits d 255 248 + bits d 287 272 + bits d 511 384 }

/-- A descriptor that breaks no rule of R390. -/
def Descriptor.good (d : Descriptor) : Bool :=
  let chan := decide (d.channel ≠ 0x1FF)
  (decide (d.op = 1) || decide (d.op = 2)) && !(d.seal_ && d.open_) && (!(d.seal_ || d.open_) || chan) &&
    (!d.pack || (decide (d.op = 2) && !chan)) && decide (d.width ≠ 3) && decide (64 ≤ d.length) && decide (d.length % 64 = 0) &&
    decide (d.host % 64 = 0) && decide (d.dram % 64 = 0) && (decide (d.channel < 256) || !chan) && decide (d.zero = 0)

/-- Bytes that a descriptor reads from its source, and those it can write at its destination besides packing (R391). -/
def Descriptor.reads (d : Descriptor) : Nat := d.length + if d.open_ then 16 else 0
def Descriptor.writes (d : Descriptor) : Nat := d.length + if d.seal_ then 32 else 0

/-- Bytes of module DRAM that a descriptor touches. -/
def Descriptor.dramSpan (d : Descriptor) : Nat := if d.op = 1 then d.writes else d.reads

/-- Free read slots, lowest first (R393). -/
def State.freeSlots (s : State) : List Nat := (List.range 2048).filter (fun i => (tget {} s.readSlots i).use = 0)

/-- Read slots that a queue takes for its host reads: one for each 512 bytes, at most 64 (R393). -/
def State.takeSlots (s : State) (q n : Nat) : State :=
  let claim := fun (x : ReadSlot) => { x with use := 1, queue := q, sinceNs := s.nowNs }
  { s with readSlots := (s.freeSlots.take (min 64 (cdiv n 512))).foldl (fun t i => tmod {} t i claim) s.readSlots }

/-- The descriptor may start: its queue runs descriptors, is not frozen, holds one, has none in progress, and its completions find room (R379,
R390, R402). -/
def State.dmaReady (s : State) (q : Nat) : Bool :=
  let x := s.queue q
  x.enable && decide (x.typ = 2) && decide (x.mode = 0) && !s.queueFrozen q && decide (0 < x.count) && x.dma.isNone && x.stopped.isNone &&
    !s.entryWaits q

/-- A descriptor breaks a bound of R401: its queue stops and freezes with it, or, for the house, it ends DENIED (R402) (DEDUCED, log 70). -/
def State.dmaViolation (s : State) (q k : Nat) (what : Nat) : State :=
  let s := (s.violation k 0x13 (.queue q) [(48, what)]).dmaEnd q stDenied 0
  if k = 0 then s else s.modQueue q (fun x => { x with stopped := x.dma, dma := none })

/-- A descriptor that seals or opens asks for its message; one whose data come from the host gives all of them with it (R344, R391)
(DEDUCED, log 70). -/
def State.dmaAsk (s : State) (q k : Nat) (d : Descriptor) : State :=
  match s.absChan k d.channel with
  | none => s.dmaEnd q stDenied 0
  | some c =>
    if s.chanReady c = false ∨ (d.seal_ = true ∧ (s.cipChan c).nonce = true) then s.dmaEnd q stBadArg 0
    else
      let host := mread s.hostMem d.host d.reads
      s.msgAsk { chan := c, client := .dma q (decide (d.op = 2)) (if d.op = 1 then d.dram else d.host), opening := d.open_,
                 iv := BitVec.ofNat 96 (beNat d.nonce), data := if d.op = 1 then host.take d.length else [], closed := decide (d.op = 1),
                 tag := if d.op = 1 then BitVec.ofNat 128 (beNat (host.drop d.length)) else 0 }

/-- The descriptor at HEAD of a DMA queue, as the module has read it, starts (R390, R391, R393, R401) (DEDUCED, log 70). -/
def State.dmaStart (s : State) (q op : Nat) (raw : BitVec 512) : State :=
  let d := readDescriptor raw
  let k := s.queueCo q
  if s.dmaReady q = false ∨ s.ringEntry q 0 ≠ some (leBytes 64 raw.toNat) ∨ (d.op ≠ op ∧ (d.op = 1 ∨ d.op = 2)) ∨
      (d.op = 1 ∧ s.freeSlots = []) then s
  else
    let o : DmaOp := { raw := raw, tag := d.tag, notify := d.notify, ctr := if d.ctr = 0x1FFF then none else some (d.ctr, d.ctrGen, d.amount) }
    let s := s.modQueue q (fun x => { x with dma := some o })
    if d.good = false then s.dmaEnd q stBadArg 0
    else if s.ownsDram k d.dram d.dramSpan = false then s.dmaViolation q k d.dram
    else if d.ctr ≠ 0x1FFF ∧ (s.absCtr k d.ctr).isNone then s.dmaViolation q k d.ctr
    else
      let s := if d.op = 1 then s.takeSlots q d.reads else s
      if d.seal_ || d.open_ then s.dmaAsk q k d else s

/-- The 64-byte access of DRAM that a descriptor in progress asks for next: of its source, one at a time, or of its destination where host data
go there as they are (R390) (DEDUCED, log 70). -/
def DmaOp.next (o : DmaOp) : Option Nat :=
  let d := readDescriptor o.raw
  if o.ended then none
  else if d.op = 2 then (if 64 * o.asked < d.reads ∧ o.taken = 64 * o.asked then some (d.dram + 64 * o.asked) else none)
  else if !(d.seal_ || d.open_) ∧ 64 * o.asked < d.length then some (d.dram + 64 * o.asked)
  else none

/-- The DMA queue whose turn it is: the one being served goes on for 64 accesses, then the next active one follows (R390). -/
def State.dmaNow (s : State) : Option Nat :=
  let active := fun (q : Nat) => ((s.queue q).dma.bind DmaOp.next).isSome
  let (cur, n) := s.dmaTurn
  if active cur ∧ n < 64 then some cur
  else
    let qs := (s.queues.map (fun x => x.1)).filter active
    ((qs.filter (fun q => decide (cur < q))).head?).orElse (fun _ => qs.head?)

/-- The access that DMA queue `q` asks for now. -/
def State.dmaWants (s : State) (q : Nat) : Option Nat := if s.dmaNow = some q then (s.queue q).dma.bind DmaOp.next else none

/-- The queue has asked for its next access: its turn goes on (R390). -/
def State.dmaAsked (s : State) (q : Nat) : State :=
  State.modDma { s with dmaTurn := (q, if s.dmaTurn.1 = q ∧ s.dmaTurn.2 < 64 then s.dmaTurn.2 + 1 else 1) } q (fun o => { o with asked := o.asked + 1 })

/-- The bytes that an access of a plain host-to-DRAM descriptor writes at `u`, as they stand in host memory. -/
def State.dmaHostBytes (s : State) (q u : Nat) : Option (List Byte) :=
  (s.queue q).dma.bind (fun o =>
    let d := readDescriptor o.raw
    if d.op = 1 ∧ !(d.seal_ || d.open_) ∧ !o.ended ∧ d.dram ≤ u ∧ u < d.dram + 64 * o.asked then some (mread s.hostMem (d.host + (u - d.dram)) 64) else none)

/-- An access of a plain host-to-DRAM descriptor has been written. -/
def State.dmaWrote (s : State) (q : Nat) : State :=
  let s := s.modDma q (fun o => { o with taken := o.taken + 64, bytes := o.bytes + 64 })
  match (s.queue q).dma with
  | some o => if o.taken = (readDescriptor o.raw).length then s.dmaEnd q stDone 0 else s
  | none => s

/-- Source bytes of a DRAM-to-host descriptor that packs: each 64 KiB becomes a block, and the rest the last one (R284, R391). -/
def State.dmaPack (s : State) (q : Nat) (d : Descriptor) (bs : List Byte) (last : Bool) : State :=
  match (s.queue q).dma with
  | none => s
  | some o =>
    let buf := o.buf ++ bs
    if buf.length = 65536 ∨ last then
      (s.modDma q (fun o => { o with buf := [] })).dmaPut q true (d.host + o.bytes) (codeBlock true (2 ^ d.width) buf)
    else s.modDma q (fun o => { o with buf := buf })

/-- An access of a DRAM-to-host descriptor has been read: its bytes go to the host, into the block in hand or to the descriptor's message. An
error mark ends it with FAULT (R154, R390, R391). -/
def State.dmaRead (s : State) (q : Nat) (data : BitVec 512) (error : Bool) : State :=
  match (s.queue q).dma with
  | none => s
  | some o =>
    let d := readDescriptor o.raw
    let mine : CipClient := .dma q true d.host
    let bs := leBytes 64 data.toNat
    let last := decide (d.length ≤ o.taken + 64)
    let s := s.modDma q (fun o => { o with taken := o.taken + 64 })
    if o.ended then s
    else if error then (s.msgForget (fun c => decide (c = mine))).dmaEnd q stFault 0
    else if d.open_ ∧ d.length ≤ o.taken then
      let tag := BitVec.ofNat 128 (beNat (bs.take 16))
      let put := fun (m : Message) => if m.client = mine then { m with tag := tag, closed := true } else m
      { s with cip := { s.cip with msgs := s.cip.msgs.map put, waiting := s.cip.waiting.map put } }
    else if d.seal_ || d.open_ then s.msgFeed mine bs (last && !d.open_)
    else
      let s := if d.pack then s.dmaPack q d bs last else s.dmaPut q true (d.host + o.taken) bs
      if last then s.dmaEnd q stDone 0 else s

/-- DMA_HOST_TO_DRAM (R390). -/
def execDmaHostToDram (queue : Nat) (descriptor : BitVec 512) (s : State) : Host.Outcome State Fault Refusal :=
  if queue < 32768 then .next (s.dmaStart queue 1 descriptor) else .fault (.noSuchUnit queue)

/-- DMA_DRAM_TO_HOST (R390). -/
def execDmaDramToHost (queue : Nat) (descriptor : BitVec 512) (s : State) : Host.Outcome State Fault Refusal :=
  if queue < 32768 then .next (s.dmaStart queue 2 descriptor) else .fault (.noSuchUnit queue)

/-- The completion entry of a descriptor, where one is written (R391). -/
def State.dmaReport (s : State) (q : Nat) (op : DmaOp) : State :=
  let x := s.queue q
  let k := s.queueCo q
  if op.notify ∨ op.status ≠ stDone then
    match s.absQueue k x.pair.toNat with
    | none => s
    | some p =>
      let body := leBytes 4 op.tag.toNat ++ [0, 0, op.status, op.verdict] ++ leBytes 8 op.bytes
      s.post p (completionEntry body 2 (s.localIndex (fun c => c.queues) k q) x.gen) none
  else s

/-- The descriptor leaves the ring: its increment is posted, its slots are free, its completion is written (R391). -/
def State.dmaFinish (s : State) (q : Nat) (op : DmaOp) : State :=
  let s := (State.wingsDrop (s.modQueue q (fun x => { x with dma := none, stopped := none })) (.dma q)).takeEntries q 1
  let free := fun (t : List (Nat × ReadSlot)) (x : Nat × ReadSlot) => if x.2.use = 1 ∧ x.2.queue = q then tset {} t x.1 { x.2 with use := 0 } else t
  let s := { s with readSlots := s.readSlots.foldl free s.readSlots }
  let s := match op.ctr with
    | some (i, g, n) =>
      let inc : Inc := { src := .dma q, index := i, gen := g, amount := n }
      if op.status = stDone ∧ (s.absCtr (s.queueCo q) i).isSome then { s with incDma := s.incDma ++ [inc] } else s
    | none => s
  s.dmaReport q op

/-- The last byte of a descriptor has been written. A counter outside the company's grant blocks its increment: the queue freezes with the
descriptor, which a release completes with DENIED; for the house the increment is dropped (R396, R401, R403). -/
def State.dmaDone (s : State) (q : Nat) (op : DmaOp) : State :=
  let k := s.queueCo q
  match op.ctr with
  | some (i, _, _) =>
    if op.status = stDone ∧ (s.absCtr k i).isNone then
      let s := (s.modCo k (fun c => { c with synBlocked := satAdd c.synBlocked 1 })).violation k 0x13 (.queue q) [(32, i)]
      if k = 0 then s.dmaFinish q op
      else s.modQueue q (fun x => { x with dma := none, stopped := some { op with status := stDenied } })
    else s.dmaFinish q op
  | none => s.dmaFinish q op

/-- Everything of a queue's descriptor has been written, and its completion finds room (R379, R391). -/
def State.dmaComplete (s : State) (q : Nat) : State :=
  match (s.queue q).dma with
  | some op => if op.ended && !s.wingsBusy (.dma q) && !s.entryWaits q then s.dmaDone q op else s
  | none => s

/-- DMA_COMPLETE (R391). -/
def execDmaComplete (queue : Nat) (s : State) : Host.Outcome State Fault Refusal :=
  if queue < 32768 then .next (s.dmaComplete queue) else .fault (.noSuchUnit queue)

/-! ### Host reads that time out (R393, R429) -/

/-- The completion timeout of a function in ns, which is also its quarantine (R393); other values count as the default (DEDUCED, log 70). -/
def Func.timeoutNs (f : Func) : Nat :=
  match f.cplTimeout.toNat with
  | 1 => 100000
  | 2 => 10000000
  | 5 => 55000000
  | 6 => 210000000
  | 9 => 900000000
  | 10 => 3500000000
  | _ => 50000000

/-- The timeout of a read slot, or its quarantine, has passed. -/
def State.slotDue (s : State) (x : ReadSlot) : Bool :=
  decide (x.sinceNs + (s.func (s.coFunc (s.queueCo x.queue))).timeoutNs ≤ s.nowNs)

/-- HOST_CPL_TIMEOUT (R429): logged, signalled through AER, the slot in quarantine, the descriptor ending with FAULT. -/
def State.cplTimeout (s : State) (f i : Nat) : State :=
  let x := tget {} s.readSlots i
  let q := x.queue
  if x.use = 1 ∧ s.coFunc (s.queueCo q) = f ∧ s.slotDue x then
    let s := { s with readSlots := tset {} s.readSlots i { x with use := 2, gen := x.gen + 1, sinceNs := s.nowNs },
                      err := { s.err with cplTimeouts := s.err.cplTimeouts + 1 } }
    let s := s.modFunc f (fun y => { y with aer := y.aer + 1 })
    let s := (s.msgForget (fun c => match c with
      | .dma j _ _ => decide (j = q)
      | _ => false)).dmaEnd q stFault 0
    s.log 0xE f 2 (s.queueCo q) 0x0E01#16 [(5, f), (15, q), (11, i)]
  else s

def execHostCplTimeout (function slot : Nat) (s : State) : Host.Outcome State Fault Refusal :=
  if slot < 2048 then .next (s.cplTimeout function slot) else .fault (.noSuchUnit slot)

/-- HOST_LATE_CPL (R399, R429): a completion for a slot that has timed out, or that a reset has retired, is dropped, counted and logged. -/
def State.lateCpl (s : State) (f i : Nat) : State :=
  let x := tget {} s.readSlots i
  if x.use = 2 then
    State.log { s with err := { s.err with lateCpl := s.err.lateCpl + 1 } } 0xE f 1 (s.queueCo x.queue) 0x0E02#16 [(5, f), (11, i)]
  else s

def execHostLateCpl (function slot : Nat) (s : State) : Host.Outcome State Fault Refusal :=
  if slot < 2048 then .next (s.lateCpl function slot) else .fault (.noSuchUnit slot)

/-- READ_SLOT_QUARANTINE_END (R393, R400). -/
def execReadSlotQuarantineEnd (slot : Nat) (s : State) : Host.Outcome State Fault Refusal :=
  if slot < 2048 then
    .next (if (tget {} s.readSlots slot).use = 2 ∧ s.slotDue (tget {} s.readSlots slot) then
      { s with readSlots := tmod {} s.readSlots slot (fun x => { x with use := 0 }) } else s)
  else .fault (.noSuchUnit slot)

/-! ### Stream progress (R392) -/

/-- STREAM_PROGRESS (R392): one entry for each 64 KiB, and one at each end, with the pointer that the module moves. -/
def State.progress (s : State) (q : Nat) (ended : Bool) : State :=
  let x := s.queue q
  let k := s.queueCo q
  if x.typ ≠ 2 ∨ x.mode = 0 ∨ s.entryWaits q ∨ (if ended then x.streamEnds = 0 else x.streamBytes < 65536) then s
  else
    let s := s.modQueue q (fun x => { x with
      streamBytes := if ended then x.streamBytes % 65536 else x.streamBytes - 65536, streamEnds := if ended then x.streamEnds - 1 else x.streamEnds })
    match s.absQueue k x.pair.toNat with
    | none => s
    | some p =>
      s.post p (completionEntry (leBytes 4 (if x.mode = 2 then x.head else x.tail) ++ [BitVec.ofNat 8 (b2n ended)]) 3
        (s.localIndex (fun c => c.queues) k q) x.gen) none

def execStreamProgress (queue : Nat) (ended : Bool) (s : State) : Host.Outcome State Fault Refusal :=
  if queue < 32768 then .next (s.progress queue ended) else .fault (.noSuchUnit queue)

/-! ### CO_RELEASE (R389, R403) -/

/-- The master named by CO_RELEASE is frozen. -/
def State.masterFrozen (s : State) (master id : Nat) : Bool :=
  match master with
  | 0 => decide (id ≤ 16) && (s.func id).frozen
  | 1 => decide (id < 32768) && (s.queue id).frozen
  | 2 => s.frozenChans.contains id
  | _ => false

/-- A released master resumes; a DMA queue completes its offending descriptor with DENIED (R403). -/
def State.releaseMaster (s : State) (master id : Nat) : State :=
  match master with
  | 0 => (s.modFunc id (fun f => { f with frozen := false })).fetchAll
  | 1 =>
    let s := s.modQueue id (fun q => { q with frozen := false })
    match (s.queue id).stopped with
    | some op => s.dmaFinish id op
    | none => s.fetch id
  | _ => { s with frozenChans := s.frozenChans.filter (fun c => c ≠ id) }

/-- CO_RELEASE (R389, R403). -/
def execCoRelease (h : Pkt) (master : BitVec 2) (id : BitVec 16) (s : State) : Host.Outcome State Fault Refusal :=
  .next (s.serve h 0x0014#16 [(2, master.toNat), (16, id.toNat)] true .never (fun s _ =>
    if s.masterFrozen master.toNat id.toNat then { state := s.releaseMaster master.toNat id.toNat } else { state := s, status := stBadArg }))

/-! ### Resets of the host interface (R404, R470, R497) -/

/-- A Function Level Reset; the physical function's clears VF Enable (R404). -/
def State.flr (s : State) (f : Nat) : State :=
  let s := s.functionReset f
  if f = 0 then { s with boot := { s.boot with vfEnable := false } } else s

/-- FUNCTION_LEVEL_RESET (R404). -/
def execFunctionLevelReset (function : Nat) (s : State) : Host.Outcome State Fault Refusal :=
  if 16 < function then .fault (.noSuchUnit function) else .next (if s.reaches function then s.flr function else s)

/-- VF_ENABLE (R470). -/
def execVfEnable (s : State) : Host.Outcome State Fault Refusal :=
  .next (if s.boot.pcieUp then { s with boot := { s.boot with vfEnable := true } } else s)

/-- PERST_ASSERT (R470): the link goes, and the host interface with its queues resets as by a Function Level Reset. -/
def execPerstAssert (s : State) : Host.Outcome State Fault Refusal :=
  .next (State.flr { s with boot := { s.boot with perst := true, perstReleasedEarly := false, pcieUp := false } } 0)

/-- The link trains once PERST_N is released and 100 ms have passed since PWR_OK was (R497). -/
def State.tryLink (s : State) : State :=
  if s.boot.perst = false ∧ s.boot.perstReleasedEarly ∧ s.boot.powerGood ∧ s.boot.powerGoodNs + 100000000 ≤ s.nowNs then
    { s with boot := { s.boot with perstReleasedEarly := false, pcieUp := true } }
  else s

/-- PERST_RELEASE (R470, R497): a release that comes too early takes effect later. -/
def execPerstRelease (s : State) : Host.Outcome State Fault Refusal :=
  .next (if s.boot.perst then State.tryLink { s with boot := { s.boot with perst := false, perstReleasedEarly := true } } else s)

/-! ### Undefined opcodes (R383, R384, R388) -/

/-- The opcodes that the manual defines (R388). -/
def definedOpcodes : List Nat :=
  [0x0001, 0x0002, 0x0003, 0x0010, 0x0011, 0x0012, 0x0013, 0x0014, 0x0020, 0x0021, 0x0022, 0x0101, 0x0102, 0x0103, 0x0104, 0x0105, 0x0106, 0x0201,
   0x0301, 0x0302, 0x0303, 0x0401, 0x0402] ++
  [0x0481, 0x0482, 0x0483, 0x0484, 0x0501, 0x0502, 0x0503, 0x0601, 0x0701, 0x0702, 0x0703, 0x0704, 0x0801, 0x0802, 0x0803, 0x0901, 0x0A01, 0x0B01,
   0x0B02, 0x0B03, 0x0C01]

/-- COMMAND_BAD_OPCODE: a command whose opcode is not defined is answered BAD_OPCODE when its turn comes; a reserved field or an overlong LENGTH is
BAD_ARGUMENT first (R384). -/
def State.badOpcode (s : State) (h : Pkt) (opcode : BitVec 16) : State :=
  let s := s.fetch h.queue
  match s.turnOf h opcode [] with
  | none => s
  | some j =>
    if definedOpcodes.contains opcode.toNat then s
    else
      let bad := decide (h.reserved ≠ 0) || decide (bits h.flags 15 1 ≠ 0) || decide (256 < h.length)
      ((s.begin_ j).reply j (if bad then stBadArg else stBadOpcode) 0 0 j.txn []).fetch h.queue

def execCommandBadOpcode (h : Pkt) (opcode : BitVec 16) (s : State) : Host.Outcome State Fault Refusal := .next (s.badOpcode h opcode)

end Sys2Proof.Machine
end

