-- ==== Sys2Proof/Machine/Registers.lean ====
section
/-!
DEFINITION. BAR0 as each function sees it (R6, R8 to R11, R88 to R93, R370, R375): what every register reads, what a write to one does,
and the registers that a read clears.
-/

namespace Sys2Proof.Machine

/-! ### Reading -/

/-- Fields of a register as (lowest bit, width, value). -/
def fields (fs : List (Nat × Nat × Nat)) : Nat := fs.foldl (fun a f => a + fld f.1 (f.2.2 % 2 ^ f.2.1)) 0

/-- A 32-bit register pair as the 64 bits that hold it. -/
def pair (lo hi : Nat) : Nat := lo + fld 32 hi

/-- STATE of GLB_ISLAND (R492): the phases of R474 as the module stands (DEDUCED, log 65). -/
def State.islandState (s : State) : Nat :=
  match s.island.sheet with
  | none => 0
  | some _ =>
    if s.isWarm then 6
    else if s.island.role ≠ 1 then 1
    else if s.island.ready then 5
    else if s.tor.lockState = 2 ∨ s.tor.lockState = 3 then 4
    else if (List.range 8).any (fun p => s.agrees p) then 3
    else 2

/-- GLB_IDENT, GLB_BOOT, GLB_ISLAND and GLB_CENSUS (R6, R491 to R493). -/
def State.readGlb (s : State) (f a : Nat) : Nat :=
  match a with
  | 0x00 => fields [(28, 4, 1), (16, 8, 1), (12, 4, b2n s.gradeA768), (8, 4, b2n s.opticsF2)]
  | 0x10 => fields [(28, 4, s.boot.phase.toNat), (16, 12, s.boot.elapsed.toNat), (8, 8, s.boot.sparesUsed.toNat), (0, 8, s.boot.failedUnit.toNat)]
  | 0x18 =>
    let open_ := fields [(32, 32, (s.island.sheet.elim 0 (fun sh => sh.island.toNat))), (28, 4, s.islandState)]
    if f = 0 then
      open_ + fields [(26, 2, s.island.role.toNat), (16, 8, packBits ((List.range 8).map (fun p => (1, b2n (s.port p).overridden.isSome)))),
        (0, 16, packBits ((List.range 8).map (fun p => (2, s.portCheck p))))]
    else open_
  | 0x20 => fields [(32, 32, s.island.censusRevision.toNat), (16, 16, s.island.censusReady.toNat), (8, 8, s.island.censusDisagree.toNat),
      (0, 1, b2n s.island.ready)]
  | _ => 0

/-- STATE of SM_STATUS (R434). -/
def SmMode.code : SmMode → Nat
  | .booting => 0
  | .running => 1
  | .adopting => 2
  | .handover => 3

/-- SM_STATUS (R434). -/
def State.smStatus (s : State) : Nat :=
  fields [(24, 8, s.sm.load.toNat), (20, 4, s.sm.decimation.toNat), (8, 8, s.sm.resets.toNat), (5, 1, b2n s.sm.staged), (4, 1, b2n s.sm.imageB),
    (2, 2, s.sm.mode.code), (1, 1, b2n (decide (s.err.occ ≠ 0))), (0, 1, b2n s.sm.ready)]

/-- The SM block (R433, R434). -/
def State.readSm (s : State) (f a : Nat) : Nat :=
  match a with
  | 0x0 => s.smStatus
  | 0x8 => if f = 0 then pair s.sm.versionA.toNat s.sm.versionB.toNat else 0
  | _ => 0

/-- Occupied fatal slots. -/
def ErrState.fatalCount (e : ErrState) : Nat := ((List.range 64).filter (fun n => e.occ.getLsbD n)).length

/-- The ERR block, which the physical function alone sees (R433, R435, R436). -/
def State.readErr (s : State) (a : Nat) : Nat :=
  let e := s.err
  match a with
  | 0x00 => fields [(20, 12, e.next), (9, 11, e.pinned), (8, 1, b2n e.fatalFull), (0, 7, e.fatalCount)]
  | 0x08 => fields [(32, 16, e.dropUncorrected.toNat), (16, 16, e.dropDeferred.toNat), (0, 16, e.dropCorrected.toNat)]
  | 0x10 => pair e.mirrorDrops.toNat e.overwritten.toNat
  | 0x18 => e.occ.toNat
  | 0x20 => pair e.cplTimeouts.toNat e.lateCpl.toNat
  | _ =>
    if 0x10000 ≤ a ∧ a < 0x30000 then
      (tget none e.ring ((a - 0x10000) / 32)).elim 0 (fun r => leNat (((errBytes r).drop (a % 32)).take 8))
    else 0

/-- The PWR block (R467). -/
def State.readPwr (s : State) (f a : Nat) : Nat :=
  let p := s.pwr
  let energy := fun (k : Nat) => (s.co k).energy.toNat
  if a = 0 then
    fields [(29, 3, p.op.toNat), (26, 3, p.request.toNat), (23, 3, p.ceiling.toNat), (20, 3, p.localCeil.toNat), (16, 4, p.pacer), (15, 1, b2n p.fixed),
      (14, 1, b2n p.throttle), (13, 1, b2n p.ageing), (12, 1, b2n p.ageingNext)]
  else if f ≠ 0 then (if a = 0x1000 then (s.funcCo f).elim 0 energy else 0)
  else match a with
    | 0x08 => p.cap.toNat
    | 0x10 => fields [(48, 16, p.gain.toNat), (32, 16, p.inputW.toNat), (16, 16, p.railW.toNat), (0, 16, p.estimateW.toNat)]
    | 0x18 => fields [(16, 16, p.hottest.toNat), (8, 8, p.dramHot.toNat), (0, 8, p.sensor.toNat)]
    | _ => if 0x1000 ≤ a ∧ a < 0x1080 then energy ((a - 0x1000) / 8) else 0

/-- The physical cores of die row `r` (0 to 49, die W first) that stand spare, and whether the row carries a logical core (R459). -/
def State.rowSpares (s : State) (r : Nat) : Nat × Bool :=
  let ps := (List.range 17).map (fun c => r / 25 * 425 + r % 25 * 17 + c)
  ((ps.filter (fun p => (s.roleOf p).role = 0)).length, ps.any (fun p => (s.roleOf p).role = 1))

/-- Unused spare physical rows: those that carry no core and could carry 16 (R459, R467) (DEDUCED, log 69). -/
def State.spareRows (s : State) : Nat := ((List.range 50).filter (fun r => let x := s.rowSpares r; !x.2 && decide (16 ≤ x.1))).length

/-- Unused spare cores: in a row that carries cores its spares, in a spare row the one beyond 16 (R459, R467) (DEDUCED, log 69). -/
def State.spareCores (s : State) : Nat :=
  (List.range 50).foldl (fun n r => let x := s.rowSpares r; n + (if x.2 then x.1 else x.1 - 16)) 0

/-- The RPR block, which the physical function alone sees (R304, R467). -/
def State.readRpr (s : State) (a : Nat) : Nat :=
  match a with
  | 0x0000 =>
    let core := s.rpr.armed.find? (fun x => x.kind = 0)
    fields [(16, 10, core.elim 0x3FF (fun x => x.phys)), (8, 8, s.spareCores), (4, 4, s.spareRows), (1, 1, b2n s.rpr.noSpare),
      (0, 1, b2n (!s.rpr.armed.isEmpty))]
  | 0x0008 => fields [(16, 16, s.rpr.window.toNat), (0, 8, s.rpr.threshold.toNat)]
  | 0x8000 => fields [(32, 32, s.restore.lines.toNat), (28, 4, s.restore.company.toNat), (27, 1, b2n s.island.adopted), (24, 3, s.restore.port.toNat),
      (16, 4, s.restore.state.toNat)]
  | _ => 0

/-- CIP_SLOT_STATE (R369). -/
def State.readSlot (s : State) (n : Nat) : Nat :=
  let k := s.keySlot n
  let refs := s.boundTo n
  fields [(32, 32, if 2 ^ 32 ≤ k.invocations.toNat then 2 ^ 32 - 1 else k.invocations.toNat), (28, 4, s.slotCo n), (26, 2, k.use.toNat),
    (25, 1, b2n k.unwrapped), (16, 9, refs.length), (15, 1, b2n (refs.any (fun x => x.2.nonce)))]

/-- CIP_CHAN_STATE (R369): a virtual function sees its slots renumbered (R375) (DEDUCED, log 68). -/
def State.readChan (s : State) (f c : Nat) : Nat :=
  let x := s.cipChan c
  let st := if x.bound = false then 0 else match s.cip.msgs.find? (fun m => m.chan = c) with
    | none => 1
    | some m => if m.onChip then 2 else 3
  fields [(32, 32, x.fixed.toNat), (28, 4, s.chanCo c), (22, 6, if f = 0 then x.slot.toNat else s.localIndex (fun y => y.keySlots) (s.chanCo c) x.slot.toNat), (21, 1, b2n x.nonce), (19, 2, st)]

/-- The CIP block (R366 to R369): key data reads zero, GO reads zero. -/
def State.readCip (s : State) (f a : Nat) : Nat :=
  let k := (s.funcCo f).getD 0
  let mine := decide (f = 0) || decide (k ≠ 0)
  if a = 0x8 then
    fields [(16, 9, s.cip.msgs.length), (8, 8, s.cip.onChip), (1, 1, b2n s.cip.sealedMode), (0, 1, b2n s.cip.sealedMode)]
  else if f = 0 ∧ a = 0 then b2n s.cip.sealedMode
  else if f = 0 ∧ a = 0x120 then fields [(10, 2, s.cip.keyUse.toNat), (0, 6, s.cip.keySlot.toNat)]
  else if mine ∧ 0x200 ≤ a ∧ a < 0x400 then
    let i := (a - 0x200) / 8
    (if f = 0 then some i else s.absSlot k i).elim 0 s.readSlot
  else if mine ∧ 0x1000 ≤ a ∧ a < 0x1800 then
    let i := (a - 0x1000) / 8
    (if f = 0 then some i else s.absChan k i).elim 0 (s.readChan f)
  else 0

/-- STATE of PAK_SNAP_STATUS (R288). -/
def Pak.stateCode (p : Pak) : Nat :=
  if p.reading then 2 else if p.streams.any (fun x => decide (x.kind = 0)) then 3 else b2n p.enable

/-- The PAK set of a company (R287 to R289). -/
def State.readPak (s : State) (k a : Nat) : Nat :=
  let p := (s.co k).pak
  match a with
  | 0x00 => fields [(24, 4, k), (20, 4, p.cause.toNat), (18, 2, p.stateCode), (17, 1, b2n p.guard), (16, 1, b2n p.aborted), (12, 2, p.width.toNat),
      (10, 2, p.dest.toNat), (9, 1, b2n p.pack), (0, 9, p.cipher.toNat)]
  | 0x08 => p.started.toNat
  | 0x10 => p.finished.toNat
  | 0x18 => p.holdNs.toNat
  | _ => 0

/-- PHASE of FAR_STATUS (R339). -/
def FarPhase.code : FarPhase → Nat
  | .idle => 0
  | .form => 1
  | .sealing => 2
  | .send => 3
  | .exchange => 4
  | .landing => 5
  | .opening => 6
  | .apply => 7
  | .install => 8

/-- The FAR set of a company (R338 to R340). -/
def State.readFar (s : State) (k a : Nat) : Nat :=
  let x := (s.co k).far
  match a with
  | 0x00 => fields [(28, 4, x.phase.code), (24, 4, k), (20, 4, x.site.toNat), (16, 4, x.leader.toNat), (15, 1, b2n x.enabled), (14, 1, b2n x.gateway),
      (13, 1, b2n x.resync), (12, 1, b2n x.replay), (11, 1, b2n x.policy), (10, 1, b2n x.copy), (9, 1, b2n x.deferred)]
  | 0x08 => if x.phase = .idle then x.installed else x.round.toNat
  | 0x10 => fields [(32, 32, x.retx.toNat), (16, 16, x.badFrames.toNat), (0, 16, x.missedRounds.toNat)]
  | _ => 0

/-- FAR_PORT_STATUS (R341): training takes no time that a row could see (DEDUCED, log 115). -/
def State.readFarPort (s : State) (p : Nat) : Nat := fields [(3, 1, b2n (s.farPort p).addrSet), (0, 2, (s.farPort p).link.toNat)]

/-- STATE of TOR_PORT_STATUS (R191). -/
def PortState.code : PortState → Nat
  | .down => 0
  | .training => 1
  | .identifying => 2
  | .accepted => 3
  | .measured => 4
  | .active => 5
  | .retraining => 6
  | .repointing => 7
  | .disabled => 8

/-- The company that holds a torus lane (R371). -/
def State.laneOwner (s : State) (p l : Nat) : Option Nat :=
  companyList.find? (fun k => (s.co k).present && (s.co k).lanes.any (fun g => decide (g.1 = p) && decide (g.2.1 ≤ l) && decide (l < g.2.1 + g.2.2)))

/-- A port set (R200 to R203). -/
def State.readPort (s : State) (p a : Nat) : Nat :=
  let x := s.port p
  match a with
  | 0x00 => fields [(28, 4, x.state.code), (27, 1, b2n x.moved), (26, 1, b2n x.swapPending), (25, 1, b2n x.nbrLocked), (24, 1, b2n x.apr),
      (20, 4, x.spareFor.toNat), (0, 16, packBits ((List.range 16).map (fun l => (1, b2n (s.laneOwner p l).isSome))))]
  | 0x08 => x.ident.elim 0 (fun i => i.serial.toNat)
  | 0x10 => x.ident.elim 0 (fun i =>
      let c := fun (j : Nat) => nbits i.coord.toNat (8 * j + 7) (8 * j)
      fields [(32, 4, i.nport.toNat), (24, 8, c 0), (16, 8, c 1), (8, 8, c 2), (0, 8, c 3)])
  | 0x18 => fields [(16, 16, x.latOp7.toNat), (0, 16, x.latTenth.toNat)]
  | 0x20 => packBits ((List.range 16).map (fun l => (4, (s.laneOwner p l).getD 0)))
  | 0x28 => fields [(32, 32, x.corrected.toNat), (16, 16, x.lost.toNat), (8, 8, x.late.toNat), (0, 8, x.overflow.toNat)]
  | _ => 0

/-- A company set of the TOR block (R204). -/
def State.readTorCo (s : State) (k a : Nat) : Nat :=
  match a with
  | 0x00 => (s.co k).tor.epoch.toNat
  | 0x08 => (s.co k).tor.barrierNs.toNat
  | 0x10 => (s.co k).tor.meshWaits.toNat
  | _ => 0

/-- The TOR block (R197 to R204). -/
def State.readTor (s : State) (f a : Nat) : Nat :=
  let t := s.tor
  if a = 0 then fields [(16, 8, t.hops.toNat), (8, 4, t.parent.toNat), (3, 1, b2n t.root), (0, 3, t.lockState.toNat)]
  else if a = 0x08 then t.houseEpoch.toNat
  else if a = 0x10 then fields [(32, 16, 0x0480), (16, 16, 0x0310), (0, 16, 0x0800)]
  else if 0x1000 ≤ a ∧ a < 0x1800 then (if f = 0 then s.readPort ((a - 0x1000) / 0x100) (a % 0x100) else 0)
  else if 0x2000 ≤ a ∧ a < 0x3000 then
    let i := (a - 0x2000) / 0x100
    if f = 0 then s.readTorCo i (a % 0x100) else if i = 0 then (s.funcCo f).elim 0 (fun k => s.readTorCo k (a % 0x100)) else 0
  else 0

/-- The COL set of a company (R233 to R235). -/
def State.readCol (s : State) (k a : Nat) : Nat :=
  let c := (s.co k).col
  match a with
  | 0x00 => fields [(24, 4, k), (18, 2, c.reshardState.toNat), (16, 2, c.reshardResult.toNat), (0, 11, c.plans.toNat)]
  | 0x08 => c.chunks.toNat
  | 0x10 => pair c.clippedChunks.toNat c.clippedLines.toNat
  | _ => 0

/-- PHASE of UPD_STATUS (R271): a recast phase, or an update pass of an engine of the company (DEDUCED, log 66). -/
def State.updPhase (s : State) (k : Nat) : Nat :=
  if (s.co k).seq.phase = .recast then 2
  else b2n ((s.engineList k).any (fun e => (s.engine e).started || !(s.engine e).pipe.isEmpty))

/-- VERDICT of UPD_STATUS (R271). -/
def Verdict.code : Verdict → Nat
  | .none => 0
  | .commit => 1
  | .skip => 2
  | .incomplete => 3

/-- Update programs of the loaded image. -/
def State.programs (s : State) (k : Nat) : Nat := ((s.co k).seq.image.bind (fun i => i.update)).elim 0 (fun u => u.programs.length)

/-- The UPD set of a company (R270 to R274). -/
def State.readUpd (s : State) (k a : Nat) : Nat :=
  let u := (s.co k).upd
  match a with
  | 0x00 => fields [(24, 4, k), (18, 2, s.updPhase k), (16, 2, u.verdict.code), (15, 1, b2n u.committed), (14, 1, b2n u.diverged), (13, 1, b2n u.tailSeen),
      (8, 5, s.programs k)]
  | 0x08 => u.commits.toNat
  | 0x10 => u.digest.toNat
  | 0x18 => pair u.faults.toNat u.nonfinite.toNat
  | 0x20 => pair u.skipsTotal.toNat u.skipsRun.toNat
  | 0x28 => pair u.substituted.toNat u.lateNonfinite.toNat
  | _ => 0

/-- STATE of SEQ_STATUS (R164). -/
def ScriptState.code : ScriptState → Nat
  | .empty => 0
  | .loaded => 1
  | .armed => 2
  | .running => 3
  | .held => 4
  | .stopped => 5

/-- The SEQ set of a company (R163 to R166). -/
def State.readSeq (s : State) (k a : Nat) : Nat :=
  let q := (s.co k).seq
  match a with
  | 0x00 => fields [(24, 4, k), (16, 4, q.state.code), (8, 8, q.refusal.toNat), (0, 1, b2n q.overrun)]
  | 0x08 => q.stageCycle.toNat
  | 0x10 => fields [(48, 16, q.attempt.toNat), (0, 48, q.step.toNat)]
  | 0x18 => fields [(40, 12, q.entry.toNat), (32, 8, if q.held then q.pendingPorts.toNat else 0), (1, 1, b2n (q.held && q.met)), (0, 1, b2n q.held)]
  | 0x20 => q.holdNs.toNat + (if q.held then s.nowNs - q.heldSince else 0)
  | _ => 0

/-- A block with one set per company at 0x1000 × company, and a virtual function's own at 0. -/
def State.perCompany (s : State) (f a : Nat) (read : Nat → Nat → Nat) : Nat :=
  if f = 0 then (if a < 0x10000 then read (a / 0x1000) (a % 0x1000) else 0)
  else if a < 0x1000 then (s.funcCo f).elim 0 (fun k => read k a) else 0

/-- The slots that a function's MON_SEL selects, with the company that steps them (R91, R92). -/
def State.liveUnit (s : State) (f : Nat) : Option (Table RmSlot × Nat × Nat) :=
  let sel := (s.func f).monSel
  let i := bits sel 9 0
  if bit sel 15 then
    if f = 0 ∧ i < 48 then some ((s.engine i).rmon, s.quarterOwner i, 16) else none
  else
    let p := if f = 0 then s.physOf (i / 32) (i % 32) else (s.funcCo f).bind (fun k => s.relPhys k (i / 32) (i % 32))
    p.map (fun p => ((s.core p).rmon, s.coreCo p, 64))

/-- The MON block (R88 to R92). -/
def State.readMon (s : State) (f a : Nat) : Nat :=
  let m := (s.funcCo f).elim ({} : Mon) (fun k => (s.co k).mon)
  match a with
  | 0x00 => fields [(16, 16, m.syncCtr.toNat), (8, 3, m.depth.toNat), (7, 1, b2n m.valid), (0, 6, m.lastEntry.toNat)]
  | 0x08 => m.base.toNat
  | 0x10 => fields [(48, 16, m.repAttempt.toNat), (0, 48, m.repStep.toNat)]
  | 0x18 => (s.func f).monSel.toNat
  | _ =>
    if 0x1000 ≤ a ∧ a < 0x1800 then
      let n := (a - 0x1000) / 32
      match s.liveUnit f with
      | some (t, k, slots) =>
        if n < slots then
          let q := (s.co k).seq
          leNat (((reportRecord (tget {} t n) n q.step.toNat q.attempt.toNat).drop (a % 32)).take 8)
        else 0
      | none => 0
    else 0

/-- SYN_DROPS of a company (R398). -/
def State.readDrops (s : State) (k : Nat) : Nat :=
  fields [(32, 32, (s.co k).synStale.toNat), (16, 16, (s.co k).synBlocked.toNat), (0, 16, (s.co k).synLost.toNat)]

/-- A watch's registers (R397). -/
def State.readWatch (s : State) (w a : Nat) : Nat :=
  let x := s.watch w
  match a with
  | 0x00 => fields [(56, 8, x.gen.toNat), (48, 8, x.ctrGen.toNat), (35, 13, x.ctrIndex.toNat), (33, 2, x.cond.toNat), (32, 1, b2n x.persist),
      (24, 8, x.queGen.toNat), (9, 15, x.queue.toNat), (1, 1, b2n x.fired), (0, 1, b2n x.enable)]
  | 0x08 => x.value.toNat
  | 0x10 => x.cookie.toNat
  | _ => 0

/-- A counter as a function names it (R394). -/
def State.funcCtr (s : State) (f i : Nat) : Option Nat :=
  if f = 0 then (if i < 8192 then some i else none) else (s.funcCo f).bind (fun k => s.absCtr k i)

/-- The SYN block (R394, R397, R398). -/
def State.readSyn (s : State) (f a : Nat) : Nat :=
  if a < 0x20000 then
    (if a % 16 = 0 then (s.funcCtr f (a / 16)).elim 0 (fun i => pair (s.ctr i).value.toNat (s.ctr i).gen.toNat) else 0)
  else if a < 0xA0000 then (s.funcWatch f ((a - 0x20000) / 32)).elim 0 (fun w => s.readWatch w (a % 32))
  else if 0xF0000 ≤ a ∧ a < 0xF1000 ∧ a % 0x100 = 0 then
    let i := (a - 0xF0000) / 0x100
    if f = 0 then s.readDrops i else if i = 0 then (s.funcCo f).elim 0 s.readDrops else 0
  else 0

/-- A queue's registers (R380); FROZEN shows a queue frozen on its own or with its function (R402). -/
def State.readQueue (s : State) (q a : Nat) : Nat :=
  let x := s.queue q
  match a with
  | 0x00 => fields [(12, 52, x.base.toNat)]
  | 0x08 => fields [(56, 8, x.gen.toNat), (52, 4, s.queueCo q), (48, 2, x.mode.toNat), (32, 15, x.pair.toNat), (21, 11, x.vector.toNat), (20, 1, b2n x.irq),
      (19, 1, b2n x.loc), (16, 3, x.typ.toNat), (8, 5, x.depthLog2.toNat), (1, 1, b2n (s.queueFrozen q)), (0, 1, b2n x.enable)]
  | 0x10 => fields [(32, 17, x.head), (0, 17, x.tail)]
  | 0x18 => fields [(32, 32, x.stale.toNat), (8, 8, x.cause.toNat)]
  | _ => 0

/-- The physical core whose window a function sees at an index (R8, R375). -/
def State.windowCore (s : State) (f i : Nat) : Option Nat :=
  if f = 0 then (if i < 850 then some i else none)
  else (s.funcCo f).bind (fun k => (s.co k).rect.bind (fun r => s.relPhys k (i / r.cols) (i % r.cols)))

/-- CORE_STATE (R62, R375): a virtual function sees positions relative to its rectangle. -/
def State.readCoreState (s : State) (f p : Nat) : Nat :=
  let r := s.roleOf p
  let corner := if f = 0 then (0, 0) else ((s.funcCo f).bind (fun k => (s.co k).rect)).elim (0, 0) (fun x => (x.row0, x.col0))
  fields [(24, 4, s.coreCo p), (22, 2, r.role.toNat), (21, 1, b2n (s.core p).gated), (15, 5, r.lrow - corner.1), (10, 5, r.lcol - corner.2), (0, 10, p)]

/-- A core window (R62 to R65). -/
def State.readCore (s : State) (f p a : Nat) : Nat :=
  let c := s.core p
  match a with
  | 0x00 => s.readCoreState f p
  | 0x10 => pair (fields [(16, 16, c.resCount.toNat), (12, 2, c.resArray.toNat), (7, 5, c.resRow.toNat), (6, 1, b2n c.resWindow), (0, 1, b2n c.resFlag)])
      c.resRows.toNat
  | 0x20 => fields [(16, 16, c.ceCount.toNat), (8, 8, c.ueCount.toNat), (0, 6, c.eccBank.toNat)]
  | 0x30 => c.stalls.toNat
  | _ => 0

/-- The 64 bits at an 8-byte aligned offset of BAR0, as function `f` sees them. Offsets that no rule assigns read as zero. -/
def State.reg64 (s : State) (f a : Nat) : Nat :=
  let block := a / 0x100000
  let o := a % 0x100000
  if 0x2000000 ≤ a then (s.windowCore f ((a - 0x2000000) / 0x4000)).elim 0 (fun p => s.readCore f p (a % 0x4000))
  else if 0x1000000 ≤ a then
    (if a < 0x1200000 then (s.funcQueue f ((a - 0x1000000) / 64)).elim 0 (fun q => s.readQueue q (a % 64)) else 0)
  else match block with
    | 0x0 => s.readGlb f o
    | 0x1 => s.readSm f o
    | 0x2 => if f = 0 then s.readErr o else 0
    | 0x3 => s.readPwr f o
    | 0x4 => if f = 0 then s.readRpr o else 0
    | 0x5 => s.readCip f o
    | 0x6 => s.perCompany f o s.readPak
    | 0x7 => if f = 0 ∧ (o = 0x10000 ∨ o = 0x10100) then s.readFarPort ((o - 0x10000) / 0x100) else s.perCompany f o s.readFar
    | 0x8 => s.readTor f o
    | 0x9 => s.perCompany f o s.readCol
    | 0xA => s.perCompany f o s.readUpd
    | 0xB => s.perCompany f o s.readSeq
    | 0xC => s.readMon f o
    | 0xD => s.readSyn f o
    | _ => 0

/-- One 32-bit register, or half of a 64-bit one (DEDUCED, log 67). -/
def State.readReg (s : State) (f offset : Nat) : Word :=
  BitVec.ofNat 32 (s.reg64 f (offset / 8 * 8) / 2 ^ (8 * (offset % 8 / 4 * 4)))

/-! ### Registers that a read clears (R9, R63, R435) -/

/-- A read of CORE_RESIDUE_ROWS (R63). -/
def State.clearRows (s : State) (f i : Nat) : State :=
  match s.windowCore f i with
  | some p => s.modCore p (fun c => { c with resRows := 0 })
  | none => s

/-- A read of the low or high half of ERR_DROPS clears the counts that it returns (R435). -/
def State.clearDrops (s : State) (lo hi : Bool) : State :=
  { s with err := { s.err with
      dropCorrected := if lo then 0 else s.err.dropCorrected, dropDeferred := if lo then 0 else s.err.dropDeferred,
      dropUncorrected := if hi then 0 else s.err.dropUncorrected } }

/-- CORE_RESIDUE_ROWS_READ (R63). A frozen function's reads return values as usual (R402). -/
def execCoreResidueRowsRead (function window : Nat) (s : State) : Host.Outcome State Fault Refusal :=
  if 16 < function then .fault (.noSuchUnit function)
  else .next (if s.reaches function then s.clearRows function window else s)

/-- ERR_DROPS_READ (R435): the ERR block is the physical function's (R433). -/
def execErrDropsRead (function : Nat) (s : State) : Host.Outcome State Fault Refusal :=
  if 16 < function then .fault (.noSuchUnit function)
  else .next (if function = 0 ∧ s.reaches 0 then s.clearDrops true true else s)

/-! ### Writing -/

/-- What a write carries to an 8-byte aligned offset: either half, or both. -/
structure Halves where
  lo : Option Word
  hi : Option Word

/-- A 64-bit register's value after the halves that a write carries replace its own. -/
def Halves.above (h : Halves) (cur : Nat) : DWord :=
  BitVec.ofNat 64 (pair (h.lo.elim (cur % 2 ^ 32) (fun w => w.toNat)) (h.hi.elim (cur / 2 ^ 32) (fun w => w.toNat)))

/-- The low half has bit `i` set. -/
def Halves.lowBit (h : Halves) (i : Nat) : Bool := h.lo.elim false (fun w => bit w i)

/-- ERR_FATAL_OCC: writing 1 frees a slot (R426, R436). -/
def State.freeFatal (s : State) (v : DWord) : State := { s with err := { s.err with occ := s.err.occ &&& ~~~v } }

/-- The ERR block (R433, R435, R436). -/
def State.writeErr (s : State) (a : Nat) (h : Halves) : State :=
  match a with
  | 0x00 => if h.lowBit 8 then { s with err := { s.err with fatalFull := false } } else s
  | 0x18 => s.freeFatal (h.above 0)
  | _ => s

/-- One word of key data: locked in sealed mode (R11, R353, R366). -/
def State.writeKeyWord (s : State) (i : Nat) (w : Word) : State :=
  if s.cip.sealedMode then
    if w = s.cip.keyData.getD i 0 then s else s.lockedWrite 0 (cipCtrlAt + 0x100 + 4 * i) w.toNat
  else { s with cip := { s.cip with keyData := lset s.cip.keyData i w } }

/-- The CIP block (R350 to R353, R366 to R368). -/
def State.writeCip (s : State) (a : Nat) (h : Halves) : State :=
  if a = 0 then h.lo.elim s (fun w => s.writeSealed (bit w 0))
  else if a = 0x120 then h.lo.elim s s.keyCtl
  else if 0x100 ≤ a ∧ a < 0x120 then
    let i := (a - 0x100) / 4
    let s := h.lo.elim s (s.writeKeyWord i)
    h.hi.elim s (s.writeKeyWord (i + 1))
  else s

/-- The company whose set a function writes in a block of company sets. -/
def State.setOf (s : State) (f a : Nat) : Option Nat :=
  if f = 0 then (if a < 0x10000 then some (a / 0x1000) else none) else if a < 0x1000 then s.funcCo f else none

/-- SYN_WATCH_VALUE and SYN_WATCH_COOKIE, with ENABLE as their lock (R11, R397). -/
def State.writeWatch (s : State) (f n w a : Nat) (h : Halves) : State :=
  let x := s.watch w
  let cur := s.readWatch w a
  let v := h.above cur
  match a with
  | 0x00 => s.writeWatchCfg f n w v
  | 0x08 =>
    let v : Word := BitVec.ofNat 32 v.toNat
    if x.enable then (if v = x.value then s else s.lockedWrite f (watchAt n + 8) v.toNat) else s.modWatch w (fun x => { x with value := v })
  | 0x10 =>
    if x.enable then (if v = x.cookie then s else s.lockedWrite f (watchAt n + 0x10) v.toNat) else s.modWatch w (fun x => { x with cookie := v })
  | _ => s

/-- The SYN block (R394, R397): a 32-bit write of SYN_CTR_WR acts as a 64-bit one whose other half is zero. -/
def State.writeSyn (s : State) (f a : Nat) (h : Halves) : State :=
  if a < 0x20000 then (if a % 16 = 8 then s.writeCtr f (a / 16) (h.above 0) else s)
  else if a < 0xA0000 then
    let n := (a - 0x20000) / 32
    (s.funcWatch f n).elim s (fun w => s.writeWatch f n w (a % 32) h)
  else s

/-- A queue's registers (R11, R380): QUE_BASE has ENABLE as its lock. -/
def State.writeQueue (s : State) (f n q a : Nat) (h : Halves) : State :=
  let v := h.above (s.readQueue q a)
  match a with
  | 0x00 =>
    let b : BitVec 52 := BitVec.ofNat 52 (bits v 63 12)
    if (s.queue q).enable then (if b = (s.queue q).base then s else s.lockedWrite f (queueAt n) v.toNat)
    else s.modQueue q (fun x => { x with base := b })
  | 0x08 => s.writeQueCfg f q (queueAt n + 8) v
  | _ => s

/-- A write at an 8-byte aligned offset of BAR0 by function `f`. Read-only registers and offsets that no rule assigns ignore it (R9, R10). -/
def State.write64 (s : State) (f a : Nat) (h : Halves) : State :=
  let o := a % 0x100000
  if 0x2000000 ≤ a then
    (s.windowCore f ((a - 0x2000000) / 0x4000)).elim s (fun p =>
      if a % 0x4000 = 0x10 ∧ h.lowBit 0 then s.modCore p (fun c => { c with resFlag := false }) else s)
  else if 0x1000000 ≤ a then
    (if a < 0x1200000 then
      let n := (a - 0x1000000) / 64
      (s.funcQueue f n).elim s (fun q => s.writeQueue f n q (a % 64) h)
    else s)
  else match a / 0x100000 with
    | 0x2 => if f = 0 then s.writeErr o h else s
    | 0x5 => if f = 0 then s.writeCip o h else s
    | 0x6 => (s.setOf f o).elim s (fun k => if o % 0x1000 = 0 ∧ h.lowBit 16 then s.modPak k (fun x => { x with aborted := false }) else s)
    | 0x7 => (s.setOf f o).elim s (fun k => if o % 0x1000 = 0 ∧ h.lowBit 9 then s.modFar k (fun x => { x with deferred := false }) else s)
    | 0x8 =>
      if f = 0 ∧ 0x1000 ≤ o ∧ o < 0x1800 ∧ o % 0x100 = 0 ∧ h.lowBit 27 then s.modPort ((o - 0x1000) / 0x100) (fun x => { x with moved := false }) else s
    | 0xB => (s.setOf f o).elim s (fun k => if o % 0x1000 = 0 ∧ h.lowBit 0 then s.modSeq k (fun x => { x with overrun := false }) else s)
    | 0xC => if o = 0x18 then h.lo.elim s (fun w => s.modFunc f (fun x => { x with monSel := w &&& 0x83FF })) else s
    | 0xD => s.writeSyn f o h
    | _ => s

/-- A 32-bit or 64-bit write at a byte offset (DEDUCED, log 67). -/
def State.writeReg (s : State) (f offset : Nat) (wide : Bool) (v : DWord) : State :=
  let lo : Word := BitVec.ofNat 32 (bits v 31 0)
  let hi : Word := BitVec.ofNat 32 (bits v 63 32)
  s.write64 f (offset / 8 * 8)
    (if wide then { lo := some lo, hi := some hi } else if offset % 8 < 4 then { lo := some lo, hi := none } else { lo := none, hi := some lo })

/-- REGISTER_WRITE (R11): an offset beyond BAR0's 64 MiB names no register, and nothing changes (R8, R9) (DEDUCED, log 117). -/
def execRegisterWrite (function offset : Nat) (wide : Bool) (value : DWord) (s : State) : Host.Outcome State Fault Refusal :=
  onFunction function s (fun s => if offset < 0x4000000 then s.writeReg function offset wide value else s)

/-- ERR_FATAL_OCC_CLEAR (R426, R436). -/
def execErrFatalOccClear (function : Nat) (value : DWord) (s : State) : Host.Outcome State Fault Refusal :=
  onFunction function s (fun s => if function = 0 then s.freeFatal value else s)

end Sys2Proof.Machine
end

