-- ==== Sys2Proof/Machine/Service.lean ====
section
/-!
DEFINITION. The stage manager and its resets (R411 to R421, R432), the error logger's own work (R424, R427), telemetry (R415), the service
side with its mailbox, Prompter, SMBus, button, LEDs and JTAG pins (R437 to R443, R502).
-/

namespace Sys2Proof.Machine

/-! ### Lasers (R442, R457, R469, R496) -/

/-- The lasers of every torus port are off: a port that was not DISABLED is DOWN (R191). -/
def State.torusDark (s : State) : State :=
  (List.range 8).foldl (fun s p =>
    let s := if (s.port p).state = .disabled then s else if (s.port p).state = .down then s else s.portDown p
    s.modPort p (fun x => { x with lasers := false })) s

/-- The lasers of both far ports are off. -/
def State.farDark (s : State) : State :=
  [0, 1].foldl (fun s p => (s.farDown p).modFarPort p (fun f => { f with lasers := false })) s

/-! ### Stage manager commands (R415, R420, R421, R432) -/

/-- Version of the running image (R432, R434). -/
def Sm.version (m : Sm) : Word := if m.imageB then m.versionB else m.versionA

/-- RESULT of SM_INFO (R432). -/
def Sm.info (m : Sm) : List Byte :=
  [BitVec.ofNat 8 (b2n m.imageB)] ++ leBytes 4 m.version.toNat ++ [m.load, m.decimation.setWidth 8]

/-- SM_INFO (R432), which a failed module still fetches (R469) (DEDUCED, log 81). -/
def execSmInfo (h : Pkt) (s : State) : Host.Outcome State Fault Refusal :=
  let run := fun (s : State) => s.serve h 0x0101#16 [] false .never (fun s _ => { state := s, result := s.sm.info })
  .next (if s.boot.phase = 4 ∧ s.sm.ready = false then
      let s := run { s with sm := { s.sm with ready := true } }
      { s with sm := { s.sm with ready := false } }
    else run s)

/-- SM_TELEMETRY (R415, R432) (DEDUCED, log 72). -/
def execSmTelemetry (h : Pkt) (queue : BitVec 13) (queueGen : BitVec 8) (periodMs : BitVec 10) (s : State) : Host.Outcome State Fault Refusal :=
  .next (s.serve h 0x0102#16 [(13, queue.toNat), (8, queueGen.toNat), (10, periodMs.toNat)] false .never (fun s k =>
    if 1000 < periodMs.toNat then { state := s, status := stBadArg }
    else match s.queueCheck k queue.toNat queueGen with
      | some e => { state := s, status := e.1 }
      | none =>
        if periodMs = 0 then { state := s.modCo k (fun c => { c with telemetry := none }) }
        else if (s.absQueue k queue.toNat).elim true (fun q => (s.queue q).typ ≠ 4) then { state := s, status := stBadArg }
        else { state := s.modCo k (fun c => { c with telemetry := some (queue.toNat, queueGen, periodMs.toNat, s.nowNs) }) }))

/-- A hand-over into a new image is under way (R421). -/
def Sm.handingOver (m : Sm) : Bool := m.previous.isSome

/-- SM_FW_STAGE (R420): the image is read in wings slots while other commands are served, and checked and written when FW_STAGE_COMPLETE comes
(DEDUCED, log 72). -/
def execSmFwStage (h : Pkt) (imageAddr : BitVec 48) (length : Word) (s : State) : Host.Outcome State Fault Refusal :=
  .next (s.serve h 0x0103#16 [(48, imageAddr.toNat), (32, length.toNat)] true .never (fun s _ =>
    if s.sm.handingOver ∨ s.sm.staging.isSome then { state := s, status := stLocked }
    else if s.ownsDram 0 imageAddr.toNat length.toNat = false then { state := s, status := stDenied }
    else
      let x : FwStaging := { addr := imageAddr.toNat, length := length.toNat, cmd := h }
      { state := { s with sm := { s.sm with staging := some x } }, waits := true, journal := .accepted }))

/-- The access that the stage manager reads next of the image. -/
def Sm.wants (m : Sm) : Option Nat :=
  m.staging.bind (fun x => if x.image.length < x.length then some ((x.addr + x.image.length) / 64 * 64) else none)

/-- An access of the image has been read. -/
def State.imageRead (s : State) (data : BitVec 512) : State :=
  let put := fun (x : FwStaging) =>
    let at_ := x.addr + x.image.length
    { x with image := x.image ++ ((leBytes 64 data.toNat).drop (at_ % 64)).take (x.length - x.image.length) }
  { s with sm := { s.sm with staging := s.sm.staging.map put } }

/-- An image passes the checks of R420. -/
def Sm.accepts (m : Sm) (image : List Byte) : Bool :=
  Config.signatureValid image && decide (m.minSecurity ≤ Config.imageSecurityVersion image)

/-- A flash slot takes an image; `b` names slot B. -/
def Sm.flash (m : Sm) (b : Bool) (image : List Byte) : Sm :=
  let v := Config.imageVersion image
  if b then { m with flashB := image, versionB := v, staged := true } else { m with flashA := image, versionA := v, staged := true }

/-- Staging ends: the slot that does not run takes a good image that has been read whole (R420). -/
def State.stageImage (s : State) : State :=
  match s.sm.staging with
  | none => s
  | some x =>
    if x.image.length < x.length then s
    else
      let s := { s with sm := { s.sm with staging := none } }
      if s.sm.accepts x.image then State.answer { s with sm := s.sm.flash (!s.sm.imageB) x.image } x.cmd stDone 0 []
      else s.answer x.cmd stBadArg 0 []

/-- FW_STAGE_COMPLETE (R420). -/
def execFwStageComplete (s : State) : Host.Outcome State Fault Refusal := .next (if s.sm.ready then s.stageImage else s)

/-! ### Stage manager resets (R416 to R419, R421) -/

/-- Causes of R431. -/
inductive SmCause where
  | lockstep (pairF : Bool)
  | watchdog (pairF : Bool)
  | command
  | prompter
  | switch

/-- Cause and pair in the record's detail. -/
def SmCause.detail : SmCause → List (Nat × Nat)
  | .lockstep p => [(3, 0), (1, b2n p)]
  | .watchdog p => [(3, 1), (1, b2n p)]
  | .command => [(3, 2), (1, 0)]
  | .prompter => [(3, 3), (1, 0)]
  | .switch => [(3, 4), (1, 0)]

/-- Commands that a restart answers RESET: those without an effect (R418). -/
def Sm.unrun (m : Sm) : List Journal := m.journal.filter (fun j => j.state = .accepted)

/-- A stage manager reset (R416, R417): commands are no longer fetched, and an image that was being staged is forgotten. Nothing else
changes (DEDUCED, log 73). -/
def State.smReset (s : State) (cause : SmCause) : State :=
  let s := s.log 0xB 0 1 0 0x0101#16 (cause.detail ++ [(1, b2n s.sm.imageB), (11, s.sm.unrun.length)])
  let mode := if s.sm.mode = .booting then SmMode.booting else if s.sm.handingOver then .handover else .adopting
  { s with sm := { s.sm with resets := satAdd s.sm.resets 1, ready := false, mode := mode, staging := none } }

/-- SM_RESET (R416): answered from the journal. -/
def execSmReset (h : Pkt) (s : State) : Host.Outcome State Fault Refusal :=
  .next (s.serve h 0x0105#16 [] true .never (fun s _ => { state := s.smReset .command, waits := true, journal := .committed }))

/-- SM_LOCKSTEP_MISMATCH (R411). -/
def execSmLockstepMismatch (pairF : Bool) (s : State) : Host.Outcome State Fault Refusal := .next (s.smReset (.lockstep pairF))

/-- SM_WATCHDOG_EXPIRY (R416). -/
def execSmWatchdogExpiry (pairF : Bool) (s : State) : Host.Outcome State Fault Refusal := .next (s.smReset (.watchdog pairF))

/-- SM_FW_SWITCH (R421): a reset into the staged image. -/
def execSmFwSwitch (h : Pkt) (s : State) : Host.Outcome State Fault Refusal :=
  .next (s.serve h 0x0104#16 [] true .never (fun s _ =>
    if s.sm.staged = false then { state := s, status := stLocked }
    else
      let old := s.sm.imageB
      let s := { s with sm := { s.sm with imageB := !old, previous := some old, switchNs := s.nowNs } }
      { state := s.smReset .switch, waits := true, journal := .waiting }))

/-- The commands whose outcome a hand-over decides. -/
def Journal.ofSwitch (j : Journal) : Bool := decide (j.opcode = 0x0104#16) && decide (j.state = .waiting)

/-- The new image has not come up within 10 s: the stage manager resets into the previous one, and the command will be answered FAULT (R421) (DEDUCED, log 73). -/
def State.fwFallback (s : State) : State :=
  match s.sm.previous with
  | none => s
  | some old =>
    if s.sm.ready ∨ s.nowNs < s.sm.switchNs + 10000000000 then s
    else
      let refused := s.sm.version
      let js := s.sm.journal.map (fun j => if j.ofSwitch then { j with state := .committed, status := stFault } else j)
      let s := { s with sm := { s.sm with imageB := old, previous := none, staged := false, journal := js } }
      (s.smReset .switch).log 0xB 0 1 0 0x0102#16 [(32, refused.toNat), (1, b2n old)]

/-- SM_FW_FALLBACK (R421). -/
def execSmFwFallback (s : State) : Host.Outcome State Fault Refusal := .next s.fwFallback

/-- One journal entry at a restart (R418). -/
def State.restartEntry (s : State) (j : Journal) : State :=
  match j.state with
  | .accepted => s.answer j.pkt stReset 0 []
  | .committed => s.answer j.pkt j.status j.detail j.result
  | .waiting => if j.ofSwitch then s.answer j.pkt stDone 0 [] else s
  | .posting => s
  | .replied => s

/-- The restarted stage manager adopts what the hardware holds, answers its journal and fetches again (R418, R419, R421). -/
def State.restart (s : State) : State :=
  if s.smHolds then
    let s := s.sm.journal.foldl (fun s j => s.restartEntry j) s
    State.fetchAll { s with sm := { s.sm with ready := true, mode := .running, staged := s.sm.staged && s.sm.previous.isNone, previous := none } }
  else s

/-- SM_RESTART_READY (R418). -/
def execSmRestartReady (s : State) : Host.Outcome State Fault Refusal := .next s.restart

/-! ### Removal (R442) -/

/-- Every company's script is empty or stopped. -/
def State.scriptsIdle (s : State) : Bool :=
  (0 :: companyList).all (fun k => let q := (s.co k).seq.state; decide (q = .empty) || decide (q = .stopped))

/-- A removal request is raised or cancelled, and logged. -/
def State.setRemoval (s : State) (on : Bool) : State :=
  State.log { s with svc := { s.svc with removal := on, alert := s.svc.alert || (on && s.svc.powered) } } 0xF 0 1 0 0x0103#16 [(1, b2n (!on))]

/-- SM_REMOVAL (R442). -/
def execSmRemoval (h : Pkt) (grant : Bool) (s : State) : Host.Outcome State Fault Refusal :=
  .next (s.serve h 0x0106#16 [(1, b2n grant)] true .never (fun s _ =>
    if s.svc.removal = false then { state := s, status := stBadArg }
    else if grant = false then { state := s.setRemoval false }
    else if s.scriptsIdle = false then { state := s, status := stLocked }
    else
      let s := s.torusDark.farDark
      { state := { s with svc := { s.svc with removal := false, safe := true } } }))

/-! ### Error records (R424 to R428, R432) -/

/-- ERR_INJECT (R432): the record is handled as any of its class and enters no count. -/
def execErrInject (h : Pkt) (source : BitVec 16) (cls : BitVec 2) (code : BitVec 16) (company : BitVec 4) (s : State) :
    Host.Outcome State Fault Refusal :=
  .next (s.serve h 0x0201#16 [(16, source.toNat), (2, cls.toNat), (16, code.toNat), (4, company.toNat)] true .never (fun s _ =>
    if s.cip.sealedMode then { state := s, status := stLocked }
    else { state := s.raise { source := source, cls := cls, code := code, company := company.toNat, injected := true } }))

/-- Waiting records that the logger has taken in the present microsecond. -/
def State.takenNow (s : State) : Nat := if s.err.takenNs = s.nowNs then s.err.taken else 0

/-- The logger takes the oldest waiting record and writes it: 4,000,000 a second are four in a microsecond (R425, R427) (DESIGN CHOICE, log 121). -/
def State.logStep (s : State) : State :=
  match s.err.buffer with
  | [] => s
  | r :: rs =>
    if s.takenNow < 4 then
      State.writeRing { s with err := { s.err with buffer := rs, takenNs := s.nowNs, taken := s.takenNow + 1 } } r
    else s

/-- ERROR_RECORD (R424 to R428). -/
def execErrorRecord (s : State) : Host.Outcome State Fault Refusal := .next s.logStep

/-- The oldest group that opened 1 ms ago closes (R424). -/
def State.closeOldest (s : State) : State :=
  match s.err.groups.find? (fun g => decide (g.openedNs + 1000000 ≤ s.nowNs)) with
  | none => s
  | some g => State.closeGroup { s with err := { s.err with groups := s.err.groups.erase g } } g g.repeats

/-- ERROR_GROUP_CLOSE (R424). -/
def execErrorGroupClose (s : State) : Host.Outcome State Fault Refusal := .next s.closeOldest

/-! ### Telemetry (R415) -/

/-- A telemetry entry (R415). -/
def State.telemetryEntry (s : State) (k : Nat) (meanMw : Word) : List Byte :=
  leBytes 8 s.stamp.toNat ++ leBytes 8 (s.co k).energy.toNat ++ leBytes 4 meanMw.toNat ++ leBytes 2 s.pwr.hottest.toNat ++
    [s.pwr.op.setWidth 8, s.sm.decimation.setWidth 8]

/-- A telemetry period, lengthened by DECIMATION, has passed, and pair M has no command to serve; an entry for a queue whose generation has
advanced is dropped (R399, R413, R415). -/
def State.telemetry (s : State) (k : Nat) (meanMw : Word) : State :=
  match (s.co k).telemetry with
  | none => s
  | some (q, gen, ms, last) =>
    if s.sm.ready ∧ s.sm.list = [] ∧ last + ms * 2 ^ s.sm.decimation.toNat * 1000000 ≤ s.nowNs then
      let s := s.modCo k (fun c => { c with telemetry := some (q, gen, ms, s.nowNs) })
      match s.absQueue k q with
      | none => s
      | some a => if (s.queue a).gen = gen ∧ (s.queue a).typ = 4 then s.post a (s.telemetryEntry k meanMw) none else s
    else s

/-- TELEMETRY_TICK (R415). -/
def execTelemetryTick (company : Nat) (meanMw : Word) (s : State) : Host.Outcome State Fault Refusal :=
  onCompany company s (fun s => s.telemetry company meanMw)

/-- LOAD, the mean service time and DECIMATION after 10 ms of pair M (R414, R415, R434). -/
def Sm.decimate (m : Sm) (busy : BitVec 8) (serviceNs : Nat) : Sm :=
  let m := { m with load := busy, serviceNs := serviceNs }
  if 80 < busy.toNat then { m with decimation := if m.decimation.toNat < 6 then m.decimation + 1 else m.decimation, lowMs := 0 }
  else if busy.toNat < 50 then
    if m.lowMs + 10 < 100 then { m with lowMs := m.lowMs + 10 }
    else { m with lowMs := 0, decimation := if m.decimation = 0 then 0 else m.decimation - 1 }
  else { m with lowMs := 0 }

/-- DECIMATION_UPDATE (R415): pair M's share is read over 10 ms (log 5). -/
def execDecimationUpdate (busy : BitVec 8) (serviceNs : Nat) (s : State) : Host.Outcome State Fault Refusal :=
  .next (if s.sm.ready ∧ s.sm.busyNs + 10000000 ≤ s.nowNs then { s with sm := { s.sm.decimate busy serviceNs with busyNs := s.nowNs } } else s)

/-! ### The attention button (R442) -/

/-- ATTN_SHORT_PRESS (R442). -/
def execAttnShortPress (s : State) : Host.Outcome State Fault Refusal :=
  .next (if s.svc.powered then { s with svc := { s.svc with locate := !s.svc.locate } } else s)

/-- ATTN_LONG_PRESS (R442). -/
def execAttnLongPress (s : State) : Host.Outcome State Fault Refusal :=
  .next (if s.svc.powered then s.setRemoval (!s.svc.removal) else s)

/-! ### The mailbox (R437) -/

/-- Bytes of a mailbox frame that its CRC-32 covers: the 4-byte header and the payload. -/
def mailboxBytes (kind : BitVec 8) (payload : List Byte) : List Byte := [kind, 0] ++ leBytes 2 payload.length ++ payload

/-- TYPE codes of a mailbox frame (DESIGN CHOICE, log 9). -/
def mailRequest : BitVec 8 := 0
/-- TYPE of a reply frame (DESIGN CHOICE, log 9). -/
def mailReply : BitVec 8 := 1

/-- A frame that fails its CRC or is too long is discarded; pair F answers a request (R411, R437) (DESIGN CHOICE, log 9). -/
def State.mailbox (s : State) (kind : BitVec 8) (payload : List Byte) (crc : Word) : State :=
  if s.svc.powered = false ∨ 248 < payload.length ∨ crc ≠ crc32 (mailboxBytes kind payload) then s
  else if kind = mailRequest ∧ s.sm.ready then
    { s with svc := { s.svc with mailbox := (mailReply, (Config.mailboxAnswer payload).take 248) :: s.svc.mailbox } }
  else s

/-- MAILBOX_FRAME (R437). -/
def execMailboxFrame (kind : BitVec 8) (payload : List Byte) (crc : Word) (s : State) : Host.Outcome State Fault Refusal :=
  .next (s.mailbox kind payload crc)

/-! ### The Prompter (R439, R440) -/

/-- The Prompter answers in lines and prints its prompt (R439) (DESIGN CHOICE, log 91). -/
def State.print (s : State) (ls : List PromptLine) : State :=
  if s.svc.powered then { s with svc := { s.svc with uart := s.svc.uart ++ ls ++ [.prompt] } } else s

/-- A command that needs the stage manager (R439) (DEDUCED, log 74). -/
def State.printSm (s : State) (ls : List PromptLine) : State := s.print (if s.sm.ready then ls else [.busy])

/-- PROMPTER_HELP. -/
def execPrompterHelp (s : State) : Host.Outcome State Fault Refusal := .next (s.print [.help])

/-- PROMPTER_ID. -/
def execPrompterId (s : State) : Host.Outcome State Fault Refusal :=
  .next (s.printSm [.id (s.readReg 0 0) s.serial s.sm.imageB s.sm.version])

/-- PROMPTER_STATUS. -/
def execPrompterStatus (s : State) : Host.Outcome State Fault Refusal :=
  .next (s.printSm [.status (BitVec.ofNat 32 s.smStatus) s.cip.sealedMode s.boot.vinMv.toNat s.pwr.inputW.toNat s.pwr.hottest s.pwr.op])

/-- The ring entry written before entry `i` (R425): below the circular region's start lie its end, once it has wrapped, and the pinned region. -/
def ErrState.before (e : ErrState) (i : Nat) : Option Nat :=
  if i = 0 then none
  else if i = 1024 then (if (tget none e.ring 4031).isSome then some 4031 else some 1023)
  else some (i - 1)

/-- The latest `n` records, newest first (DEDUCED, log 74). -/
def ErrState.latest (e : ErrState) : Nat → Nat → List ErrRec
  | 0, _ => []
  | n + 1, i =>
    match e.before i with
    | none => []
    | some j => match tget none e.ring j with
      | some r => r :: e.latest n j
      | none => []

/-- PROMPTER_LOG: the latest `n` ring records, 1 to 64, 16 where no number is given; another number prints none (DEDUCED, log 74). -/
def execPrompterLog (n : Option Nat) (s : State) : Host.Outcome State Fault Refusal :=
  let m := n.getD 16
  .next (s.printSm ((if m ≤ 64 then s.err.latest m s.err.next else []).map PromptLine.record))

/-- PROMPTER_FATAL. -/
def execPrompterFatal (s : State) : Host.Outcome State Fault Refusal :=
  .next (s.printSm (((List.range 64).filter (fun n => s.err.occ.getLsbD n)).filterMap
    (fun n => (tget none s.err.ring (4032 + n)).map PromptLine.record)))

/-- PROMPTER_PORTS. -/
def execPrompterPorts (s : State) : Host.Outcome State Fault Refusal :=
  .next (s.printSm ((List.range 8).map (fun p => PromptLine.port p (s.port p).state) ++ [0, 1].map (fun p => PromptLine.farPort p (s.farPort p).link)))

/-- PROMPTER_LOCATE. -/
def execPrompterLocate (on : Bool) (s : State) : Host.Outcome State Fault Refusal :=
  .next (if s.svc.powered then State.print { s with svc := { s.svc with locate := on } } [.ok] else s)

/-- The rates of the baud command (R440). -/
def baudRates : List Nat := [115200, 230400, 460800, 921600, 1500000, 3000000]

/-- PROMPTER_BAUD: the rate changes after the reply line; another number changes nothing. -/
def execPrompterBaud (n : Nat) (s : State) : Host.Outcome State Fault Refusal :=
  .next (if s.svc.powered = false then s
    else
      let s := s.print (if baudRates.contains n then [.ok] else [])
      { s with svc := { s.svc with baud := if baudRates.contains n then n else s.svc.baud } })

/-- PROMPTER_SMRESET (R416): it needs no answer of the stage manager. -/
def execPrompterSmreset (s : State) : Host.Outcome State Fault Refusal :=
  .next (if s.svc.powered then (s.smReset .prompter).print [.ok] else s)

/-- What a read of a register by the physical function clears (R9, R63, R435) (DEDUCED, log 68). -/
def State.readEffect (s : State) (offset : Nat) : State :=
  if offset / 8 * 8 = 0x200008 then s.clearDrops (decide (offset % 8 < 4)) (decide (4 ≤ offset % 8))
  else if 0x2000000 ≤ offset ∧ offset % 0x4000 / 4 * 4 = 0x14 then s.clearRows 0 ((offset - 0x2000000) / 0x4000)
  else s

/-- PROMPTER_PEEK (R440): denied in sealed mode. An offset beyond BAR0's 64 MiB reads as zero, like every offset that names no register (R8, R9)
(DEDUCED, log 117). -/
def execPrompterPeek (offset : Nat) (s : State) : Host.Outcome State Fault Refusal :=
  .next (if s.svc.powered = false then s
    else if s.cip.sealedMode then s.print [.denied]
    else if s.sm.ready = false then s.print [.busy]
    else if offset < 0x4000000 then (s.readEffect offset).print [.value (s.readReg 0 offset)]
    else s.print [.value 0])

/-! ### SMBus (R441, R502) -/

/-- One bit of the packet error code, x^8 + x^2 + x + 1. -/
def pecBit (c : Byte) : Byte := if c.getLsbD 7 then (c <<< 1) ^^^ 0x07#8 else c <<< 1

/-- The packet error code of a transaction's bytes (PRESUMED, log 75). -/
def pec (bs : List Byte) : Byte := bs.foldl (fun c b => iter 8 (fun _ c => pecBit c) (c ^^^ b)) 0

/-- Answers a read of command `cmd` at address 0x4C: the data and the packet error code over the whole transaction (R441). -/
def State.smbusAnswer (s : State) (cmd : Byte) (data : List Byte) : State :=
  if s.svc.powered then { s with svc := { s.svc with smbus := data ++ [pec ([0x98, cmd, 0x99] ++ data)] } } else s

/-- 48 V in range, 40 to 60 V (R441, R443). -/
def Boot.inRange (b : Boot) : Bool := decide (40000 ≤ b.vinMv.toNat) && decide (b.vinMv.toNat ≤ 60000)

/-- Health is good: the health LED shows Running (R441, R443). -/
def State.healthy (s : State) : Bool := decide (s.err.occ = 0) && s.sm.ready

/-- The status byte of SMBus command 0x01 (R441). -/
def State.smbusStatus (s : State) : Byte :=
  BitVec.ofNat 8 (packBits [(1, b2n s.boot.inRange), (1, b2n s.healthy), (1, b2n (decide (s.err.occ ≠ 0))), (1, b2n s.svc.removal), (1, b2n s.svc.safe),
    (1, b2n s.svc.locate)])

def execSmbusStatusRead (s : State) : Host.Outcome State Fault Refusal := .next (s.smbusAnswer 0x01 [s.smbusStatus])
def execSmbusTempRead (s : State) : Host.Outcome State Fault Refusal := .next (s.smbusAnswer 0x02 (leBytes 2 s.pwr.hottest.toNat))
def execSmbusPowerRead (s : State) : Host.Outcome State Fault Refusal := .next (s.smbusAnswer 0x03 (leBytes 2 s.pwr.inputW.toNat))

/-- SMBUS_SERIAL_READ: a block read, so a byte count comes first. -/
def execSmbusSerialRead (s : State) : Host.Outcome State Fault Refusal := .next (s.smbusAnswer 0x05 ([8] ++ leBytes 8 s.serial.toNat))

/-- SMBUS_LOCATE_WRITE: 0 off, 1 on; another value changes nothing (DEDUCED, log 74). -/
def execSmbusLocateWrite (value : Byte) (s : State) : Host.Outcome State Fault Refusal :=
  .next (if s.svc.powered ∧ value.toNat < 2 then { s with svc := { s.svc with locate := decide (value = 1) } } else s)

/-- SMBUS_ALERT_RESPONSE: the module answers with its address and releases SMB_ALERT_N. -/
def execSmbusAlertResponse (s : State) : Host.Outcome State Fault Refusal :=
  .next (if s.svc.powered ∧ s.svc.alert then { s with svc := { s.svc with alert := false, smbus := [0x98, pec [0x19, 0x98]] } } else s)

/-- SMBUS_BUS_TIMEOUT (R502): the bus is released. -/
def execSmbusBusTimeout (s : State) : Host.Outcome State Fault Refusal := .next { s with svc := { s.svc with smbus := [] } }

/-! ### Service-side power and JTAG (R437, R439, R502) -/

/-- SERVICE_SIDE_RESET (R439) (DEDUCED, log 76). -/
def execServiceSideReset (s : State) : Host.Outcome State Fault Refusal := .next { s with svc := { powered := true } }

/-- SVC_3V3_LOSS (R502). -/
def execSvc3v3Loss (s : State) : Host.Outcome State Fault Refusal := .next { s with svc := {} }

/-- JTAG_ACCESS (R437): in open mode the signals cross the barrier; in sealed mode they are ignored (DESIGN CHOICE, log 90). -/
def execJtagAccess (tck tms tdi trstN : Bool) (s : State) : Host.Outcome State Fault Refusal :=
  .next (if s.svc.powered ∧ s.cip.sealedMode = false then { s with svc := { s.svc with tck := tck, tms := tms, tdi := tdi, trstN := trstN } } else s)

/-! ### LEDs (R443, R501), which show the state -/

/-- What an LED signal shows. -/
inductive Led where
  | off | green | green1Hz | amber | amber1Hz | blue | blue4Hz | blue1Hz
deriving DecidableEq, Repr

def State.ledPower (s : State) : Led :=
  if 0 < s.boot.vinMv.toNat ∧ s.boot.inRange = false then .amber else if s.boot.inRange ∧ s.boot.railsUp then .green else .off

def State.ledHealth (s : State) : Led :=
  if s.err.occ ≠ 0 then .amber
  else if s.sm.ready = false then .amber1Hz
  else if s.boot.phase.toNat < 3 then .green1Hz
  else .green

/-- Ports that the call sheet names: those on an axis of length 2 or more. -/
def State.namedPorts (s : State) : List Nat :=
  s.island.sheet.elim [] (fun sh => (List.range 8).filter (fun p => decide (2 ≤ sh.axes.getD (p / 2) 1)))

def State.ledLink (s : State) : Led :=
  let ps := s.namedPorts
  if s.island.sheet.isNone then .off
  else if ps.any (fun p => decide ((s.port p).state = .down) || (s.port p).moved) then .amber
  else if ps.any (fun p => decide (1 ≤ (s.port p).state.code) && decide ((s.port p).state.code ≤ 4)) then .green1Hz
  else if ps.all (fun p => decide ((s.port p).state = .active)) then .green
  else .off

def State.ledLocate (s : State) : Led :=
  if s.svc.safe then .blue else if s.svc.removal then .blue4Hz else if s.svc.locate then .blue1Hz else .off

end Sys2Proof.Machine
end

