-- ==== Sys2Proof/Machine/Power.lean ====
section
/-!
DEFINITION. Power, thermal control and the 48 V input (R24, R445, R451 to R458, R465, R466, R491, R496).
-/

namespace Sys2Proof.Machine

/-! ### House commands (R451, R458, R465, R516) -/

/-- PWR_CAP_SET (R451, R465). -/
def execPwrCapSet (h : Pkt) (capW : BitVec 12) (s : State) : Host.Outcome State Fault Refusal :=
  .next (s.serve h 0x0301#16 [(12, capW.toNat)] true .never (fun s _ =>
    if capW.toNat < 1000 ∨ 2400 < capW.toNat then { state := s, status := stBadArg }
    else { state := { s with pwr := { s.pwr with cap := capW } } }))

/-- PWR_FIXED_OP (R465, R516). -/
def execPwrFixedOp (h : Pkt) (op : BitVec 3) (s : State) : Host.Outcome State Fault Refusal :=
  .next (s.serve h 0x0302#16 [(3, op.toNat)] true .never (fun s _ =>
    if (0 :: companyList).any (fun k => s.runs k && !(s.co k).lanes.isEmpty) then { state := s, status := stLocked }
    else { state := { s with pwr := { s.pwr with fixedOp := op } } }))

/-- PWR_NV_SET (R458, R465). -/
def execPwrNvSet (h : Pkt) (ageing : Bool) (s : State) : Host.Outcome State Fault Refusal :=
  .next (s.serve h 0x0303#16 [(1, b2n ageing)] true .never (fun s _ => { state := { s with pwr := { s.pwr with ageingNext := ageing } } }))

/-! ### The fast limit and droop (R24, R453, R454) -/

/-- The cap in force: the lower of CAP_W and 62 A at the input voltage (R452, R453, R496) (DEDUCED, log 78). -/
def State.capNow (s : State) : Nat := min s.pwr.cap.toNat (62 * s.boot.vinMv.toNat / 1000)

/-- An epoch with a stretch beyond 1 % counts one fault toward the step of every running script, once (R24, R453, R454) (DEDUCED, log 77). -/
def State.stretchFault (s : State) : State :=
  if s.pwr.throttleLogged || s.pwr.droopLogged then s
  else (0 :: companyList).foldl (fun s k => if s.runs k then s.addFaults k 1 else s) s

/-- The stretch budget of an epoch: 1 % of its 65,536 cycles, shared by every cause (R24). -/
def stretchBudget : Nat := 655

/-- The clock stretches by `n` periods: within the budget, or past it where an emergency rule lets it (R24, R453, R454) (DEDUCED, log 77). -/
def State.stretchBy (s : State) (emergency : Bool) (n : Nat) : State :=
  let m := if emergency then n else min n (stretchBudget - s.pwr.stretch)
  { s with pwr := { s.pwr with stretch := s.pwr.stretch + m } }

/-- Stretching has gone on beyond 1 % for cause 0 power, 1 current limit or 2 temperature: THROTTLE, and PWR_THROTTLE once per epoch (R453,
R466) (DEDUCED, log 77). -/
def State.throttle (s : State) (cause : Nat) : State :=
  if s.pwr.stretch ≤ stretchBudget then s
  else
    let first := !s.pwr.throttleLogged
    let s := s.stretchFault
    let s := { s with pwr := { s.pwr with throttle := true, throttleLogged := true } }
    if first then s.log 0xC 0 2 0 0x0301#16 [(16, s.pwr.estimateW.toNat), (12, s.pwr.cap.toNat), (2, cause)] else s

/-- The periods that a limit stretches in one µs. The spec gives no amount: at least one, and never so many that 2,016 cycles take more than
3.9 µs, which is 517 cycles in a µs (R453) (DESIGN CHOICE, log 113). -/
def State.limitPeriods (s : State) : Nat × State :=
  let (v, s) := s.draw
  (1 + v.toNat % (stageMhz s.pwr.op.toNat - 517), s)

/-- A limit stretches the clock for one µs (R24, R453). -/
def State.limitStretch (s : State) (emergency : Bool) (cause : Nat) : State :=
  let (n, s) := s.limitPeriods
  let s := s.stretchBy emergency n
  if emergency then s.throttle cause else s

/-- CURRENT_LIMIT_TRIP (R453). -/
def execCurrentLimitTrip (s : State) : Host.Outcome State Fault Refusal := .next (s.limitStretch true 1)

/-- A dip costs stage-clock periods: from the shared budget, or beyond it once droop alone needs more than 1 % of the epoch's 65,536, which is
logged once and counts as a fault (R24, R454) (DEDUCED, log 77; DESIGN CHOICE, log 89). -/
def State.droop (s : State) (cycles : Nat) : State :=
  let n := s.pwr.drooped + cycles
  let past := decide (stretchBudget < n)
  let s := State.stretchBy { s with pwr := { s.pwr with drooped := n } } past cycles
  if past && !s.pwr.droopLogged then
    let s := s.stretchFault
    let s := { s with pwr := { s.pwr with throttle := true, droopLogged := true } }
    s.log 0xC 0 2 0 0x0302#16 [(32, n)]
  else s

/-- DROOP_EVENT (R454). -/
def execDroopEvent (cycles : Nat) (s : State) : Host.Outcome State Fault Refusal := .next (s.droop cycles)

/-! ### Estimate and energy (R453, R455, R456, R491) -/

/-- Energy in µJ is attributed to a company (R456). -/
def State.addEnergy (s : State) (k uj : Nat) : State :=
  s.modCo k (fun c => { c with energy := c.energy + BitVec.ofNat 64 uj, received := c.received + uj })

/-- The energy of one µs is shared: what companies 1 to 15 receive goes by the per-part values, and the house receives the rest (R456)
(DESIGN CHOICE, log 89). -/
def State.shareEnergy (s : State) : Nat → List (Nat × Nat) → State
  | uj, [] => s.addEnergy 0 uj
  | uj, (k, n) :: es =>
    if 0 < k ∧ k < 16 ∧ (s.co k).present = true then (s.addEnergy k (min n uj)).shareEnergy (uj - min n uj) es else s.shareEnergy uj es

/-- One microsecond passes: the boot timer counts, and a PCIe link whose time has come trains (R491, R497) (DESIGN CHOICE, log 5). -/
def State.microsecond (s : State) : State :=
  let s := { s with nowNs := s.nowNs + 1000 }
  let s := if s.boot.powerGood ∧ s.boot.phase.toNat < 3 then
      { s with boot := { s.boot with elapsed := BitVec.ofNat 12 (min 0xFFF ((s.nowNs - s.boot.powerGoodNs) / 10000000)) } }
    else s
  s.tryLink

/-- The calibrated estimate R × G in W, G in units of 2^-14 (R455, R467). -/
def estimate (rawW : Nat) (gain : BitVec 16) : BitVec 16 := BitVec.ofNat 16 (min 65535 (rawW * gain.toNat / 16384))

/-- POWER_ESTIMATE_TICK (R453, R455, R456) (DEDUCED, log 77; DESIGN CHOICE, log 89). -/
def State.estimateTick (s : State) (rawW : Nat) (energy : List (Nat × Nat)) : State :=
  let s := s.microsecond
  let s := State.shareEnergy { s with pwr := { s.pwr with estimateW := estimate rawW s.pwr.gain } } (estimate rawW s.pwr.gain).toNat energy
  if 2400 < s.pwr.estimateW.toNat then s.limitStretch true 0
  else if s.pwr.critical then s.limitStretch true 2
  else if s.capNow < s.pwr.estimateW.toNat then s.limitStretch false 0
  else s

def execPowerEstimateTick (rawW : Nat) (energy : List (Nat × Nat)) (s : State) : Host.Outcome State Fault Refusal :=
  .next (s.estimateTick rawW energy)

/-! ### Measurement, calibration and the cap ceiling (R452, R455) -/

/-- The new gain as a fraction, in units of 2^-14: g + (MR / R - g) / 8 (R455) (DESIGN CHOICE, log 1). -/
def newGain (gain : BitVec 16) (railW rawMeanW : Nat) : Nat × Nat := (7 * gain.toNat * rawMeanW + 16384 * railW, 8 * rawMeanW)

/-- A fraction in whole units; how the register rounds is open, so a value between two units is either (DESIGN CHOICE, log 1). -/
def State.roundFree (s : State) (q : Nat × Nat) : Nat × State :=
  if q.1 % q.2 = 0 then (q.1 / q.2, s)
  else
    let (v, s) := s.draw
    (q.1 / q.2 + b2n (v.getLsbD 0), s)

/-- The gain follows the measured rail power; a gain beyond 0.80 to 1.25 is clamped and logged (R455). With a raw mean of 0 the rule gives
no value. -/
def State.calibrate (s : State) (railW rawMeanW : Nat) : State :=
  let q := newGain s.pwr.gain railW rawMeanW
  if rawMeanW = 0 then
    let (v, s) := s.draw
    { s with pwr := { s.pwr with gain := BitVec.ofNat 16 (13107 + v.toNat % 7374) } }
  else
    let low := decide (5 * q.1 < 4 * 16384 * q.2)
    let high := decide (5 * 16384 * q.2 < 4 * q.1)
    let (raw, s) := s.roundFree q
    let (g, s) := if low then s.roundFree (4 * 16384, 5) else if high then (20480, s) else (raw, s)
    let s := { s with pwr := { s.pwr with gain := BitVec.ofNat 16 g } }
    if low || high then s.log 0xC 0 1 0 0x0303#16 [(16, min raw 65535)] else s

/-- The cap ceiling moves by one point at the end of 1 ms (R452) (DEDUCED, log 78). -/
def Pwr.capStep (p : Pwr) (cap inputW : Nat) : Pwr :=
  let above := decide (cap < inputW)
  let hist := (inputW :: p.history).take 10
  let c := p.capCeil.toNat
  let fits := fun (w : Nat) => decide (w * stageMhz (c + 1) * 11 < cap * stageMhz c * 10)
  let c' := if above && p.overLast then c - 1 else if c < 7 ∧ hist.length = 10 ∧ hist.all fits then c + 1 else c
  { p with overLast := above, history := hist, capCeil := BitVec.ofNat 3 c' }

/-- The energy that the companies have received since the last measurement. -/
def State.receivedAll (s : State) : Nat := ((List.range 16).map (fun k => (s.co k).received)).sum

/-- A company's share of a conversion loss in µJ: in proportion to the energy it has received; a share between two µJ is either, and where
no company has received any the house takes the loss (R456) (DESIGN CHOICE, log 122). -/
def State.lossShare (s : State) (loss : Int) (total k : Nat) : State :=
  if total = 0 then (if k = 0 then s.modCo 0 (fun c => { c with energy := c.energy + BitVec.ofInt 64 loss }) else s)
  else
    let n := loss * (s.co k).received
    let (v, s) := s.draw
    let up := if n % total ≠ 0 ∧ v.getLsbD 0 = true then 1 else 0
    s.modCo k (fun c => { c with energy := c.energy + BitVec.ofInt 64 (n / total + up), received := 0 })

/-- The conversion loss of 1 ms is shared among the companies (R456). -/
def State.shareLoss (s : State) (loss : Int) : State :=
  let total := s.receivedAll
  (List.range 16).foldl (fun s k => s.lossShare loss total k) s

/-- POWER_MEASURE_TICK, 1 ms after the one before (R452, R455, R456) (DESIGN CHOICE, log 89). -/
def State.measureTick (s : State) (inputW railW : BitVec 16) (rawMeanW : Nat) : State :=
  if s.nowNs < s.pwr.measuredNs + 1000000 then s
  else
    let s := { s with pwr := { s.pwr with inputW := inputW, railW := railW, measuredNs := s.nowNs } }
    let s := (s.calibrate railW.toNat rawMeanW).shareLoss (1000 * ((inputW.toNat : Int) - railW.toNat))
    { s with pwr := s.pwr.capStep s.capNow inputW.toNat }

def execPowerMeasureTick (inputW railW : BitVec 16) (rawMeanW : Nat) (s : State) : Host.Outcome State Fault Refusal :=
  .next (s.measureTick inputW railW rawMeanW)

/-! ### Thermal control (R457) -/

/-- A reading above a limit: die limits in 0.125 °C, stack limits in °C. -/
def hotter (die dram : Int) (dieLimit dramLimit : Int) : Bool := decide (8 * dieLimit < die) || decide (dramLimit < dram)

/-- Sensor and temperature of the class that is above its limit: a stack's sensor counts on from the 68 of the dies (DEDUCED, log 10). -/
def hotDetail (die : Int) (sensor : BitVec 8) (dram : Int) (stack : Nat) (dieLimit : Int) : List (Nat × Nat) :=
  if 8 * dieLimit < die then [(8, sensor.toNat), (16, (BitVec.ofInt 16 die).toNat)] else [(8, 68 + stack), (16, (BitVec.ofInt 16 (8 * dram)).toNat)]

/-- The stage rails fall and the lasers go off (R457, R496) (DEDUCED, log 79). -/
def State.railsFall (s : State) : State :=
  let s := s.torusDark.farDark
  { s with boot := { s.boot with railsUp := false } }

/-- Every reading is 8 °C or more below the ceiling limit (R457). -/
def cooler (die dram : Int) : Bool := decide (die ≤ 8 * 92) && decide (dram ≤ 82)

/-- How long the readings have been above the ceiling limit, or well below it (R457). -/
def Pwr.ceilingClocks (p : Pwr) (die dram : Int) (now : Nat) : Pwr :=
  { p with hotNs := if hotter die dram 100 90 then some (p.hotNs.getD now) else none,
           coolNs := if cooler die dram then some (p.coolNs.getD now) else none }

/-- THERMAL_SAMPLE (R457) (DEDUCED, log 79). -/
def State.thermal (s : State) (die : Int) (sensor : BitVec 8) (dram : Int) (stack : Nat) : State :=
  let warn := hotter die dram 95 85
  let crit := hotter die dram 105 95
  let shut := hotter die dram 115 105
  let newWarn := warn && !s.pwr.warned
  let newCrit := crit && !s.pwr.critical
  let newShut := shut && !s.pwr.shutdown
  let s := { s with pwr := { s.pwr.ceilingClocks die dram s.nowNs with
                      hottest := BitVec.ofInt 16 die, sensor := sensor, dramHot := BitVec.ofInt 8 dram, warned := warn, critical := crit },
                    svc := { s.svc with alert := s.svc.alert || (warn && s.svc.powered) } }
  let s := if newWarn then s.log 0xC 0 1 0 0x0304#16 (hotDetail die sensor dram stack 95) else s
  let s := if newCrit then s.log 0xC 0 2 0 0x0305#16 (hotDetail die sensor dram stack 105) else s
  if newShut then
    State.railsFall (State.log { s with pwr := { s.pwr with shutdown := true } } 0xC 0 3 0 0x0306#16 (hotDetail die sensor dram stack 115))
  else s

def execThermalSample (die : Int) (sensor : BitVec 8) (dram : Int) (stack : Nat) (s : State) : Host.Outcome State Fault Refusal :=
  .next (s.thermal die sensor dram stack)

/-- A time of 1 ms or 100 ms has passed since `t`. -/
def passed (t : Option Nat) (ns now : Nat) : Bool := t.elim false (fun t => decide (t + ns ≤ now))

/-- The thermal ceiling (R457): one point down per 1 ms above the limit, one up per 100 ms with every reading 8 °C or more below it. -/
def Pwr.thermStep (p : Pwr) (above : Bool) (now : Nat) : Pwr :=
  let c := p.thermCeil.toNat
  if above then (if passed p.hotNs 1000000 now then { p with thermCeil := BitVec.ofNat 3 (c - 1), hotNs := some now } else p)
  else if passed p.coolNs 100000000 now then { p with thermCeil := BitVec.ofNat 3 (min 7 (c + 1)), coolNs := some now }
  else p

/-- THERMAL_CEILING_TICK (R457). -/
def execThermalCeilingTick (above : Bool) (s : State) : Host.Outcome State Fault Refusal :=
  .next { s with pwr := s.pwr.thermStep above s.nowNs }

/-- One trim step of 2.5 mV, from 30 mV below to 40 mV above the nominal rail (DEDUCED, log 79). -/
def Pwr.trimStep (p : Pwr) (slackAbove : Bool) : Pwr :=
  if slackAbove then { p with trim := if -12 < p.trim then p.trim - 1 else p.trim }
  else { p with trim := if p.trim < 16 then p.trim + 1 else p.trim }

/-- In monitor-trim the rail is trimmed 1 ms after the trim before; setpoints hold in a stage manager reset (R417, R458). -/
def State.railTrim (s : State) (slackAbove : Bool) : State :=
  if s.smHolds ∨ s.pwr.ageing ∨ s.nowNs < s.pwr.trimmedNs + 1000000 then s
  else { s with pwr := { s.pwr.trimStep slackAbove with trimmedNs := s.nowNs } }

/-- RAIL_TRIM_TICK (R458). -/
def execRailTrimTick (slackAbove : Bool) (s : State) : Host.Outcome State Fault Refusal := .next (s.railTrim slackAbove)

end Sys2Proof.Machine
end

