-- ==== Sys2Proof/Machine/Repair.lean ====
section
/-!
DEFINITION. Self-repair (R459 to R465, R488) and the module's start (R460, R468 to R470, R496, R497).
-/

namespace Sys2Proof.Machine

/-! ### Spares (R459, R463) -/

/-- The stored role of a core: what a repair has given it, or its default. -/
def State.storedRole (s : State) (p : Nat) : CoreRole := (tget none s.roles p).getD (defaultRole s.gradeA768 p)

def State.setRole (s : State) (p : Nat) (r : CoreRole) : State := { s with roles := tset none s.roles p (some r) }

/-- Physical cores of the die row that holds core `p`. -/
def rowOfCore (p : Nat) : List Nat := (List.range 17).map (fun c => p / 17 * 17 + c)

/-- The spare of a core's die row (R459). -/
def State.rowSpare (s : State) (p : Nat) : Option Nat := (rowOfCore p).find? (fun q => decide ((s.roleOf q).role = 0))

/-- Sixteen cores of a spare physical row of the same die, the lowest such row first (R459). -/
def State.spareRow (s : State) (p : Nat) : Option (List Nat) :=
  (List.range 25).findSome? (fun r =>
    let first := p / 425 * 425 + 17 * r
    let x := s.rowSpares (first / 17)
    if x.2 = false ∧ 16 ≤ x.1 then some (((rowOfCore first).filter (fun q => (s.roleOf q).role = 0)).take 16) else none)

/-- A spare exists for a core (R463). -/
def State.coreSpare (s : State) (p : Nat) : Bool := (s.rowSpare p).isSome || (s.spareRow p).isSome

/-- The lines of an image's backing for a logical core, into its tile memory, which they write whole (R38); answers how many (R463, R513). -/
def State.reload (s : State) (im : Image) (lrow lcol p : Nat) : Nat × State :=
  (im.backed.filter (fun b => decide (b.lrow = lrow) && decide (b.lcol = lcol))).foldl (fun (t : Nat × State) b =>
    let (bs, _, s) := t.2.dramGet (t.2.coreCo p) b.dram (256 * b.lines) true
    (t.1 + b.lines, s.modCore p (fun c => c.tileWrite (256 * b.tileLine) bs))) (0, s)

/-- A logical core moves from one physical core to another: the position, a part store loaded from the image, the SCALE_EXP values, and the
backed data; the rest of the new core is zero (R463) (DEDUCED, log 80). -/
def State.moveCore (s : State) (k old new : Nat) (after : BitVec 2) : Nat × State :=
  let r := s.storedRole old
  let x := s.core old
  let rel := (s.co k).rect.elim (r.lrow, r.lcol) (fun c => (r.lrow - c.row0, r.lcol - c.col0))
  let im := (s.co k).seq.image
  let part := (im.bind (fun i => i.parts.find? (fun h => decide (h.lrow = rel.1) && decide (h.lcol = rel.2))))
  let s := (s.setRole new r).setRole old { role := after, lrow := 0x1F, lcol := 0x1F }
  let s := s.modCore new (fun c =>
    let fresh := match part with
      | none => c.loaded { lrow := 0, lcol := 0, entry := 0, addr := 0, bundles := 0 } [] (clearSlots x.rmon)
      | some h => c.loaded h (s.partOf {} h) (clearSlots x.rmon)
    { fresh with gated := x.gated, ended := x.ended, cycle := x.cycle, lag := x.lag, faultCommits := [] })
  let s := s.modCore old (fun c => { c with gated := true, ended := true })
  im.elim (0, s) (fun i => s.reload i rel.1 rel.2 new)

/-- A failed core is replaced: by the spare of its die row, or with its whole row by a spare row. Answers the new core and the lines
reloaded; none where no spare exists (R463) (DEDUCED, log 80). -/
def State.replaceCore (s : State) (k p : Nat) : Option (Nat × Nat × State) :=
  match s.rowSpare p with
  | some q => let r := s.moveCore k p q 2; some (q, r.1, r.2)
  | none =>
    match s.spareRow p with
    | none => none
    | some qs =>
      let ps := (rowOfCore p).filter (fun c => (s.roleOf c).role = 1)
      let t := (ps.zip qs).foldl (fun (t : Nat × State) x =>
        let r := t.2.moveCore (t.2.coreCo x.1) x.1 x.2 (if x.1 = p then 2 else 0)
        (t.1 + r.1, r.2)) (0, s)
      some (((ps.zip qs).find? (fun x => x.1 = p)).elim p (fun x => x.2), t.1, t.2)

/-! ### Marking and policy (R461, R465) -/

/-- A channel's row as ADDR names it: bank × 32,768 + row (DEDUCED, log 10). -/
def dramSpan (addr : Nat) : Nat × Nat := (addr / 32768, addr % 32768)

/-- The bank of a tile row as ADDR names it: row × 64 + bank (DEDUCED, log 10). -/
def tileBank (addr : Nat) : Nat := addr % 64

/-- The check of RPR_MARK: a tile row, channel or DRAM row that does not exist is a bad argument (R465) (DEDUCED, log 80). -/
def markCheck (s : State) (phys kind addr : Nat) : Option Byte :=
  match kind with
  | 0 => if 850 ≤ phys ∨ (s.roleOf phys).role ≠ 1 then some stBadArg else if s.coreSpare phys then none else some stNoResource
  | 1 =>
    if 850 ≤ phys ∨ (s.roleOf phys).role ≠ 1 ∨ 81920 ≤ addr then some stBadArg
    else if tget 0 (s.core phys).tileSpares (tileBank addr) < 8 then none else some stNoResource
  | 2 => if 384 ≤ phys ∨ 48 ≤ (dramSpan addr).1 then some stBadArg else none
  | _ => some stBadArg

/-- RPR_MARK (R461, R465). -/
def execRprMark (h : Pkt) (phys : BitVec 10) (kind : BitVec 2) (addr : Word) (s : State) : Host.Outcome State Fault Refusal :=
  .next (s.serve h 0x0401#16 [(10, phys.toNat), (2, kind.toNat), (32, addr.toNat)] true .never (fun s _ =>
    match markCheck s phys.toNat kind.toNat addr.toNat with
    | some e => { state := s, status := e }
    | none => { state := s.arm kind.toNat phys.toNat addr.toNat }))

/-- RPR_POLICY (R465). -/
def execRprPolicy (h : Pkt) (threshold : BitVec 8) (window : BitVec 16) (s : State) : Host.Outcome State Fault Refusal :=
  .next (s.serve h 0x0402#16 [(8, threshold.toNat), (16, window.toNat)] true .never (fun s _ =>
    if threshold = 0 ∨ window = 0 then { state := s, status := stBadArg }
    else { state := { s with rpr := { s.rpr with threshold := threshold, window := window } } }))

/-! ### The repair hold (R460, R463) -/

/-- A repair done: recorded in the repair log, disarmed, logged (R460, R463). -/
def State.repaired (s : State) (a : Armed) (new lines : Nat) : State :=
  State.log { s with rpr := { s.rpr with armed := s.rpr.armed.filter (fun x => x ≠ a), log := s.rpr.log ++ [a] } } 0xD 0 1 0 0x0402#16
    [(2, a.kind), (10, a.phys), (10, new), (32, lines)]

/-- No spare, or no room in the repair log: the unit stays armed (R460, R463). -/
def State.unrepaired (s : State) (a : Armed) : State :=
  State.log { s with rpr := { s.rpr with noSpare := true,
                                         armed := s.rpr.armed.map (fun x => if x = a then { x with failed := true } else x) } }
    0xD 0 3 0 0x0403#16 [(2, a.kind), (10, a.phys)]

/-- Backed lines of a core that are reloaded after a tile row repair (R463). -/
def State.reloadCore (s : State) (p : Nat) : Nat × State :=
  let k := s.coreCo p
  let r := s.roleOf p
  let rel := (s.co k).rect.elim (r.lrow, r.lcol) (fun c => (r.lrow - c.row0, r.lcol - c.col0))
  (s.co k).seq.image.elim (0, s) (fun i => s.reload i rel.1 rel.2 p)

/-- One armed unit is repaired (R463). -/
def State.repairUnit (s : State) (a : Armed) : State :=
  if 256 ≤ s.rpr.log.length then s.unrepaired a
  else match a.kind with
    | 0 => match s.replaceCore (s.coreCo a.phys) a.phys with
      | none => s.unrepaired a
      | some (new, lines, t) => t.repaired a new lines
    | 1 =>
      let bank := tileBank a.addr
      if tget 0 (s.core a.phys).tileSpares bank < 8 then
        let s := s.modCore a.phys (fun c => { c with
          tileSpares := tset 0 c.tileSpares bank (tget 0 c.tileSpares bank + 1),
          flips := c.flips.filter (fun w => decide (w.1 / 32 ≠ a.addr)) })
        let r := s.reloadCore a.phys
        r.2.repaired a a.phys r.1
      else s.unrepaired a
    | _ =>
      let here := fun (i : Nat) => decide (chanOf (64 * i) = a.phys) && decide (bankOf (64 * i) * 32768 + rowOf (64 * i) = a.addr)
      State.repaired { s with dramFlips := s.dramFlips.filter (fun x => !here x.1) } a a.phys 0

/-- A repair hold's work is done, and its condition is met (R463). -/
def State.repairDone (s : State) (k : Nat) : State :=
  match (s.co k).seq.hold with
  | none => s
  | some h =>
    if h.kind = 2 ∧ (s.co k).seq.met = false then State.meetHold ((s.armedFor k).foldl (fun s a => s.repairUnit a) s) k h else s

/-- REPAIR_DONE (R463). -/
def execRepairDone (company : Nat) (s : State) : Host.Outcome State Fault Refusal := onCompany company s (fun s => s.repairDone company)

/-! ### The boot phases (R468 to R470, R497) -/

/-- POWER_GOOD (R468, R497): every rail is in regulation and self-test begins. -/
def execPowerGood (s : State) : Host.Outcome State Fault Refusal :=
  .next (if s.boot.powerGood ∨ s.pwr.shutdown ∨ s.boot.band = .lost then s
    else State.tryLink { s with boot := { s.boot with powerGood := true, railsUp := true, powerGoodNs := s.nowNs, phase := 0 } })

/-- The module fails: PHASE 0x4, its torus lasers off, no command fetched but SM_INFO (R469). -/
def State.bootFail (s : State) (unit : BitVec 8) (index : Nat) : State :=
  let s := s.torusDark
  let s := { s with boot := { s.boot with phase := 4, failedUnit := unit }, sm := { s.sm with ready := false } }
  s.log 0xD 0 3 0 0x0010#16 [(8, unit.toNat), (10, index)]

/-- FAILED_UNIT of a repair kind (R491). -/
def failedUnitOf (kind : Nat) : BitVec 8 := if kind = 0 then 1 else if kind = 1 then 2 else 3

/-- Self-test leaves every tile line zero with valid check bits (R38), and has run at OP0 and then OP7 (R469). -/
def State.tested (s : State) : State :=
  { s with cores := s.cores.foldl (fun t x => tset {} t x.1 { x.2 with tile := [], flips := [], cells := [] }) [],
           pwr := { s.pwr with op := 7 } }

/-- SELFTEST_DONE (R468, R469, R470) (DEDUCED, log 81; DESIGN CHOICE, log 89). -/
def State.selftestDone (s : State) (result : BootEnd) : State :=
  if s.boot.powerGood = false ∨ s.boot.phase ≠ 0 then s
  else match result with
    | .failed unit index => s.bootFail unit index
    | .ok found =>
      let s := s.tested
      { s with boot := { s.boot with phase := 1, dramUp := true, found := found } }

def execSelftestDone (result : BootEnd) (s : State) : Host.Outcome State Fault Refusal := .next (s.selftestDone result)

/-- One unit of the repair log or of self-test is given a spare; none where there is no spare (R459, R468) (DEDUCED, log 80). -/
def State.bootRepair (s : State) (kind phys addr : Nat) : Option State :=
  match kind with
  | 0 => if (s.roleOf phys).role = 1 then (s.replaceCore 0 phys).map (fun r => r.2.2) else some s
  | 1 =>
    let bank := tileBank addr
    if tget 0 (s.core phys).tileSpares bank < 8 then
      some (s.modCore phys (fun c => { c with tileSpares := tset 0 c.tileSpares bank (tget 0 c.tileSpares bank + 1) }))
    else none
  | _ => some s

/-- The repairs of phase 0x1 in order: those of the log, then what self-test found (R460, R468). Answers the spares taken, or the unit that
found none. -/
def State.bootRepairs (s : State) : List (Nat × Nat × Nat) → Nat → Nat × Option (Nat × Nat) × State
  | [], n => (n, none, s)
  | (kind, phys, addr) :: rest, n =>
    match s.bootRepair kind phys addr with
    | none => (n, some (kind, phys), s)
    | some t => t.bootRepairs rest (n + 1)

/-- The torus lasers turn on, and a port that sees light trains (R191, R468). -/
def State.torusBright (s : State) : State :=
  (List.range 8).foldl (fun s p =>
    if (s.port p).state = .disabled ∨ s.svc.safe then s
    else
      let s := s.modPort p (fun x => { x with lasers := true })
      if (s.port p).light then s.lightOn p else s) s

/-- REPAIR_APPLICATION_DONE (R460, R468, R469). -/
def State.repairsApplied (s : State) (result : BootEnd) : State :=
  if s.boot.phase ≠ 1 then s
  else match result with
    | .failed unit index => s.bootFail unit index
    | .ok found =>
      let units := s.rpr.log.map (fun a => (a.kind, a.phys, a.addr)) ++ s.boot.found ++ found
      let (n, bad, s) := s.bootRepairs units 0
      let s := { s with boot := { s.boot with sparesUsed := BitVec.ofNat 8 (min 255 n), found := [] } }
      match bad with
      | some (kind, phys) => s.bootFail (failedUnitOf kind) phys
      | none => State.torusBright { s with boot := { s.boot with phase := 2 } }

def execRepairApplicationDone (result : BootEnd) (s : State) : Host.Outcome State Fault Refusal := .next (s.repairsApplied result)

/-- FIRMWARE_READY (R468, R469): the stage manager has booted, or no image boots. -/
def State.firmwareReady (s : State) (imageBoots : Bool) : State :=
  if s.boot.phase ≠ 2 then s
  else if imageBoots then { s with boot := { s.boot with phase := 3 }, sm := { s.sm with ready := true, mode := .running } }
  else s.bootFail 6 0

def execFirmwareReady (imageBoots : Bool) (s : State) : Host.Outcome State Fault Refusal := .next (s.firmwareReady imageBoots)

/-- A module reset (R6, R11, R356, R418, R421, R456, R458, R460): every field at its reset value, but for fused and non-volatile ones, the
grid of the grade (R374), the host's memory, the pins and inputs, and the service side, which does not depend on it (R437) (DESIGN CHOICE, log 2; DEDUCED, log 76). -/
def State.moduleReset (s : State) : State :=
  { pending := s.pending, nowNs := s.nowNs, free := s.free, gradeA768 := s.gradeA768, opticsF2 := s.opticsF2, serial := s.serial,
    grid := if s.gradeA768 then 24 else 25, hostMem := s.hostMem,
    boot := { resetCount := s.boot.resetCount + 1, perst := s.boot.perst, perstReleasedEarly := !s.boot.perst, vinMv := s.boot.vinMv, band := s.boot.band },
    sm := { imageB := s.sm.previous.getD s.sm.imageB, versionA := s.sm.versionA, versionB := s.sm.versionB, minSecurity := s.sm.minSecurity,
            flashA := s.sm.flashA, flashB := s.sm.flashB },
    pwr := { ageing := s.pwr.ageingNext, ageingNext := s.pwr.ageingNext },
    rpr := { log := s.rpr.log },
    svc := { s.svc with removal := false, safe := false } }

/-- MODULE_RESET (R468). -/
def execModuleReset (s : State) : Host.Outcome State Fault Refusal := .next s.moduleReset

/-! ### The 48 V input (R496, R497) -/

/-- The band of an input voltage in mV (R496) (DEDUCED, log 82). -/
def bandOf (mv : Nat) : VinBand :=
  if mv < 38000 ∨ 62000 < mv then .lost else if mv < 40000 ∨ 60000 < mv then .limited else .normal

/-- VIN_BAND_CHANGE (R496): entering a limited band is logged once; after an input loss a return to 40 V or more starts the module again
from module reset. -/
def State.vinChange (s : State) (mv : BitVec 16) : State :=
  let b := bandOf mv.toNat
  let back := decide (s.boot.band = .lost) && !s.boot.powerGood && decide (40000 ≤ mv.toNat) && decide (b ≠ .lost)
  let entered := decide (b = .limited) && decide (s.boot.band ≠ .limited)
  let set := fun (s : State) (b : VinBand) => { s with boot := { s.boot with vinMv := mv, band := b } }
  if back then (set s b).moduleReset
  else if decide (s.boot.band = .lost) && !s.boot.powerGood then set s .lost
  else
    let s := set s b
    if entered then s.log 0xC 0 1 0 0x0307#16 [(16, mv.toNat)] else s

def execVinBandChange (millivolts : BitVec 16) (s : State) : Host.Outcome State Fault Refusal := .next (s.vinChange millivolts)

/-- PWR_INPUT_LOSS (R496, R497): beyond 100 µs out of range the rails and the lasers fall, PWR_OK is asserted, the host sees a link-down, and
the fatal record is written (DEDUCED, log 81). -/
def State.inputLoss (s : State) (mv : BitVec 16) (us : Nat) : State :=
  if bandOf mv.toNat ≠ .lost ∨ us ≤ 100 then s
  else
    let s := s.log 0xC 0 3 0 0x0308#16 [(16, mv.toNat), (32, us)]
    let s := s.railsFall
    { s with boot := { s.boot with vinMv := mv, band := .lost, powerGood := false, pcieUp := false }, sm := { s.sm with ready := false } }

def execPwrInputLoss (millivolts : BitVec 16) (microseconds : Nat) (s : State) : Host.Outcome State Fault Refusal :=
  .next (s.inputLoss millivolts microseconds)

/-! ### Warm retest (R488) -/

/-- A warm understudy has retested the arrays and tile memory of one die, and perhaps found a bad core (R488) (DEDUCED, log 80). -/
def State.retest (s : State) (dieE : Bool) (failed : Option Nat) : State :=
  if s.isWarm = false then s
  else
    let onDie := fun (p : Nat) => decide (p / 425 = b2n dieE)
    let s := { s with cores := s.cores.foldl (fun t x => if onDie x.1 then tset {} t x.1 { x.2 with tile := [], flips := [], cells := [] } else t) s.cores }
    match failed with
    | none => s
    | some p =>
      if onDie p = false ∨ (s.roleOf p).role ≠ 1 then s
      else if 256 ≤ s.rpr.log.length then s.bootFail 1 p
      else match s.replaceCore (s.coreCo p) p with
        | none => s.bootFail 1 p
        | some (new, lines, t) => t.repaired { kind := 0, phys := p, addr := 0 } new lines

/-- UNDERSTUDY_RETEST (R488). -/
def execUnderstudyRetest (dieE : Bool) (failed : Option Nat) (s : State) : Host.Outcome State Fault Refusal := .next (s.retest dieE failed)

end Sys2Proof.Machine
end

