-- ==== Sys2Proof/Machine/VectorSlot.lean ====
section
/-!
DEFINITION. The vector slot's commands (R134 to R138).
-/

namespace Sys2Proof.Machine

/-- VADD: VA + VB (R99, R135). -/
def execVadd (core cycle : Nat) (slot : DWord) (s : State) : Host.Outcome State Fault Refusal :=
  slotOutcome s core cycle 2 slot (fun _ c w => c.issueVadd w)

/-- VSUB: VA − VB (R99, R135). -/
def execVsub (core cycle : Nat) (slot : DWord) (s : State) : Host.Outcome State Fault Refusal :=
  slotOutcome s core cycle 2 slot (fun _ c w => c.issueVsub w)

/-- VMUL: VA × VB (R99, R135). -/
def execVmul (core cycle : Nat) (slot : DWord) (s : State) : Host.Outcome State Fault Refusal :=
  slotOutcome s core cycle 2 slot (fun _ c w => c.issueVmul w)

/-- VFMA: VA × VB + VC with one rounding (R99, R135). -/
def execVfma (core cycle : Nat) (slot : DWord) (s : State) : Host.Outcome State Fault Refusal :=
  slotOutcome s core cycle 2 slot (fun _ c w => c.issueVfma w)

/-- VMAX (R99). -/
def execVmax (core cycle : Nat) (slot : DWord) (s : State) : Host.Outcome State Fault Refusal :=
  slotOutcome s core cycle 2 slot (fun _ c w => c.issueVmax w)

/-- VMIN (R99). -/
def execVmin (core cycle : Nat) (slot : DWord) (s : State) : Host.Outcome State Fault Refusal :=
  slotOutcome s core cycle 2 slot (fun _ c w => c.issueVmin w)

/-- VABS of VA (R135). -/
def execVabs (core cycle : Nat) (slot : DWord) (s : State) : Host.Outcome State Fault Refusal :=
  slotOutcome s core cycle 2 slot (fun _ c w => c.issueVabs w)

/-- VNEG of VA (R135). -/
def execVneg (core cycle : Nat) (slot : DWord) (s : State) : Host.Outcome State Fault Refusal :=
  slotOutcome s core cycle 2 slot (fun _ c w => c.issueVneg w)

/-- VCMP: 1.0 where the condition FN holds, +0.0 elsewhere; other codes are reserved (R134, R135). -/
def execVcmp (core cycle : Nat) (slot : DWord) (s : State) : Host.Outcome State Fault Refusal :=
  slotOutcome s core cycle 2 slot (fun _ c w => c.issueVcmp w)

/-- VSEL: VA where VC is nonzero, VB elsewhere; the chosen bits pass unchanged (R135, log 15). -/
def execVsel (core cycle : Nat) (slot : DWord) (s : State) : Host.Outcome State Fault Refusal :=
  slotOutcome s core cycle 2 slot (fun _ c w => c.issueVsel w)

/-- VBCAST: every element becomes VA[ELEM] (R135, log 15). -/
def execVbcast (core cycle : Nat) (slot : DWord) (s : State) : Host.Outcome State Fault Refusal :=
  slotOutcome s core cycle 2 slot (fun _ c w => c.issueVbcast w)

/-- VFN on a register (R103 to R107, R135). -/
def execVfnRegister (core cycle : Nat) (slot : DWord) (s : State) : Host.Outcome State Fault Refusal :=
  slotOutcome s core cycle 2 slot (fun _ c w => c.vecFn w)

/-- VAGEN.DESC (R113, R135). -/
def execVagenDesc (core cycle : Nat) (slot : DWord) (s : State) : Host.Outcome State Fault Refusal :=
  slotOutcome s core cycle 2 slot (fun _ c w => c.vecDesc w)

/-- VWIDEN (R73, R135). -/
def execVwiden (core cycle : Nat) (slot : DWord) (s : State) : Host.Outcome State Fault Refusal :=
  slotOutcome s core cycle 2 slot (fun x c w => Core.rowWiden x c w)

/-- VCAST through cast descriptor AUX (R74 to R81, R138). -/
def execVcast (core cycle : Nat) (slot : DWord) (s : State) : Host.Outcome State Fault Refusal :=
  slotOutcome s core cycle 2 slot (fun x c w => Core.rowCast x c w)

/-- VROWSTAT into register AUX (R101, R102). -/
def execVrowstat (core cycle : Nat) (slot : DWord) (s : State) : Host.Outcome State Fault Refusal :=
  slotOutcome s core cycle 2 slot (fun x c w => Core.rowStat x c w)

/-- VFN on a row (R103 to R107, R135). -/
def execVfnRow (core cycle : Nat) (slot : DWord) (s : State) : Host.Outcome State Fault Refusal :=
  slotOutcome s core cycle 2 slot (fun x c w => Core.rowFn x c w)

/-- VSMMAX, pass one (R108, R136). -/
def execVsmmax (core cycle : Nat) (slot : DWord) (s : State) : Host.Outcome State Fault Refusal :=
  slotOutcome s core cycle 2 slot (fun x c w => Core.rowSmMax x c w)

/-- VSMEXP, pass two (R108, R136, R137). -/
def execVsmexp (core cycle : Nat) (slot : DWord) (s : State) : Host.Outcome State Fault Refusal :=
  slotOutcome s core cycle 2 slot (fun x c w => Core.rowSmExp x c w)

/-- VSMNORM, pass three (R108, R136, R137). -/
def execVsmnorm (core cycle : Nat) (slot : DWord) (s : State) : Host.Outcome State Fault Refusal :=
  slotOutcome s core cycle 2 slot (fun x c w => Core.rowSmNorm x c w)

/-- VAGEN.TABLE (R112, R135). -/
def execVagenTable (core cycle : Nat) (slot : DWord) (s : State) : Host.Outcome State Fault Refusal :=
  slotOutcome s core cycle 2 slot (fun _ c w => c.rowTable w)

end Sys2Proof.Machine
end

