-- ==== Sys2Proof/Machine/Wings.lean ====
section
/-!
DEFINITION. Wings accesses of every master (R17, R21, R150, R153, R157, R515), and the steps of the cipher engine (R346, R357).
-/

namespace Sys2Proof.Machine

/-! ### What a wings master asks for (R17, R378, R390) -/

/-- The company on whose behalf a wings access is made. -/
def State.masterCo (s : State) (m : WingsMaster) : Nat :=
  match m with
  | .bar2 f => (s.funcCo f).getD 0
  | .ring q => s.queueCo q
  | .snapshot k => k
  | .dma q => s.queueCo q
  | .far k => k
  | .firmware => 0

/-- BAR2 reaches DRAM from the end of phase 0x0, over a PCIe link that is up (R470); a virtual function's aperture lies over its own
quarters only (R372) (DEDUCED, log 86). -/
def State.bar2Reach (s : State) (f addr : Nat) : Bool :=
  s.boot.dramUp && s.boot.pcieUp && (decide (f = 0) || (s.boot.vfEnable && (s.funcCo f).elim false (fun k => s.ownsDram k addr 64)))

/-- The oldest bytes that a master has still to write in the access at `u`. -/
def State.outAt (s : State) (m : WingsMaster) (u : Nat) : Option WingsOut :=
  s.wingsOut.find? (fun w => decide (w.master = m) && decide (w.addr / 64 * 64 = u))

/-- The stream of the queue's company has bytes for a whole entry of the queue, or its last ones (R281). -/
def State.streamFor (s : State) (q : Nat) : Bool :=
  let k := s.queueCo q
  (s.co k).pak.streams.head?.elim false (fun x => decide (x.dest = 0) && decide (s.streamQueue k x = some q) && !x.buf.isEmpty &&
    (x.whole || decide (64 ≤ (s.queue q).streamOff + x.buf.length)))

/-- The ledger of the queue's company has bytes for it (R332). -/
def State.ledgerFor (s : State) (q : Nat) : Bool :=
  let k := s.queueCo q
  !(s.co k).far.ledgerBuf.isEmpty && decide ((s.co k).far.table.bind (fun t => s.ledgerQueue k t 1) = some q)

/-- An access of a ring in DRAM: an entry from HEAD on that the module has not read, or the entry at TAIL once there is something to write
(R378, R379, R398). -/
def State.ringWants (s : State) (q u : Nat) : Bool :=
  let x := s.queue q
  let base := x.base.toNat * 4096
  x.enable && x.loc && decide (u % 64 = 0) && decide (base ≤ u) && decide (u < base + 64 * x.depth) &&
    (if x.hostWrites then decide (((u - base) / 64 + x.depth - x.head % x.depth) % x.depth < x.count) && (s.wingsFind (.ring q) u).isNone
     else decide (u = x.entryAddr x.tail) && !x.full &&
      (!x.waiting.isEmpty || (s.co (s.queueCo q)).watchPending.any (fun p => p.1 = q) || s.streamFor q || s.ledgerFor q))

/-- What a master can ask for: BAR2 any access that it reaches, the module's own masters what they have to do next, whose bytes are their own
(R17) (DESIGN CHOICE, log 114). -/
def State.wingsWants (s : State) (r : WingsReq) : Bool :=
  match r.master with
  | .bar2 f => s.bar2Reach f r.addr
  | .ring q => r.data.isNone && s.ringWants q r.addr
  | .snapshot k => r.data.isNone && decide (s.streamWants k = some r.addr)
  | .dma q => r.data.isNone && ((s.outAt (.dma q) r.addr).isSome || decide (s.dmaWants q = some r.addr))
  | .far k => r.data.isNone && ((s.outAt (.far k) r.addr).isSome || s.farWants k r.addr)
  | .firmware => r.data.isNone && decide (s.sm.wants = some r.addr)

/-- A waiting access still has a use. -/
def State.wingsStill (s : State) (r : WingsReq) : Bool :=
  match r.master with
  | .bar2 _ => true
  | .ring q => s.ringWants q r.addr
  | .snapshot _ => true
  | .dma q => (s.queue q).dma.isSome
  | .far k => (s.outAt (.far k) r.addr).isSome || s.farWants k r.addr
  | .firmware => decide (s.sm.wants = some r.addr)

/-- A master notes that it has asked. -/
def State.wingsAsked (s : State) (r : WingsReq) : State :=
  match r.master with
  | .snapshot k => s.modStream k (fun x => { x with asked := x.asked + 1 })
  | .dma q => if (s.outAt (.dma q) r.addr).isSome then s else s.dmaAsked q
  | _ => s

/-! ### The access (R21, R154) -/

/-- 64 bytes read: their error-correcting code, and their master (R21, R154). -/
def State.wingsRead (s : State) (r : WingsReq) : State :=
  let a := r.addr / 64 * 64
  let (d, e, s) := s.eccAccess (s.masterCo r.master) a true (tget 0 s.dramFlips (a / 64))
  let got : WingsGot := { master := r.master, addr := a, data := d, error := e }
  match r.master with
  | .bar2 _ => { s with answers := { req := r, data := d, error := e } :: s.answers }
  | .ring q =>
    let s := { s with wingsGot := s.wingsGot ++ [got] }
    if (s.queue q).typ = 1#3 then s.fetch q else s.farGo (s.queueCo q)
  | .snapshot k => s.streamRead k a d e
  | .dma q => s.dmaRead q d e
  | .far k => State.farGo { s with wingsGot := s.wingsGot ++ [got] } k
  | .firmware => s.imageRead d

/-- A ring in DRAM takes its next entry, or its next stream bytes (R281, R332, R378, R379, R398). -/
def State.ringPut (s : State) (q : Nat) : State :=
  let k := s.queueCo q
  let limit := 64 - (s.queue q).streamOff
  if !(s.queue q).waiting.isEmpty then s.writeWaiting q
  else if (s.co k).watchPending.any (fun p => p.1 = q) then s.writeMessage k q
  else if s.streamFor q then s.streamOut k limit
  else s.ledgerOut k limit

/-- Bytes of a master leave (R17). -/
def State.outGo (s : State) (w : WingsOut) : State :=
  State.dramWrite { s with wingsOut := s.wingsOut.erase w } w.addr w.data

/-- The access itself: 64 bytes written, or read (R21). -/
def State.wingsDo (s : State) (r : WingsReq) : State :=
  match r.master, r.data with
  | .bar2 _, some d => s.dramWrite (r.addr / 64 * 64) (leBytes 64 d.toNat)
  | .ring q, _ => if (s.queue q).hostWrites then s.wingsRead r else s.ringPut q
  | .dma q, _ =>
    match s.outAt (.dma q) r.addr, s.dmaHostBytes q r.addr with
    | some w, _ => s.outGo w
    | none, some bs => (s.dramWrite r.addr bs).dmaWrote q
    | none, none => s.wingsRead r
  | .far k, _ =>
    match s.outAt (.far k) r.addr with
    | some w => (s.outGo w).farGo k
    | none => s.wingsRead r
  | _, _ => s.wingsRead r

/-! ### Slots of the wings (R17, R21, R153) -/

/-- A refresh of the bank falls within the next 32 slots (R151, R153, R157) (DESIGN CHOICE, log 36). -/
def State.refreshSoon (s : State) (c slot bank : Nat) : Bool :=
  if (s.co (s.channelCo c)).seq.advancing then
    (List.range 32).any (fun i => refreshSlot c (slot + i) && decide (refreshBank (slot + i) = bank))
  else
    s.chanHeld c && (List.range 32).any (fun i => decide ((slot + i) % 24 = 23) &&
      decide (((s.chanTo c (slot + i + 1)).lastRefreshed) = some bank))

/-- The oldest wings access of a channel can go ahead in a slot: a wings slot not yet used, its bank precharged and neither under refresh
nor held by a wings access, and no command to that bank within the next 32 slots (R153, R515) (DESIGN CHOICE, log 36). -/
def State.wingsGo (s : State) (c slot : Nat) (w : WingsReq) (stageSoon : Bool) : Bool :=
  let x := s.chanTo c slot
  let bank := bankOf w.addr
  s.slotOpen c slot && s.wingsSlot c slot && decide (tget 0 x.rows bank = 0) && x.refreshed bank slot && !stageSoon && !s.refreshSoon c slot bank

/-- A wings access joins its channel's queue. -/
def State.wingsJoin (s : State) (c : Nat) (r : WingsReq) : State :=
  if (s.chan c).waiting.contains r ∨ s.wingsWants r = false then s
  else (s.wingsAsked r).modChan c (fun x => { x with waiting := x.waiting ++ [r] })

/-- Accesses at the front of a channel's queue that have lost their use leave it. -/
def State.wingsClear (s : State) (c : Nat) : State := s.modChan c (fun x => { x with waiting := x.waiting.dropWhile (fun r => !s.wingsStill r) })

/-- The oldest access of a channel goes ahead where it can: it takes its slot, and its bank for the 32 slots that begin with it (R150, R153,
R515). -/
def State.wingsServe (s : State) (c slot : Nat) (stageSoon : Bool) : State :=
  match (s.chan c).waiting with
  | [] => s
  | w :: ws =>
    if s.wingsGo c slot w stageSoon then
      let x := (s.chanTo c slot).useSlot (s.co (s.channelCo c)).seq.advancing slot
      (s.modChan c (fun _ => { x with waiting := ws, freeAt := tset 0 x.freeAt (bankOf w.addr) (slot + 32) })).wingsDo w
    else s

/-- WINGS_ACCESS (R153) (DESIGN CHOICE, log 20; DEDUCED, log 86; DESIGN CHOICE, log 114). -/
def execWingsAccess (channel slot : Nat) (req : WingsReq) (stageSoon : Bool) (s : State) : Host.Outcome State Fault Refusal :=
  if 384 ≤ channel then .fault (.noSuchUnit channel)
  else if dramBytes ≤ req.addr then .fault (.outsideDram req.addr)
  else if chanOf req.addr = channel then .next (((s.wingsJoin channel req).wingsClear channel).wingsServe channel slot stageSoon)
  else .next s

/-! ### Steps of the cipher engine (R346, R357) -/

/-- Every FAR unit goes on. -/
def State.farAll (s : State) : State := (0 :: companyList).foldl (fun s k => s.farGo k) s

/-- CIPHER_MESSAGE_START (R346). -/
def execCipherMessageStart (channel : Nat) (s : State) : Host.Outcome State Fault Refusal :=
  if channel < 256 then .next (s.messageStart channel).farAll else .fault (.noSuchUnit channel)

/-- CIPHER_SLICE_END (R357). -/
def execCipherSliceEnd (s : State) : Host.Outcome State Fault Refusal := .next s.sliceEnd.farAll

/-- CIPHER_TAG_READY (R357). -/
def execCipherTagReady (channel : Nat) (s : State) : Host.Outcome State Fault Refusal :=
  if channel < 256 then .next (s.tagReady channel).farAll else .fault (.noSuchUnit channel)

end Sys2Proof.Machine
end

