-- ==== Sys2Proof/Machine/Dispatch.lean ====
section
/-!
DEFINITION. What each command does: one arm per constructor of `Instr`, in the order of spec/opcode_table.json.
-/

namespace Sys2Proof.Machine

/-- The effect of one command on everything but the queue. -/
def exec (i : Instr) (s : State) : Host.Outcome State Fault Refusal :=
  match i with
  | .scriptLoad h addr length => Sys2Proof.Machine.execScriptLoad h addr length s
  | .scriptStart h epoch startStep startAttempt => Sys2Proof.Machine.execScriptStart h epoch startStep startAttempt s
  | .scriptStop h immediate => Sys2Proof.Machine.execScriptStop h immediate s
  | .rmonSetScale h unit index slot scaleExp => Sys2Proof.Machine.execRmonSetScale h unit index slot scaleExp s
  | .torRepoint h port serial coord timeoutMs => Sys2Proof.Machine.execTorRepoint h port serial coord timeoutMs s
  | .repointTimeout port => Sys2Proof.Machine.execRepointTimeout port s
  | .torLaneSwap h port lane => Sys2Proof.Machine.execTorLaneSwap h port lane s
  | .torPortDisable h port disable => Sys2Proof.Machine.execTorPortDisable h port disable s
  | .colReshard h planAddr planBytes phaseEpochs ctrIndex ctrGen => Sys2Proof.Machine.execColReshard h planAddr planBytes phaseEpochs ctrIndex ctrGen s
  | .updSetConst h program index value => Sys2Proof.Machine.execUpdSetConst h program index value s
  | .pakSnapSet h enable every listAddr dest queue queueGen cipher pack width => Sys2Proof.Machine.execPakSnapSet h enable every listAddr dest queue queueGen cipher pack width s
  | .rprAdopt h island coord failedSerial => Sys2Proof.Machine.execRprAdopt h island coord failedSerial s
  | .rprRestoreSend h company port source bank listAddr => Sys2Proof.Machine.execRprRestoreSend h company port source bank listAddr s
  | .rprRestoreRecv h company port target bank listAddr timeoutMs => Sys2Proof.Machine.execRprRestoreRecv h company port target bank listAddr timeoutMs s
  | .restoreComplete port outcome => Sys2Proof.Machine.execRestoreComplete port outcome s
  | .restoreTimeout port => Sys2Proof.Machine.execRestoreTimeout port s
  | .rprRollForward h company tailAddr => Sys2Proof.Machine.execRprRollForward h company tailAddr s
  | .farRun h tableAddr tableBytes enable => Sys2Proof.Machine.execFarRun h tableAddr tableBytes enable s
  | .farAnchorExport h company queue queueGen listAddr => Sys2Proof.Machine.execFarAnchorExport h company queue queueGen listAddr s
  | .farJoin h company round => Sys2Proof.Machine.execFarJoin h company round s
  | .farPortSet h port address snapPeer snapUdp => Sys2Proof.Machine.execFarPortSet h port address snapPeer snapUdp s
  | .cipKeyUnwrap h slot blobAddr => Sys2Proof.Machine.execCipKeyUnwrap h slot blobAddr s
  | .cipKeyClear h slot => Sys2Proof.Machine.execCipKeyClear h slot s
  | .cipChanSet h channel unbind slot nonce fixed => Sys2Proof.Machine.execCipChanSet h channel unbind slot nonce fixed s
  | .txnBegin h mode timeoutS => Sys2Proof.Machine.execTxnBegin h mode timeoutS s
  | .txnCommit h step ctrIndex ctrGen => Sys2Proof.Machine.execTxnCommit h step ctrIndex ctrGen s
  | .txnAbort h => Sys2Proof.Machine.execTxnAbort h s
  | .txnTimeout company => Sys2Proof.Machine.execTxnTimeout company s
  | .coCreate h company function => Sys2Proof.Machine.execCoCreate h company function s
  | .coDestroy h company => Sys2Proof.Machine.execCoDestroy h company s
  | .coGrant h company kind first count extra => Sys2Proof.Machine.execCoGrant h company kind first count extra s
  | .coReturn h company kind port => Sys2Proof.Machine.execCoReturn h company kind port s
  | .coRelease h master id => Sys2Proof.Machine.execCoRelease h master id s
  | .smInfo h => Sys2Proof.Machine.execSmInfo h s
  | .smTelemetry h queue queueGen periodMs => Sys2Proof.Machine.execSmTelemetry h queue queueGen periodMs s
  | .smFwStage h imageAddr length => Sys2Proof.Machine.execSmFwStage h imageAddr length s
  | .smFwSwitch h => Sys2Proof.Machine.execSmFwSwitch h s
  | .smFwFallback => Sys2Proof.Machine.execSmFwFallback s
  | .smReset h => Sys2Proof.Machine.execSmReset h s
  | .smLockstepMismatch pairF => Sys2Proof.Machine.execSmLockstepMismatch pairF s
  | .smWatchdogExpiry pairF => Sys2Proof.Machine.execSmWatchdogExpiry pairF s
  | .smRestartReady => Sys2Proof.Machine.execSmRestartReady s
  | .smRemoval h grant => Sys2Proof.Machine.execSmRemoval h grant s
  | .errInject h source cls code company => Sys2Proof.Machine.execErrInject h source cls code company s
  | .pwrCapSet h capW => Sys2Proof.Machine.execPwrCapSet h capW s
  | .pwrFixedOp h op => Sys2Proof.Machine.execPwrFixedOp h op s
  | .pwrNvSet h ageing => Sys2Proof.Machine.execPwrNvSet h ageing s
  | .rprMark h phys kind addr => Sys2Proof.Machine.execRprMark h phys kind addr s
  | .rprPolicy h threshold window => Sys2Proof.Machine.execRprPolicy h threshold window s
  | .islCallSheet h sheetAddr sheetBytes => Sys2Proof.Machine.execIslCallSheet h sheetAddr sheetBytes s
  | .islOverride h port set => Sys2Proof.Machine.execIslOverride h port set s
  | .islRoot h => Sys2Proof.Machine.execIslRoot h s
  | .doorbell function n value host => Sys2Proof.Machine.execDoorbell function n value host s
  | .queueEnable function n value => Sys2Proof.Machine.execQueueEnable function n value s
  | .queueDisable function n value => Sys2Proof.Machine.execQueueDisable function n value s
  | .synCtrAdd function n value => Sys2Proof.Machine.execSynCtrAdd function n value s
  | .synCtrReset function n value => Sys2Proof.Machine.execSynCtrReset function n value s
  | .watchArm function n value => Sys2Proof.Machine.execWatchArm function n value s
  | .watchDisarm function n value => Sys2Proof.Machine.execWatchDisarm function n value s
  | .cipKeyWrite function value => Sys2Proof.Machine.execCipKeyWrite function value s
  | .sealedModeEnter function => Sys2Proof.Machine.execSealedModeEnter function s
  | .openModeLock function => Sys2Proof.Machine.execOpenModeLock function s
  | .errFatalOccClear function value => Sys2Proof.Machine.execErrFatalOccClear function value s
  | .coreResidueRowsRead function window => Sys2Proof.Machine.execCoreResidueRowsRead function window s
  | .errDropsRead function => Sys2Proof.Machine.execErrDropsRead function s
  | .registerWrite function offset wide value => Sys2Proof.Machine.execRegisterWrite function offset wide value s
  | .functionLevelReset function => Sys2Proof.Machine.execFunctionLevelReset function s
  | .vfEnable => Sys2Proof.Machine.execVfEnable s
  | .perstAssert => Sys2Proof.Machine.execPerstAssert s
  | .perstRelease => Sys2Proof.Machine.execPerstRelease s
  | .dmaHostToDram queue descriptor => Sys2Proof.Machine.execDmaHostToDram queue descriptor s
  | .dmaDramToHost queue descriptor => Sys2Proof.Machine.execDmaDramToHost queue descriptor s
  | .dmaComplete queue => Sys2Proof.Machine.execDmaComplete queue s
  | .hostCplTimeout function slot => Sys2Proof.Machine.execHostCplTimeout function slot s
  | .hostLateCpl function slot => Sys2Proof.Machine.execHostLateCpl function slot s
  | .readSlotQuarantineEnd slot => Sys2Proof.Machine.execReadSlotQuarantineEnd slot s
  | .streamProgress queue ended => Sys2Proof.Machine.execStreamProgress queue ended s
  | .syncIncrementApply => Sys2Proof.Machine.execSyncIncrementApply s
  | .run core cycle slot => Sys2Proof.Machine.execRun core cycle slot s
  | .drain core cycle slot => Sys2Proof.Machine.execDrain core cycle slot s
  | .vadd core cycle slot => Sys2Proof.Machine.execVadd core cycle slot s
  | .vsub core cycle slot => Sys2Proof.Machine.execVsub core cycle slot s
  | .vmul core cycle slot => Sys2Proof.Machine.execVmul core cycle slot s
  | .vfma core cycle slot => Sys2Proof.Machine.execVfma core cycle slot s
  | .vmax core cycle slot => Sys2Proof.Machine.execVmax core cycle slot s
  | .vmin core cycle slot => Sys2Proof.Machine.execVmin core cycle slot s
  | .vabs core cycle slot => Sys2Proof.Machine.execVabs core cycle slot s
  | .vneg core cycle slot => Sys2Proof.Machine.execVneg core cycle slot s
  | .vcmp core cycle slot => Sys2Proof.Machine.execVcmp core cycle slot s
  | .vsel core cycle slot => Sys2Proof.Machine.execVsel core cycle slot s
  | .vbcast core cycle slot => Sys2Proof.Machine.execVbcast core cycle slot s
  | .vfnRegister core cycle slot => Sys2Proof.Machine.execVfnRegister core cycle slot s
  | .vagenDesc core cycle slot => Sys2Proof.Machine.execVagenDesc core cycle slot s
  | .vwiden core cycle slot => Sys2Proof.Machine.execVwiden core cycle slot s
  | .vcast core cycle slot => Sys2Proof.Machine.execVcast core cycle slot s
  | .vrowstat core cycle slot => Sys2Proof.Machine.execVrowstat core cycle slot s
  | .vfnRow core cycle slot => Sys2Proof.Machine.execVfnRow core cycle slot s
  | .vsmmax core cycle slot => Sys2Proof.Machine.execVsmmax core cycle slot s
  | .vsmexp core cycle slot => Sys2Proof.Machine.execVsmexp core cycle slot s
  | .vsmnorm core cycle slot => Sys2Proof.Machine.execVsmnorm core cycle slot s
  | .vagenTable core cycle slot => Sys2Proof.Machine.execVagenTable core cycle slot s
  | .vld core cycle slot => Sys2Proof.Machine.execVld core cycle slot s
  | .vst core cycle slot => Sys2Proof.Machine.execVst core cycle slot s
  | .send core cycle slot => Sys2Proof.Machine.execSend core cycle slot s
  | .loop core cycle slot => Sys2Proof.Machine.execLoop core cycle slot s
  | .msetld core cycle slot => Sys2Proof.Machine.execMsetld core cycle slot s
  | .cdld core cycle slot => Sys2Proof.Machine.execCdld core cycle slot s
  | .sinc core cycle slot => Sys2Proof.Machine.execSinc core cycle slot s
  | .partend core cycle slot => Sys2Proof.Machine.execPartend core cycle slot s
  | .nop core cycle position slot => Sys2Proof.Machine.execNop core cycle position slot s
  | .stepBoundary company => Sys2Proof.Machine.execStepBoundary company s
  | .epochBoundary company => Sys2Proof.Machine.execEpochBoundary company s
  | .barrierResume company waitNs => Sys2Proof.Machine.execBarrierResume company waitNs s
  | .markerSend company port => Sys2Proof.Machine.execMarkerSend company port s
  | .markerReceive company port epoch => Sys2Proof.Machine.execMarkerReceive company port epoch s
  | .holdEnter company => Sys2Proof.Machine.execHoldEnter company s
  | .releaseReceive company port entry step => Sys2Proof.Machine.execReleaseReceive company port entry step s
  | .holdResume company heldNs guardNs => Sys2Proof.Machine.execHoldResume company heldNs guardNs s
  | .holdLong company => Sys2Proof.Machine.execHoldLong company s
  | .curtainPost company => Sys2Proof.Machine.execCurtainPost company s
  | .rmonReportLanded company => Sys2Proof.Machine.execRmonReportLanded company s
  | .recastPhaseStart company => Sys2Proof.Machine.execRecastPhaseStart company s
  | .reshardPhaseEnd company => Sys2Proof.Machine.execReshardPhaseEnd company s
  | .dramStageAccess channel slot cmd => Sys2Proof.Machine.execDramStageAccess channel slot cmd s
  | .dramRefresh channel slot => Sys2Proof.Machine.execDramRefresh channel slot s
  | .extraRefresh channel elapsed => Sys2Proof.Machine.execExtraRefresh channel elapsed s
  | .wingsAccess channel slot req stageSoon => Sys2Proof.Machine.execWingsAccess channel slot req stageSoon s
  | .flyCommandStart engine => Sys2Proof.Machine.execFlyCommandStart engine s
  | .meshLineArrival core cycle => Sys2Proof.Machine.execMeshLineArrival core cycle s
  | .collectiveChunkStart company plan => Sys2Proof.Machine.execCollectiveChunkStart company plan s
  | .torusLineSend company port cycle => Sys2Proof.Machine.execTorusLineSend company port cycle s
  | .torusLineReceive company port plan seq sendCycle payload crc place => Sys2Proof.Machine.execTorusLineReceive company port plan seq sendCycle payload crc place s
  | .torusLineHandover company port cycle => Sys2Proof.Machine.execTorusLineHandover company port cycle s
  | .curtainTailDelivered company => Sys2Proof.Machine.execCurtainTailDelivered company s
  | .collectiveChunkDone company plan => Sys2Proof.Machine.execCollectiveChunkDone company plan s
  | .updShardStart engine => Sys2Proof.Machine.execUpdShardStart engine s
  | .updGradientLine engine => Sys2Proof.Machine.execUpdGradientLine engine s
  | .updLineEnter engine => Sys2Proof.Machine.execUpdLineEnter engine s
  | .updElementExit engine => Sys2Proof.Machine.execUpdElementExit engine s
  | .formPass company => Sys2Proof.Machine.execFormPass company s
  | .formDone company => Sys2Proof.Machine.execFormDone company s
  | .sealComplete company => Sys2Proof.Machine.execSealComplete company s
  | .cfxParcelReceive farPort company datagram => Sys2Proof.Machine.execCfxParcelReceive farPort company datagram s
  | .cfxAckReceive farPort company datagram => Sys2Proof.Machine.execCfxAckReceive farPort company datagram s
  | .cfxDecideReceive farPort company datagram => Sys2Proof.Machine.execCfxDecideReceive farPort company datagram s
  | .cfxSnapReceive farPort company datagram => Sys2Proof.Machine.execCfxSnapReceive farPort company datagram s
  | .cfxAckTimer company => Sys2Proof.Machine.execCfxAckTimer company s
  | .cfxRetransmit company site segment => Sys2Proof.Machine.execCfxRetransmit company site segment s
  | .cfxHardExpiry company => Sys2Proof.Machine.execCfxHardExpiry company s
  | .farDecision company => Sys2Proof.Machine.execFarDecision company s
  | .gatewayDecided company => Sys2Proof.Machine.execGatewayDecided company s
  | .gatewayUndecided company => Sys2Proof.Machine.execGatewayUndecided company s
  | .openComplete company => Sys2Proof.Machine.execOpenComplete company s
  | .applyPass company => Sys2Proof.Machine.execApplyPass company s
  | .snapshotBlock company => Sys2Proof.Machine.execSnapshotBlock company s
  | .snapshotReadsDone company => Sys2Proof.Machine.execSnapshotReadsDone company s
  | .snapshotStreamEnd company => Sys2Proof.Machine.execSnapshotStreamEnd company s
  | .cipherMessageStart channel => Sys2Proof.Machine.execCipherMessageStart channel s
  | .cipherSliceEnd => Sys2Proof.Machine.execCipherSliceEnd s
  | .cipherTagReady channel => Sys2Proof.Machine.execCipherTagReady channel s
  | .portLightDetected port => Sys2Proof.Machine.execPortLightDetected port s
  | .portLightLoss port => Sys2Proof.Machine.execPortLightLoss port s
  | .portTrainingDone port ok => Sys2Proof.Machine.execPortTrainingDone port ok s
  | .identityReceive port serial island coord nport => Sys2Proof.Machine.execIdentityReceive port serial island coord nport s
  | .identitySend port => Sys2Proof.Machine.execIdentitySend port s
  | .latencyMeasured port exchanges => Sys2Proof.Machine.execLatencyMeasured port exchanges s
  | .lockFrameReceive port state hops childBit => Sys2Proof.Machine.execLockFrameReceive port state hops childBit s
  | .relockDone => Sys2Proof.Machine.execRelockDone s
  | .lockHoldover => Sys2Proof.Machine.execLockHoldover s
  | .houseFrameSend period => Sys2Proof.Machine.execHouseFrameSend period s
  | .houseFrameReceive port epoch minimum => Sys2Proof.Machine.execHouseFrameReceive port epoch minimum s
  | .houseEpochBoundary => Sys2Proof.Machine.execHouseEpochBoundary s
  | .laneSignalLoss port lane => Sys2Proof.Machine.execLaneSignalLoss port lane s
  | .laneRateCheck port lane corrected codewords => Sys2Proof.Machine.execLaneRateCheck port lane corrected codewords s
  | .laneSwapStart port => Sys2Proof.Machine.execLaneSwapStart port s
  | .aprEnter port => Sys2Proof.Machine.execAprEnter port s
  | .aprPulse port => Sys2Proof.Machine.execAprPulse port s
  | .censusRoundStart => Sys2Proof.Machine.execCensusRoundStart s
  | .censusStartReceive port round revision => Sys2Proof.Machine.execCensusStartReceive port round revision s
  | .censusSumReceive port members ready disagree => Sys2Proof.Machine.execCensusSumReceive port members ready disagree s
  | .censusResultReceive port revision ready disagree => Sys2Proof.Machine.execCensusResultReceive port revision ready disagree s
  | .censusRoundAbandon => Sys2Proof.Machine.execCensusRoundAbandon s
  | .errorRecord => Sys2Proof.Machine.execErrorRecord s
  | .errorGroupClose => Sys2Proof.Machine.execErrorGroupClose s
  | .telemetryTick company meanMw => Sys2Proof.Machine.execTelemetryTick company meanMw s
  | .decimationUpdate busy serviceNs => Sys2Proof.Machine.execDecimationUpdate busy serviceNs s
  | .powerEstimateTick rawW energy => Sys2Proof.Machine.execPowerEstimateTick rawW energy s
  | .powerMeasureTick inputW railW rawMeanW => Sys2Proof.Machine.execPowerMeasureTick inputW railW rawMeanW s
  | .thermalSample die sensor dram stack => Sys2Proof.Machine.execThermalSample die sensor dram stack s
  | .thermalCeilingTick above => Sys2Proof.Machine.execThermalCeilingTick above s
  | .droopEvent cycles => Sys2Proof.Machine.execDroopEvent cycles s
  | .railTrimTick slackAbove => Sys2Proof.Machine.execRailTrimTick slackAbove s
  | .vinBandChange millivolts => Sys2Proof.Machine.execVinBandChange millivolts s
  | .pwrInputLoss millivolts microseconds => Sys2Proof.Machine.execPwrInputLoss millivolts microseconds s
  | .powerGood => Sys2Proof.Machine.execPowerGood s
  | .selftestDone result => Sys2Proof.Machine.execSelftestDone result s
  | .repairApplicationDone result => Sys2Proof.Machine.execRepairApplicationDone result s
  | .firmwareReady imageBoots => Sys2Proof.Machine.execFirmwareReady imageBoots s
  | .moduleReset => Sys2Proof.Machine.execModuleReset s
  | .repairDone company => Sys2Proof.Machine.execRepairDone company s
  | .understudyRetest dieE failed => Sys2Proof.Machine.execUnderstudyRetest dieE failed s
  | .attnShortPress => Sys2Proof.Machine.execAttnShortPress s
  | .attnLongPress => Sys2Proof.Machine.execAttnLongPress s
  | .mailboxFrame kind payload crc => Sys2Proof.Machine.execMailboxFrame kind payload crc s
  | .prompterHelp => Sys2Proof.Machine.execPrompterHelp s
  | .prompterId => Sys2Proof.Machine.execPrompterId s
  | .prompterStatus => Sys2Proof.Machine.execPrompterStatus s
  | .prompterLog n => Sys2Proof.Machine.execPrompterLog n s
  | .prompterFatal => Sys2Proof.Machine.execPrompterFatal s
  | .prompterPorts => Sys2Proof.Machine.execPrompterPorts s
  | .prompterLocate on => Sys2Proof.Machine.execPrompterLocate on s
  | .prompterBaud n => Sys2Proof.Machine.execPrompterBaud n s
  | .prompterSmreset => Sys2Proof.Machine.execPrompterSmreset s
  | .prompterPeek offset => Sys2Proof.Machine.execPrompterPeek offset s
  | .smbusStatusRead => Sys2Proof.Machine.execSmbusStatusRead s
  | .smbusTempRead => Sys2Proof.Machine.execSmbusTempRead s
  | .smbusPowerRead => Sys2Proof.Machine.execSmbusPowerRead s
  | .smbusSerialRead => Sys2Proof.Machine.execSmbusSerialRead s
  | .smbusLocateWrite value => Sys2Proof.Machine.execSmbusLocateWrite value s
  | .smbusAlertResponse => Sys2Proof.Machine.execSmbusAlertResponse s
  | .smbusBusTimeout => Sys2Proof.Machine.execSmbusBusTimeout s
  | .commandBadOpcode h opcode => Sys2Proof.Machine.execCommandBadOpcode h opcode s
  | .farPortDown port => Sys2Proof.Machine.execFarPortDown port s
  | .farPortLinkUp port => Sys2Proof.Machine.execFarPortLinkUp port s
  | .probeReceive port turnaround => Sys2Proof.Machine.execProbeReceive port turnaround s
  | .swapHandshakeReceive port lane => Sys2Proof.Machine.execSwapHandshakeReceive port lane s
  | .currentLimitTrip => Sys2Proof.Machine.execCurrentLimitTrip s
  | .fwStageComplete => Sys2Proof.Machine.execFwStageComplete s
  | .serviceSideReset => Sys2Proof.Machine.execServiceSideReset s
  | .svc3v3Loss => Sys2Proof.Machine.execSvc3v3Loss s
  | .jtagAccess tck tms tdi trstN => Sys2Proof.Machine.execJtagAccess tck tms tdi trstN s

end Sys2Proof.Machine
end

