-- ==== Sys2Proof/Safety.lean ====
section
/-!
DEFINITION. The terms in which statements about the block are written: memories in their canonical form, a command that is served
in full, a bundle slot that issues, and the ring bytes that an access of one kind may write.
-/

namespace Sys2Proof.Machine

/-- Host memory and DRAM are in canonical form. -/
def State.memoriesWf (s : State) : Prop := Memory.wf s.dram = true ∧ Memory.wf s.hostMem = true

/-- What every step keeps (R418, R425, R427): canonical memories, the completion journal within its entries, the error log's next entry
below the fatal slots, its pinned count and its input buffer within their regions. -/
def State.Inv (s : State) : Prop :=
  s.memoriesWf ∧ s.sm.journal.length ≤ 1024 ∧ s.err.next < 4032 ∧ s.err.pinned ≤ 1024 ∧ s.err.buffer.length ≤ 256

/-- What fuses fix: the grade, the far-port optics and the serial number (R2, R6). -/
def State.fuses (s : State) : Bool × Bool × DWord := (s.gradeA768, s.opticsF2, s.serial)

/-- How a host command comes in (R383, R384, R388, R409): its header, opcode and payload fields (width and value, packed from bit 0), whether
only the house issues it, and into which transactions it may be staged. -/
def Instr.hostForm : Instr → Option (Pkt × BitVec 16 × List (Nat × Nat) × Bool × Staging)
  | .scriptLoad h addr length => some (h, 0x0B01#16, [(48, addr.toNat), (64, length.toNat)], false, .never)
  | .scriptStart h epoch startStep startAttempt => some (h, 0x0B02#16, [(64, epoch.toNat), (48, startStep.toNat), (16, startAttempt.toNat)], false, .never)
  | .scriptStop h immediate => some (h, 0x0B03#16, [(1, b2n immediate)], false, .never)
  | .rmonSetScale h unit index slot scaleExp => some (h, 0x0C01#16, [(1, b2n unit), (10, index.toNat), (6, slot.toNat), (8, scaleExp.toNat)], false, .curtain)
  | .torRepoint h port serial coord timeoutMs => some (h, 0x0801#16, [(3, port.toNat), (64, serial.toNat), (32, coord.toNat), (16, timeoutMs.toNat)], true, .never)
  | .torLaneSwap h port lane => some (h, 0x0802#16, [(3, port.toNat), (4, lane.toNat)], true, .never)
  | .torPortDisable h port disable => some (h, 0x0803#16, [(3, port.toNat), (1, b2n disable)], true, .never)
  | .colReshard h planAddr planBytes phaseEpochs ctrIndex ctrGen => some (h, 0x0901#16, [(48, planAddr.toNat), (32, planBytes.toNat), (8, phaseEpochs.toNat), (13, ctrIndex.toNat), (8, ctrGen.toNat)], false, .curtain)
  | .updSetConst h program index value => some (h, 0x0A01#16, [(4, program.toNat), (4, index.toNat), (32, value.toNat)], false, .curtain)
  | .pakSnapSet h enable every listAddr dest queue queueGen cipher pack width => some (h, 0x0601#16, [(1, b2n enable), (16, every.toNat), (48, listAddr.toNat), (2, dest.toNat), (13, queue.toNat), (8, queueGen.toNat), (9, cipher.toNat), (1, b2n pack), (2, width.toNat)], false, .curtain)
  | .rprAdopt h island coord failedSerial => some (h, 0x0481#16, [(32, island.toNat), (32, coord.toNat), (64, failedSerial.toNat)], true, .never)
  | .rprRestoreSend h company port source bank listAddr => some (h, 0x0482#16, [(4, company.toNat), (3, port.toNat), (1, b2n source), (1, b2n bank), (48, listAddr.toNat)], true, .never)
  | .rprRestoreRecv h company port target bank listAddr timeoutMs => some (h, 0x0483#16, [(4, company.toNat), (3, port.toNat), (1, b2n target), (1, b2n bank), (48, listAddr.toNat), (16, timeoutMs.toNat)], true, .never)
  | .rprRollForward h company tailAddr => some (h, 0x0484#16, [(4, company.toNat), (48, tailAddr.toNat)], true, .never)
  | .farRun h tableAddr tableBytes enable => some (h, 0x0701#16, [(48, tableAddr.toNat), (32, tableBytes.toNat), (1, b2n enable)], false, .curtain)
  | .farAnchorExport h company queue queueGen listAddr => some (h, 0x0702#16, [(4, company.toNat), (13, queue.toNat), (8, queueGen.toNat), (48, listAddr.toNat)], true, .never)
  | .farJoin h company round => some (h, 0x0703#16, [(4, company.toNat), (40, round.toNat)], true, .never)
  | .farPortSet h port address snapPeer snapUdp => some (h, 0x0704#16, [(1, b2n port), (128, address.toNat), (128, snapPeer.toNat), (16, snapUdp.toNat)], true, .never)
  | .cipKeyUnwrap h slot blobAddr => some (h, 0x0501#16, [(6, slot.toNat), (48, blobAddr.toNat)], false, .never)
  | .cipKeyClear h slot => some (h, 0x0502#16, [(6, slot.toNat)], false, .never)
  | .cipChanSet h channel unbind slot nonce fixed => some (h, 0x0503#16, [(8, channel.toNat), (1, b2n unbind), (6, slot.toNat), (1, b2n nonce), (32, fixed.toNat)], false, .never)
  | .txnBegin h mode timeoutS => some (h, 0x0001#16, [(1, b2n mode), (10, timeoutS.toNat)], false, .never)
  | .txnCommit h step ctrIndex ctrGen => some (h, 0x0002#16, [(48, step.toNat), (13, ctrIndex.toNat), (8, ctrGen.toNat)], false, .never)
  | .txnAbort h => some (h, 0x0003#16, [], false, .never)
  | .coCreate h company function => some (h, 0x0010#16, [(4, company.toNat), (5, function.toNat)], true, .epoch)
  | .coDestroy h company => some (h, 0x0011#16, [(4, company.toNat)], true, .epoch)
  | .coGrant h company kind first count extra => some (h, 0x0012#16, [(4, company.toNat), (4, kind.toNat), (32, first.toNat), (32, count.toNat), (64, extra.toNat)], true, .epoch)
  | .coReturn h company kind port => some (h, 0x0013#16, [(4, company.toNat), (4, kind.toNat), (3, port.toNat)], true, .epoch)
  | .coRelease h master id => some (h, 0x0014#16, [(2, master.toNat), (16, id.toNat)], true, .never)
  | .smInfo h => some (h, 0x0101#16, [], false, .never)
  | .smTelemetry h queue queueGen periodMs => some (h, 0x0102#16, [(13, queue.toNat), (8, queueGen.toNat), (10, periodMs.toNat)], false, .never)
  | .smFwStage h imageAddr length => some (h, 0x0103#16, [(48, imageAddr.toNat), (32, length.toNat)], true, .never)
  | .smFwSwitch h => some (h, 0x0104#16, [], true, .never)
  | .smReset h => some (h, 0x0105#16, [], true, .never)
  | .smRemoval h grant => some (h, 0x0106#16, [(1, b2n grant)], true, .never)
  | .errInject h source cls code company => some (h, 0x0201#16, [(16, source.toNat), (2, cls.toNat), (16, code.toNat), (4, company.toNat)], true, .never)
  | .pwrCapSet h capW => some (h, 0x0301#16, [(12, capW.toNat)], true, .never)
  | .pwrFixedOp h op => some (h, 0x0302#16, [(3, op.toNat)], true, .never)
  | .pwrNvSet h ageing => some (h, 0x0303#16, [(1, b2n ageing)], true, .never)
  | .rprMark h phys kind addr => some (h, 0x0401#16, [(10, phys.toNat), (2, kind.toNat), (32, addr.toNat)], true, .never)
  | .rprPolicy h threshold window => some (h, 0x0402#16, [(8, threshold.toNat), (16, window.toNat)], true, .never)
  | .islCallSheet h sheetAddr sheetBytes => some (h, 0x0020#16, [(48, sheetAddr.toNat), (32, sheetBytes.toNat)], true, .never)
  | .islOverride h port set => some (h, 0x0021#16, [(3, port.toNat), (1, b2n set)], true, .never)
  | .islRoot h => some (h, 0x0022#16, [], true, .never)
  | _ => none

/-- A host command is served in full: once its queue has fetched, its turn has come, and it passes every check of R384 that precedes its
own (R384, R413). Answers its journal entry and the state in which its body runs. -/
def State.servingAs (s : State) (h : Pkt) (opcode : BitVec 16) (fields : List (Nat × Nat)) (house : Bool) (st : Staging) :
    Option (Journal × State) :=
  ((s.fetch h.queue).turnOf h opcode fields).bind (fun j =>
    let c := (s.fetch h.queue).begin_ j
    if c.precheck j (fieldBits fields) house st = none then some (j, c) else none)

def State.serving (s : State) (i : Instr) : Option (Journal × State) :=
  (Instr.hostForm i).bind (fun f => s.servingAs f.1 f.2.1 f.2.2.1 f.2.2.2.1 f.2.2.2.2)

/-- `t` with the reply to the command of entry `j`; its queue goes on (R385, R386). -/
def State.answered (t : State) (j : Journal) (status : Byte) (result : List Byte) : State :=
  (t.reply j status 0 0 j.txn result).fetch j.pkt.queue

/-- `t` with the command of entry `j` waiting in the journal for its reply (R418). -/
def State.journalled (t : State) (j : Journal) (status : Byte) (result : List Byte) : State :=
  (t.modEntry j (fun y => { y with state := .waiting, status := status, detail := 0, result := result })).fetch j.pkt.queue

/-- `s` with command `i` staged into the open transaction of company `k` (R406). -/
def State.stagedInto (s : State) (k : Nat) (i : Instr) : State :=
  s.modCo k (fun c => { c with txn := { c.txn with opened := c.txn.opened.map (fun o => { o with staged := o.staged ++ [i] }) } })

/-- The state after the slot at `position` of core `p`'s bundle has issued with effect `f` (R129). -/
def State.slotNext (s : State) (p position : Nat) (f : Core → Core) : State := s.onCore p (fun c => (f c.fetched).marked position)

/-- A register form with opcode `op` carries no reserved bit (R134). -/
def registerForm (op : Nat) (w : DWord) : Prop := bits w 63 58 = op ∧ bits w 23 0 = 0

/-- The landings of a register operation: one element result each, `lat` cycles after issue (R134, R143). -/
def elementLandings (c : Core) (w : DWord) (lat : Nat) (bytes : Nat → List Byte) : List Landing :=
  (vecElems w).map (fun e =>
    { cycle := c.cycle + lat, prio := 1, eff := .vreg (bits w 47 43) ((if bit w 57 then 2 else 4) * e) (bytes e) })

/-- Byte `a` of host memory (`loc` clear) or DRAM (`loc` set) lies in the ring of an enabled queue of type `typ` (R378, R379). -/
def State.inRing (s : State) (typ : BitVec 3) (loc : Bool) (a : Nat) : Prop :=
  ∃ q, (s.queue q).enable = true ∧ (s.queue q).typ = typ ∧ (s.queue q).loc = loc ∧
    (s.queue q).base.toNat * 4096 ≤ a ∧ a < (s.queue q).base.toNat * 4096 + 64 * (s.queue q).depth

end Sys2Proof.Machine
end

