-- ==== Sys2Proof/Certificates/Slice0/Obligations.lean ====
section
/-!
DEFINITION. The statements about the block, one `def Obligations.<Name> : Prop` each; OBLIGATIONS.json says which rule each one states.
-/

open Sys2Proof Sys2Proof.Machine

/-- A step runs the command at the front of the queue with the rest of the queue, and idles on an empty queue
(spec/95_what_each_step_holds.md, spec/opcode_table.json). -/
def Obligations.StepRunsFrontCommand : Prop :=
  (∀ (c : Instr) (rest : List Instr) (s : State), step { s with pending := c :: rest } = exec c { s with pending := rest }) ∧
    ∀ s : State, s.pending = [] → step s = .next s

/-- After reset the registers read the values their tables give (R6, R62, R198, R199, R288, R380, R434, R436, R467, R491). -/
def Obligations.ResetRegistersReadAsStated : Prop :=
  let r := State.readReg State.reset 0
  bits (r 0x0000000) 31 16 = 0x1001 ∧ bits (r 0x0000000) 7 0 = 0 ∧ bits (r 0x0000010) 31 28 = 0 ∧ bits (r 0x0000010) 15 0 = 0 ∧
    bits (r 0x0800000) 23 16 = 0xFF ∧ bits (r 0x0800000) 11 8 = 0xF ∧ bits (r 0x0800000) 3 0 = 0 ∧
    r 0x0800008 = 0 ∧ r 0x080000C = 0 ∧ r 0x0300008 = 0x960 ∧ bits (r 0x0300014) 31 16 = 0x4000 ∧ r 0x0400008 = 0x27100002 ∧
    r 0x1000008 = 0x400 ∧ r 0x100000C = 0 ∧ r 0x1000010 = 0 ∧ bits (r 0x0600000) 8 0 = 0x1FF ∧ bits (r 0x2000000) 21 21 = 1 ∧
    r 0x0200018 = 0 ∧ r 0x020001C = 0 ∧ bits (r 0x0100000) 15 8 = 0 ∧ bits (r 0x0B00000) 19 16 = 0

/-- The invariant of the memories, the completion journal and the error log holds at reset (R35, R372, R418, R425, R427). -/
def Obligations.InvariantHoldsAtReset : Prop :=
  State.reset.Inv

/-- Every step keeps the memories canonical, the completion journal within 1,024 entries and the error log's pointers in their regions (R35,
R372, R418, R425, R427). -/
def Obligations.EveryStepKeepsInvariant : Prop :=
  ∀ s t : State, s.Inv → step s = .next t → t.Inv

/-- No command changes the fused identity or the commands still waiting (R2, R6). -/
def Obligations.NoCommandTouchesFusesOrQueue : Prop :=
  (∀ (c : Instr) (s t : State), exec c s = .next t → t.fuses = s.fuses ∧ t.pending = s.pending) ∧
    ∀ (s t : State) (f g : Nat), step s = .next t → t.readReg f 0 = s.readReg g 0

/-- A store is read back, changes no other byte, and keeps the canonical form (R35, R510). -/
def Obligations.MemoryWriteThenRead : Prop :=
  (∀ (m : Mem) (a : Nat) (bs : List Byte), mread (mwrite m a bs) a bs.length = bs ∧
    (∀ x, (x < a ∨ a + bs.length ≤ x) → mbyte (mwrite m a bs) x = mbyte m x) ∧ (Memory.wf m = true → Memory.wf (mwrite m a bs) = true)) ∧
    ∀ m n : Mem, Memory.wf m = true → Memory.wf n = true → (∀ a, mbyte m a = mbyte n a) → m = n

/-- Into a ring in host memory the module writes the entry at TAIL with its PHASE and moves TAIL by one; a full ring makes the writer wait,
and so does a ring in DRAM, whose entries take wings slots (R378, R379).
-/
def Obligations.ModuleWritesRingEntryOrWaits : Prop :=
  (∀ (s : State) (q : Nat) (bs : List Byte) (src : Option Nat), (s.queue q).enable = true → (s.queue q).loc = false →
    (s.queue q).full = false → (s.queue q).waiting = [] → bs.length ≤ 63 →
    let x := s.queue q
    let t := s.post q bs src
    let a := x.base.toNat * 4096 + 64 * (x.tail % 2 ^ x.depthLog2.toNat)
    mread t.hostMem a 64 = bs ++ List.replicate (63 - bs.length) 0 ++ [if x.tail < 2 ^ x.depthLog2.toNat then 1 else 0] ∧
      t.queue q = { x with tail := (x.tail + 1) % (2 * 2 ^ x.depthLog2.toNat) } ∧ (∀ p, p ≠ q → t.queue p = s.queue p) ∧
      t.dram = s.dram ∧ ∀ b, (b < a ∨ a + 64 ≤ b) → mbyte t.hostMem b = mbyte s.hostMem b) ∧
  (∀ (s : State) (q : Nat) (bs : List Byte) (src : Option Nat), (s.queue q).enable = true →
    ((s.queue q).loc = true ∨ (s.queue q).count = 2 ^ (s.queue q).depthLog2.toNat ∨ (s.queue q).waiting ≠ []) →
    (s.post q bs src).queue q = { s.queue q with waiting := (s.queue q).waiting ++ [(bs, src)] } ∧
      (s.post q bs src).dram = s.dram ∧ (s.post q bs src).hostMem = s.hostMem ∧ ∀ p, p ≠ q → (s.post q bs src).queue p = s.queue p)

/-- Every host command is served under its opcode, with its payload fields, for its issuer and in its mode of staging (R121, R284, R303,
R337, R363, R383, R388, R409, R410, R432); SM_INFO is so on a module that has not failed (R469). -/
def Obligations.HostCommandsServedUnderTheirOpcode : Prop :=
  ∀ (i : Instr) (h : Pkt) (opcode : BitVec 16) (fields : List (Nat × Nat)) (house : Bool) (st : Staging),
    Instr.hostForm i = some (h, opcode, fields, house, st) →
    ∃ body : State → Nat → Answer, ∀ s : State, (i = .smInfo h → s.boot.phase ≠ 4 ∨ s.sm.ready = true) →
      exec i s = .next (s.serve h opcode fields house st body)

/-- Whose turn it is, the checks that come before a command's own, in their order, what each failure replies, and BUSY for a command that
finds the list full (R381, R383, R384, R402, R409, R413, R414). -/
def Obligations.HostCommandChecksInOrder : Prop :=
  (∀ (s : State) (h : Pkt) (opcode : BitVec 16) (fields : List (Nat × Nat)) (house : Bool) (st : Staging) (body : State → Nat → Answer),
    let f := s.fetch h.queue
    (f.turnOf h opcode fields = none → s.serve h opcode fields house st body = f) ∧
    ∀ j, f.turnOf h opcode fields = some j →
      let c := f.begin_ j
      let k := f.queueCo h.queue
      let x := (f.co k).txn
      let answers (status : Byte) : Prop := s.serve h opcode fields house st body = c.answered j status []
      let malformed : Prop := h.reserved ≠ 0 ∨ bits h.flags 15 1 ≠ 0 ∨ 256 < h.length ∨ 2 ^ fieldBits fields ≤ j.payload
      f.turn = some j ∧ j.pkt = h ∧ j.opcode = opcode ∧ j.payload % 2 ^ fieldBits fields = packBits fields ∧
      (malformed → answers 0x04) ∧
      (¬ malformed →
        (h.company ≠ k → answers 0x02) ∧
        (h.company = k → house = true → k ≠ 0 → answers 0x02) ∧
        (h.company = k → (house = true → k = 0) →
          (h.txn = 0 → st = .curtain → answers 0x04) ∧
          (h.txn ≠ 0 → (∀ o, x.opened = some o → o.id ≠ h.txn) → (h.txn ∈ x.aborted → answers 0x06) ∧ (h.txn ∉ x.aborted → answers 0x04)) ∧
          (h.txn ≠ 0 → (∃ o, x.opened = some o ∧ o.id = h.txn) → st = .never → answers 0x04)))) ∧
  (∀ (s : State) (j : Journal), s.turn = some j →
    let co := fun (i : Journal) => s.queueCo i.pkt.queue
    let order := fun (i : Journal) => (co i + 29 - s.sm.lastCo) % 15
    (∃ pre post, s.sm.list = pre ++ j :: post ∧ ∀ i ∈ pre, co i ≠ co j) ∧
    ((∃ i ∈ s.sm.list, co i = 0) → co j = 0) ∧
    (s.sm.lastCo < 16 → ∀ i ∈ s.sm.list, co j ≠ 0 → co i < 16 → order j ≤ order i)) ∧
  ∀ (s : State) (q : Nat) (h : Pkt) (opcode : BitVec 16) (payload : Nat), s.fetchReady q = true → s.atHead q = some (h, opcode, payload) →
    let k := s.queueCo q
    let j : Journal := { pkt := h, payload := payload, gen := (s.queue q).gen, opcode := opcode, txn := h.txn }
    let taken := (s.takeEntries q (pktEntries h)).enter j
    let full : Prop := 128 ≤ s.sm.list.length ∨ 16 ≤ (s.sm.list.filter (fun i => s.queueCo i.pkt.queue = k)).length
    (full → s.fetchOne q = some (taken.reply j 0x01 0 (max 1 (min 65535 ((s.sm.list.length * s.sm.serviceNs + 999) / 1000))) j.txn [])) ∧
    (¬ full → s.fetchOne q = some taken)

/-- What a reply writes, and where; while it waits for space its command is not yet answered (R379, R383, R385, R386, R387, R418). -/
def Obligations.ReplyGoesToThePairedQueue : Prop :=
  ∀ (s : State) (j : Journal) (status detail : Byte) (retry : Nat) (txn : Word) (result : List Byte),
    let h := j.pkt
    let t := s.reply j status detail retry txn result
    let noted (state : JournalState) : State := s.modEntry j (fun y => { y with state := state, status := status })
    ((bit h.flags 0 = true ∧ status = 0) ∨ (s.queue h.queue).gen ≠ j.gen → t = noted .replied) ∧
    ∀ p, ¬ (bit h.flags 0 = true ∧ status = 0) → (s.queue h.queue).gen = j.gen →
      s.absQueue (s.queueCo h.queue) (s.queue h.queue).pair.toNat = some p → (s.queue p).enable = true → result.length ≤ 16 →
      let x := s.queue p
      ((x.loc = false ∧ x.full = false ∧ x.waiting = []) →
        mread t.hostMem (x.entryAddr x.tail) 37 =
          leBytes 4 h.tag.toNat ++ leBytes 2 j.opcode.toNat ++ [status, detail] ++ leBytes 2 retry ++ [BitVec.ofNat 8 (s.queueCo h.queue), 0] ++
            leBytes 4 txn.toNat ++ result ++ List.replicate (16 - result.length) 0 ++ [1, 0] ++
            leBytes 2 (s.localIndex (fun c => c.queues) (s.queueCo h.queue) h.queue) ++ [j.gen] ∧
          t.queue p = { x with tail := (x.tail + 1) % (2 * 2 ^ x.depthLog2.toNat) } ∧ t.sm = (noted .replied).sm) ∧
      ((x.loc = true ∨ x.full = true ∨ x.waiting ≠ []) →
        (∃ bs, t.queue p = { x with waiting := x.waiting ++ [(bs, some h.queue)] }) ∧ t.hostMem = s.hostMem ∧ t.sm = (noted .posting).sm) ∧
      (∀ q, q ≠ p → t.queue q = s.queue q) ∧ t.dram = s.dram ∧ t.cos = s.cos ∧ t.cores = s.cores ∧ t.err = s.err ∧ t.tor = s.tor ∧
      t.counters = s.counters

/-- RUN and DRAIN with no reserved value enter their core with the fields of their encoding (R32, R50, R53, R131, R132, R133). -/
def Obligations.MatrixSlotCompletes : Prop :=
  ∀ (s t : State) (p cycle : Nat) (w : DWord), p < 850 → s.slotReady p cycle 3 w = some t →
    (bits w 63 58 = 1 → bit w 0 = false → bits w 40 24 ≤ 81919 → bits w 23 7 ≤ 81919 → bits w 55 53 ≤ 5 →
      (bits w 55 53 = 4 → bits w 52 48 = 0) →
      exec (.run p cycle w) s = .next (t.slotNext p 3 (fun c =>
        let d := c.cutRun c.cycle
        let pair := bits w 55 53
        let family : Family := if pair ≤ 3 then .fp8 else if pair = 4 then .p4 else .bf16
        let n := if pair = 4 then 32 * (bits w 47 41 + 1) else bits w 52 41 + 1
        let m := (tget 0 d.msets (bits w 6 1)).toNat
        let rows := BitVec.ofNat 32 m
        let cols := [BitVec.ofNat 32 (m / 2 ^ 32), BitVec.ofNat 32 (m / 2 ^ 64), BitVec.ofNat 32 (m / 2 ^ 96), BitVec.ofNat 32 (m / 2 ^ 128)]
        { d with
          runs := { c0 := d.cycle, steps := n, family := family, actE5 := decide (pair = 2 ∨ pair = 3),
                    wtE5 := decide (pair = 1 ∨ pair = 3), win := bits w 56 56, opens := bit w 57, actLine := bits w 40 24,
                    wtLine := bits w 23 7, rowMask := rows, colMasks := cols, limit := n,
                    reads := portAReads family n d.cycle, act := [], wt := [], logged := false } :: d.runs
          marks := { win := bits w 56 56, entry0 := d.cycle + 4 + family.entryDelay, rowMask := rows, colMasks := cols } :: d.marks }))) ∧
    (bits w 63 58 = 2 → bits w 55 43 = 0 → bits w 42 32 < 1280 →
      exec (.drain p cycle w) s = .next (t.slotNext p 3 (fun c =>
        let d := c.cutDrain c.cycle
        let lines := (lastRun d.marks (bits w 57 57) d.cycle).elim [] (drainLines (BitVec.ofNat 32 (bits w 31 0)))
        { d with drains := { d := d.cycle, win := bits w 57 57, add := bit w 56, dest := bits w 42 32, lines := lines, values := [],
                             isRead := false, limit := lines.length } :: d.drains })))

/-- A later run cuts the one before it to the k-steps that have entered, and each k-step enters its cell at the cycle the family
fixes (R33, R34). -/
def Obligations.RunTruncationAndEntryCycles : Prop :=
  (∀ (c : Core) (r : Run) (rs : List Run) (t : Nat), c.runs = r :: rs →
    (t < r.c0 + r.interval → ∃ r', (c.cutRun t).runs = r' :: rs ∧
      (∀ s, s < r'.limit ↔ s < r.limit ∧
        match r.family with
        | .p4 => r.c0 + 4 + s / 2 < t
        | .bf16 => r.c0 + 4 + 2 * s < t
        | _ => r.c0 + 4 + s < t) ∧
      (∀ x, x ∈ r'.reads ↔ x ∈ r.reads ∧ x.1 < t) ∧
      r' = { r with limit := r'.limit, reads := r'.reads }) ∧
    (r.c0 + r.interval ≤ t → c.cutRun t = c) ∧
    ∀ w d, c.issueDrain w = some d → d.runs = c.runs) ∧
  (∀ (r : Run) (t i j s : Nat), (s ∈ r.stepsAt t i j ↔ s < r.limit ∧
    match r.family with
    | .p4 => t = r.c0 + 4 + s / 2 + i + j + 5
    | .bf16 => t = r.c0 + 4 + 2 * s + i + j + 4
    | _ => t = r.c0 + 4 + s + i + j + 2))

/-- A run changes no inactive cell and no other window, and a drain writes exactly the active lines in ascending order (R41, R50).
-/
def Obligations.InactiveCellsKeepAndDrainsSkipThem : Prop :=
  (∀ (c : Core) (r : Run) (t win a i j : Nat), r.win < 2 → win < 2 → a < 4 → i < 32 → j < 32 →
    (win ≠ r.win ∨ r.rowMask.getLsbD i = false ∨ (r.colMasks.getD a 0).getLsbD j = false) →
    tget {} (c.runStep r t).1.cells (cellKey win a i j) = tget {} c.cells (cellKey win a i j)) ∧
  ∀ (rowWr : Word) (m : RunMark),
    let active := fun i h k => m.rowMask.getLsbD i && (m.colMasks.getD (2 * h + k / 32) 0).getLsbD (k % 32)
    (∀ i h cols, (i, h, cols) ∈ drainLines rowWr m ↔ i < 32 ∧ h < 2 ∧ rowWr.getLsbD i = true ∧
      cols = (List.range 64).map (active i h) ∧ ∃ k, k < 64 ∧ active i h k = true) ∧
    (drainLines rowWr m).Pairwise (fun x y => 2 * x.1 + x.2.1 < 2 * y.1 + y.2.1)

/-- The nine arithmetic register operations land one result per element, four or two cycles after issue (R99, R134, R135, R143).
-/
def Obligations.VectorArithmeticCompletes : Prop :=
  ∀ (s t : State) (p cycle : Nat) (w : DWord), p < 850 → s.slotReady p cycle 2 w = some t →
    let lands (lat : Nat) (f : Word → Word → Word → Word) : State := t.slotNext p 2 (fun c =>
      let d := c.vectorCut c.cycle
      let bf := bit w 57
      let g := fun e => f (d.velem bf (bits w 42 38) e) (d.velem bf (bits w 37 33) e) (d.velem bf (bits w 32 28) e)
      let stored := fun e => if bf then bfWiden (toBf (g e)) else g e
      { d with
        landings := d.landings ++ elementLandings d w lat (fun e => elemBytes bf (g e))
        nonfinite := d.nonfinite + if bit w 56 then ((vecElems w).filter (fun e => (f32dec (stored e)).nonFinite)).length else 0 })
    (registerForm 0x01 w → exec (.vadd p cycle w) s = .next (lands 4 (fun a b _ => fadd a b))) ∧
    (registerForm 0x02 w → exec (.vsub p cycle w) s = .next (lands 4 (fun a b _ => fsub a b))) ∧
    (registerForm 0x03 w → exec (.vmul p cycle w) s = .next (lands 4 (fun a b _ => fmul a b))) ∧
    (registerForm 0x04 w → exec (.vfma p cycle w) s = .next (lands 4 ffma)) ∧
    (registerForm 0x05 w → exec (.vmax p cycle w) s = .next (lands 2 (fun a b _ => fmax a b))) ∧
    (registerForm 0x06 w → exec (.vmin p cycle w) s = .next (lands 2 (fun a b _ => fmin a b))) ∧
    (registerForm 0x07 w → exec (.vabs p cycle w) s = .next (lands 2 (fun a _ _ => fabs a))) ∧
    (registerForm 0x08 w → exec (.vneg p cycle w) s = .next (lands 2 (fun a _ _ => fneg a))) ∧
    (registerForm 0x09 w → bits w 27 24 < 4 → exec (.vcmp p cycle w) s =
      .next (lands 2 (fun a b _ => if vcmpHolds (bits w 27 24) a b then 0x3F800000#32 else 0#32)))

/-- VSEL, VBCAST, VFN on a register and VAGEN.DESC land their results (R97, R104, R113, R134, R135). -/
def Obligations.VectorSelectAndFunctionComplete : Prop :=
  ∀ (s t : State) (p cycle : Nat) (w : DWord), p < 850 → s.slotReady p cycle 2 w = some t →
    let bf := bit w 57
    let n := if bf then 2 else 4
    let raw := fun (c : Core) r e => leBytes n (lineBits (tget 0 c.vregs r) (8 * n * e) (8 * n))
    let count := fun (c : Core) (g : Nat → Word) =>
      c.nonfinite + if bit w 56 then ((vecElems w).filter (fun e => (f32dec (g e)).nonFinite)).length else 0
    (registerForm 0x0A w → exec (.vsel p cycle w) s = .next (t.slotNext p 2 (fun c =>
      let d := c.vectorCut c.cycle
      let from_ := fun e => if (f32dec (d.velem bf (bits w 32 28) e)).isZero then bits w 37 33 else bits w 42 38
      { d with landings := d.landings ++ elementLandings d w 2 (fun e => raw d (from_ e) e)
               nonfinite := count d (fun e => d.velem bf (from_ e) e) }))) ∧
    (registerForm 0x0B w → exec (.vbcast p cycle w) s = .next (t.slotNext p 2 (fun c =>
      let d := c.vectorCut c.cycle
      { d with landings := d.landings ++ elementLandings d w 2 (fun _ => raw d (bits w 42 38) (bits w 53 48))
               nonfinite := count d (fun _ => d.velem bf (bits w 42 38) (bits w 53 48)) }))) ∧
    (registerForm 0x0C w → fnDefined (bits w 27 24) = true →
      exec (.vfnRegister p cycle w) s = .next (t.slotNext p 2 (fun c =>
        let d := c.vectorCut c.cycle
        let g := fun e => vfn (bits w 27 24) (bit w 55) (d.velem bf (bits w 42 38) e)
        { d with landings := d.landings ++ elementLandings d w (if bit w 55 then 20 else 12) (fun e => elemBytes bf (g e))
                 nonfinite := count d (fun e => if bf then bfWiden (toBf (g e)) else g e) }))) ∧
    (registerForm 0x0D w → bits w 53 48 % 2 = 0 → exec (.vagenDesc p cycle w) s = .next (t.slotNext p 2 (fun c =>
      let d := c.vectorCut c.cycle
      { d with landings := d.landings ++ [⟨d.cycle + 2, 1,
          .agenDesc (BitVec.ofNat 64 (lineBits (tget 0 d.vregs (bits w 42 38)) (32 * bits w 53 48) 64))⟩] })))

/-- The seven row operations start with the fields of their slot and the operands they sample at issue (R98, R134, R135, R136,
R137, R138). -/
def Obligations.RowOperationsStart : Prop :=
  ∀ (s t : State) (p cycle : Nat) (w : DWord), p < 850 → s.slotReady p cycle 2 w = some t → bits w 54 38 ≤ 81919 → bits w 37 21 ≤ 81919 →
    let aux := bits w 4 0
    let start (op : RowOp) (rate : Nat) (pick : Core → Word × Word) : State := t.slotNext p 2 (fun c =>
      c.startRow (t.slotCtx p) w op rate (pick c).1 (pick c).2 0)
    let castStart (op : RowOp) (m : Core → Word) (c : Core) : Core :=
      let d := tget 0 c.cdescs aux
      let c' := { c with cdescs := tset 0 c.cdescs aux (d + (BitVec.ofNat 128 (bits w 20 5 + 1) <<< 88)) }
      c'.startRow (t.slotCtx p) w op 64 (m c) 0 d
    let named := fun (c : Core) => castTarget (tget 0 c.cdescs aux) ≠ none
    (bits w 63 58 = 0x20 → (bits w 1 0 = 3 → bits w 9 5 = 31) →
      exec (.vwiden p cycle w) s = .next (start (.widen (bits w 1 0)) 64 (fun _ => (0, 0)))) ∧
    (bits w 63 58 = 0x21 → exec (.vcast p cycle w) s = .next (t.slotNext p 2 (fun c =>
      if named c then castStart (.cast aux) (fun _ => 0) c else c.reserved 2))) ∧
    (bits w 63 58 = 0x22 → exec (.vrowstat p cycle w) s = .next (start (.rowstat aux) 64 (fun _ => (0, 0)))) ∧
    (bits w 63 58 = 0x23 → fnDefined (bits w 3 0) = true → exec (.vfnRow p cycle w) s =
      .next (start (.fn (bits w 3 0)) (if bit w 55 then 16 else 32) (fun _ => (0, 0)))) ∧
    (bits w 63 58 = 0x24 → exec (.vsmmax p cycle w) s = .next (start (.smmax aux) 64 (fun _ => (0, 0)))) ∧
    (bits w 63 58 = 0x25 → exec (.vsmexp p cycle w) s = .next (start (.smexp aux) 32 (fun c => (c.vword 30 0, c.vword 31 0)))) ∧
    (bits w 63 58 = 0x26 → exec (.vsmnorm p cycle w) s = .next (t.slotNext p 2 (fun c =>
      if named c then castStart (.smnorm aux) (fun c => c.vword 31 1) c else c.reserved 2))) ∧
    (bits w 63 58 = 0x27 → exec (.vagenTable p cycle w) s = .next (t.slotNext p 2 (fun c =>
      { c.vectorCut c.cycle with table := some (bits w 54 38, aux) }))) ∧
    ∀ (c : Core) (t line aux : Nat), c.table = some (line, aux) → c.seen = [] →
      let r := c.tileRead (256 * line) 256
      let words := (List.range 16).map (fun i => leNat ((r.1.drop (4 * i)).take 4))
      let e := r.2.touch 5 2 line
      let f := if words.any (fun v => decide (2 ^ 20 ≤ v)) then
        e.log 1 0x0207#16 [(6, 0x27), (4, bits e.agenDesc 39 36), (4, bits e.agenDesc 43 40), (5, aux)] else e
      c.tableCycle t = { f with
        table := none
        landings := f.landings ++ [{ cycle := t + 5, prio := 1, eff := .agenTable (words.map (fun v => v % 2 ^ 20)) }] }

/-- VLD, VST, SEND, LOOP, MSETLD, CDLD, SINC, PARTEND and NOP with no reserved value have the effects of their tables (R128, R129,
R139, R140, R141, R142, R143). -/
def Obligations.MoveAndControlSlotsComplete : Prop :=
  ∀ (s t : State) (p cycle : Nat) (w : DWord), p < 850 →
    let ready (slot : Nat) : Prop := s.slotReady p cycle slot w = some t
    (ready 1 → bits w 63 58 = 1 → bits w 35 0 = 0 → bits w 52 36 ≤ 81919 → exec (.vld p cycle w) s = .next (t.slotNext p 1 (fun c =>
      { c with mop := none, vld := some (bits w 57 53, bits w 52 36) }))) ∧
    (∀ (c : Core) (t reg line : Nat), c.vld = some (reg, line) → c.seen = [] →
      let r := c.tileRead (256 * line) 256
      let d := r.2.touch 6 2 line
      c.vldCycle t = { d with vld := none, landings := d.landings ++ [⟨t + 5, 2, .vreg reg 0 r.1⟩] }) ∧
    (∀ (c : Core) (t : Nat) (m : SendOp), c.mop = some m → c.seen = [] →
      let r := c.tileRead (256 * (m.src + m.done)) 256
      let d := r.2.touch 6 2 (m.src + m.done)
      c.sendCycle t = { d with
        mop := if m.done + 1 < m.count then some { m with done := m.done + 1 } else none
        landings := d.landings ++ [⟨t + 4, 2, .sent m.target (m.dst + m.done) (BitVec.ofNat 2048 (leNat r.1))⟩] }) ∧
    (ready 1 → bits w 63 58 = 2 → bits w 35 0 = 0 → bits w 52 36 ≤ 81919 → exec (.vst p cycle w) s = .next (t.slotNext p 1 (fun c =>
      ({ c with mop := none } : Core).land (c.cycle + 3) 2 (.tile (256 * bits w 52 36) (leBytes 256 (tget 0 c.vregs (bits w 57 53)).toNat))))) ∧
    (∀ d, ready 1 → bits w 63 58 = 3 → bits w 5 0 = 0 → bits w 57 41 ≤ 81919 → bits w 40 24 ≤ 81919 → (t.slotCtx p).dest (bits w 23 19) (bits w 18 14) = some d →
      exec (.send p cycle w) s = .next (t.slotNext p 1 (fun c => { c with
        mop := some { t0 := c.cycle, src := bits w 57 41, dst := bits w 40 24, target := d, count := bits w 13 6 + 1, done := 0 } }))) ∧
    (ready 0 → bits w 63 58 = 1 → bits w 29 0 = 0 → exec (.loop p cycle w) s = .next (t.slotNext p 0 (fun c =>
      if c.loops.length < 4 then
        { c with cop := none, loops := ((c.addr + 1) % 4096, (c.addr + 1 + bits w 41 30) % 4096, bits w 57 42) :: c.loops }
      else c.reserved 0))) ∧
    (ready 0 → bits w 63 58 = 2 → bits w 28 0 = 0 → bits w 57 41 ≤ 81919 → exec (.msetld p cycle w) s = .next (t.slotNext p 0 (fun c =>
      { c with cop := some { t0 := c.cycle, casts := false, line := bits w 57 41, first := bits w 40 35, count := bits w 34 29 + 1, done := 0 } }))) ∧
    (ready 0 → bits w 63 58 = 3 → bits w 30 0 = 0 → bits w 57 41 ≤ 81919 → exec (.cdld p cycle w) s = .next (t.slotNext p 0 (fun c =>
      { c with cop := some { t0 := c.cycle, casts := true, line := bits w 57 41, first := bits w 40 36, count := bits w 35 31 + 1, done := 0 } }))) ∧
    (ready 0 → bits w 63 58 = 4 → bits w 20 0 = 0 → exec (.sinc p cycle w) s = .next (t.slotNext p 0 (fun c =>
      ({ c with cop := none } : Core).land (c.cycle + 2) 3 (.sinc (bits w 57 45) (BitVec.ofNat 8 (bits w 44 37)) (bits w 36 21))))) ∧
    (ready 0 → bits w 63 58 = 5 → bits w 57 0 = 0 → exec (.partend p cycle w) s = .next (t.slotNext p 0 (fun c =>
      { c with cop := none, ending := true }))) ∧
    ∀ q : BitVec 2, ready q.toNat → bits w 63 58 = 0 → exec (.nop p cycle q w) s = .next (t.slotNext p q.toNat (fun c => c))

/-- A slot with a reserved value executes as NOP and logs BUNDLE_RESERVED once per part per step (R130, R131, R133 to R136, R139, R140). -/
def Obligations.ReservedSlotRunsAsNop : Prop :=
  ∀ (s t : State) (p cycle : Nat) (w : DWord), p < 850 →
    let ready (slot : Nat) : Prop := s.slotReady p cycle slot w = some t
    let reserved (slot : Nat) : Host.Outcome State Fault Refusal := .next (t.slotNext p slot (fun c => if c.reservedLogged then c else
      { c with errs := c.errs ++ [{ cls := 1, code := 0x0B02#16, detail := [(12, c.addr), (2, slot)] }], reservedLogged := true }))
    (ready 3 →
      ((bit w 0 = true ∨ 81919 < bits w 40 24 ∨ 81919 < bits w 23 7 ∨ 6 ≤ bits w 55 53 ∨ (bits w 55 53 = 4 ∧ bits w 52 48 ≠ 0)) →
        exec (.run p cycle w) s = reserved 3) ∧
      ((bits w 55 43 ≠ 0 ∨ 1280 ≤ bits w 42 32) → exec (.drain p cycle w) s = reserved 3)) ∧
    (ready 2 →
      (bits w 23 0 ≠ 0 → exec (.vadd p cycle w) s = reserved 2 ∧ exec (.vsub p cycle w) s = reserved 2 ∧ exec (.vmul p cycle w) s = reserved 2 ∧
        exec (.vfma p cycle w) s = reserved 2 ∧ exec (.vmax p cycle w) s = reserved 2 ∧ exec (.vmin p cycle w) s = reserved 2 ∧
        exec (.vabs p cycle w) s = reserved 2 ∧ exec (.vneg p cycle w) s = reserved 2 ∧ exec (.vsel p cycle w) s = reserved 2 ∧
        exec (.vbcast p cycle w) s = reserved 2) ∧
      ((bits w 23 0 ≠ 0 ∨ 4 ≤ bits w 27 24) → exec (.vcmp p cycle w) s = reserved 2) ∧
      ((bits w 23 0 ≠ 0 ∨ fnDefined (bits w 27 24) = false) → exec (.vfnRegister p cycle w) s = reserved 2) ∧
      ((bits w 23 0 ≠ 0 ∨ bits w 53 48 % 2 = 1) → exec (.vagenDesc p cycle w) s = reserved 2) ∧
      ((81919 < bits w 54 38 ∨ 81919 < bits w 37 21) → exec (.vcast p cycle w) s = reserved 2 ∧ exec (.vrowstat p cycle w) s = reserved 2 ∧
        exec (.vsmmax p cycle w) s = reserved 2 ∧ exec (.vsmexp p cycle w) s = reserved 2 ∧ exec (.vsmnorm p cycle w) s = reserved 2 ∧
        exec (.vagenTable p cycle w) s = reserved 2) ∧
      ((81919 < bits w 54 38 ∨ 81919 < bits w 37 21 ∨ (bits w 1 0 = 3 ∧ bits w 9 5 ≠ 31)) → exec (.vwiden p cycle w) s = reserved 2) ∧
      ((81919 < bits w 54 38 ∨ 81919 < bits w 37 21 ∨ fnDefined (bits w 3 0) = false) → exec (.vfnRow p cycle w) s = reserved 2)) ∧
    (ready 1 →
      ((bits w 35 0 ≠ 0 ∨ 81919 < bits w 52 36) → exec (.vld p cycle w) s = reserved 1 ∧ exec (.vst p cycle w) s = reserved 1) ∧
      ((bits w 5 0 ≠ 0 ∨ 81919 < bits w 57 41 ∨ 81919 < bits w 40 24 ∨ (t.slotCtx p).dest (bits w 23 19) (bits w 18 14) = none) →
        exec (.send p cycle w) s = reserved 1)) ∧
    (ready 0 →
      (bits w 29 0 ≠ 0 → exec (.loop p cycle w) s = reserved 0) ∧
      ((bits w 28 0 ≠ 0 ∨ 81919 < bits w 57 41) → exec (.msetld p cycle w) s = reserved 0) ∧
      ((bits w 30 0 ≠ 0 ∨ 81919 < bits w 57 41) → exec (.cdld p cycle w) s = reserved 0) ∧
      (bits w 20 0 ≠ 0 → exec (.sinc p cycle w) s = reserved 0) ∧
      (bits w 57 0 ≠ 0 → exec (.partend p cycle w) s = reserved 0)) ∧
    ∀ q : BitVec 2, ready q.toNat → bits w 63 58 ≠ 0 → exec (.nop p cycle q w) s = reserved q.toNat

/-- What a bundle slot leaves unchanged in the state `t` in which its core issues it; a slot that its core does not issue changes nothing
(R59, R60, R100, R142, R428). -/
def Obligations.SlotFrame : Prop :=
  ∀ (s t u : State) (p cycle slot : Nat) (w : DWord) (f : SlotCtx → Core → DWord → Option Core), slotOutcome s p cycle slot w f = .next u →
    (s.slotReady p cycle slot w = none → u = s) ∧
    (s.slotReady p cycle slot w = some t →
      (∀ q, q ≠ p → u.core q = t.core q) ∧
      u.dram = t.dram ∧
      (∀ a, ¬ t.inRing 5 false a → mbyte u.hostMem a = mbyte t.hostMem a) ∧
      (∀ k, ∃ n m, u.co k = { t.co k with upd := { (t.co k).upd with nonfinite := n, faults := m } }) ∧
      (∀ k, k ≠ t.coreCo p → u.co k = t.co k) ∧
      u.roles = t.roles ∧ u.grid = t.grid ∧ u.channels = t.channels ∧ u.flys = t.flys ∧ u.engines = t.engines ∧ u.counters = t.counters ∧
      u.watches = t.watches ∧ u.readSlots = t.readSlots ∧ u.tor = t.tor ∧ u.island = t.island ∧ u.boot = t.boot ∧ u.pwr = t.pwr ∧
      u.cip = t.cip ∧ u.sm = t.sm ∧ u.farPorts = t.farPorts ∧ u.restore = t.restore ∧ u.nowNs = t.nowNs ∧ u.pending = t.pending ∧
      u.incDma = t.incDma ∧ u.incWings = t.incWings ∧ u.incHost = t.incHost ∧ u.wingsGot = t.wingsGot ∧ u.wingsOut = t.wingsOut)

/-- SCRIPT_LOAD of a good image, SCRIPT_START of a loaded script and SCRIPT_STOP complete, and the starts that R124 turns away are
(R121, R122, R123, R124, R125). A stop where no script is armed, running or held changes nothing, which is the model's choice (log 18). -/
def Obligations.ScriptCommandsComplete : Prop :=
  (∀ (s c : State) (j : Journal) (h : Pkt) (addr : BitVec 48) (len : DWord), s.serving (.scriptLoad h addr len) = some (j, c) →
    let k := c.queueCo h.queue
    match checkImage c k addr.toNat len.toNat with
      | .ok im => exec (.scriptLoad h addr len) s = .next ((c.loadImage k im).answered j 0x00 [])
      | .error (reason, status) => exec (.scriptLoad h addr len) s =
          .next ((((c.modSeq k (fun q => { q with refusal := reason })).log 1 k 1 k 0x0B01#16 [(8, reason.toNat), (4, k)]).reply
            j status reason 0 j.txn []).fetch h.queue)) ∧
  (∀ (s c : State) (j : Journal) (h : Pkt) (epoch : DWord) (step : BitVec 48) (attempt : BitVec 16),
    s.serving (.scriptStart h epoch step attempt) = some (j, c) →
    let k := c.queueCo h.queue
    let q := (c.co k).seq
    (q.state = .loaded → c.tor.houseEpoch < epoch → exec (.scriptStart h epoch step attempt) s =
      .next ((c.modSeq k (fun q => { q with
        state := .armed, startEpoch := epoch, startStep := step, step := step, attempt := attempt })).answered j 0x00 [])) ∧
    ((q.state = .armed ∨ q.state = .running ∨ q.state = .held) →
      exec (.scriptStart h epoch step attempt) s = .next (c.answered j 0x09 [])) ∧
    ((q.state = .empty ∨ q.state = .stopped ∨ (q.state = .loaded ∧ epoch ≤ c.tor.houseEpoch)) →
      exec (.scriptStart h epoch step attempt) s = .next (c.answered j 0x04 []))) ∧
  ∀ (s c : State) (j : Journal) (h : Pkt) (immediate : Bool), s.serving (.scriptStop h immediate) = some (j, c) →
    let k := c.queueCo h.queue
    let q := (c.co k).seq
    ((q.state = .armed ∨ q.state = .running ∨ q.state = .held) → exec (.scriptStop h immediate) s = .next
      ((if immediate then (c.undoStep k).haltScript k else c.modSeq k (fun q => { q with stopArmed := true })).answered j 0x00 [])) ∧
    ((q.state = .empty ∨ q.state = .loaded ∨ q.state = .stopped) → exec (.scriptStop h immediate) s = .next (c.answered j 0x00 []))

/-- A load zeroes its cores' memories and tables, keeps the logical grid and sets the stage counters to zero (R117, R123, R126).
-/
def Obligations.LoadZeroesTheCompanysCores : Prop :=
  ∀ (s : State) (k : Nat) (im : Image),
    let t := s.loadImage k im
    (∀ p ∈ im.parts, ∀ c, s.relPhys k p.lrow p.lcol = some c →
      (t.core c).tile = [] ∧ (t.core c).flips = [] ∧ (t.core c).vregs = [] ∧ (t.core c).cells = [] ∧ (t.core c).msets = [] ∧ (t.core c).cdescs = []) ∧
    (∀ c, (∀ p ∈ im.parts, s.relPhys k p.lrow p.lcol ≠ some c) → t.core c = s.core c) ∧
    (t.co k).seq.state = .loaded ∧ (t.co k).seq.stageCycle = 0 ∧ (t.co k).seq.step = 0 ∧ (t.co k).seq.stepCycle = 0 ∧
    (t.co k).seq.image = some im ∧ t.grid = s.grid ∧ t.roles = s.roles

/-- An immediate stop completes the curtain's posted writes and stops the company (R125). -/
def Obligations.ImmediateStopKeepsCommittedBank : Prop :=
  ∀ (s : State) (k : Nat),
    let t := (s.undoStep k).haltScript k
    let x := (s.co k).upd
    let y := (t.co k).upd
    (t.co k).seq.state = .stopped ∧ (t.co k).seq.held = false ∧ (t.co k).seq.waiting = false ∧ y.posted = [] ∧
      y.committed = x.committed ∧ y.commits = x.commits ∧ y.digest = x.digest ∧
      ∀ a, (∀ w ∈ x.posted, a < w.addr ∨ w.addr + w.data.length ≤ a) →
        (∀ r ∈ s.stepRegions k, a < r.1 ∨ r.1 + r.2 ≤ a) → mbyte t.dram a = mbyte s.dram a

/-- A step boundary ends the step at STEP_CYCLES and starts every core of the company at ENTRY; `u` is the state at the boundary, which the
stage reaches before an epoch boundary, a hold of the step or an earlier event (R117, R127, R128, R155). -/
def Obligations.StepBoundaryStartsStep : Prop :=
  ∀ (s u : State) (k n : Nat), k < 16 →
    let q := (s.co k).seq
    let r := (u.co k).seq
    q.advancing = true → q.cyclesLeft (s.co k).upd.recastArmed = some n → n ≤ 65536 * (q.epochs + 1) - q.stageCycle.toNat →
    q.cyclesToHold = none → s.stageBy k n = some u →
    r.stopArmed = false → r.phase = .step → (u.co k).upd.recastArmed = false →
    ∃ t, exec (.stepBoundary k) s = .next t ∧ (t.co k).seq.step = r.step + 1 ∧ (t.co k).seq.stepCycle = 0 ∧
      (t.co k).seq.stageCycle = r.stageCycle ∧ (t.co k).seq.nextHold = 0 ∧ (t.co k).seq.phase = .step ∧
      ∀ p ∈ u.coreList k, (t.core p).ended = false ∧ (t.core p).gated = false ∧ (t.core p).addr = (t.core p).entry ∧
        (t.core p).entry = (u.core p).entry ∧ (t.core p).loops = []

/-- The cue barrier: the boundary that the stage reaches, where it waits until the markers of all its active ports are held, the wait's end,
markers sent once per port and held as they come (R160, R188, R189). -/
def Obligations.CueBarrierWaitsForMarkers : Prop :=
  ∀ (s : State) (k : Nat), k < 16 →
    let q := (s.co k).seq
    (∀ u, q.advancing = true → (q.cyclesLeft (s.co k).upd.recastArmed).elim True (fun m => q.cyclesToEpoch ≤ m) →
      q.cyclesToHold.elim True (fun m => q.cyclesToEpoch ≤ m) → s.stageBy k (65536 * (q.epochs + 1) - q.stageCycle.toNat) = some u →
      let at_ := u.modSeq k (fun x => { x with epochs := q.epochs + 1, waitPorts := u.activePorts k, marked := [] })
      let mk := BitVec.ofNat 32 ((u.co k).seq.startEpoch.toNat + (q.epochs + 1))
      ((∃ p ∈ u.activePorts k, (k, mk) ∉ (u.port p).markers) →
        exec (.epochBoundary k) s = .next ((at_.stopChannels k).modSeq k (fun x => { x with waiting := true }))) ∧
      ((∀ p ∈ u.activePorts k, (k, mk) ∈ (u.port p).markers) →
        exec (.epochBoundary k) s = .next (at_.passBoundary k (q.epochs + 1)))) ∧
    (∀ ns, q.waiting = true →
      ((∀ p ∈ q.waitPorts, (k, q.marker q.epochs) ∈ (s.port p).markers) → exec (.barrierResume k ns) s =
        .next (((s.resumeChannels k ns).modCo k (fun c => { c with tor := { c.tor with
          barrierNs := c.tor.barrierNs + BitVec.ofNat 64 ns } })).passBoundary k q.epochs)) ∧
      ((∃ p ∈ q.waitPorts, (k, q.marker q.epochs) ∉ (s.port p).markers) → exec (.barrierResume k ns) s = .next s)) ∧
    ∀ p : BitVec 3,
      let leaves (t : State) (e : Nat) : State := (t.modSeq k (fun x => { x with marked := p.toNat :: x.marked })).send p.toNat
        (.marker k (BitVec.ofNat 32 ((t.co k).seq.startEpoch.toNat + e)))
      (p.toNat ∈ s.unmarked k →
        (q.state = .armed → exec (.markerSend k p) s = .next (leaves s 0)) ∧
        ∀ t, q.state ≠ .armed → s.stageFrom k (65536 * (q.epochs + 1) - s.lead p.toNat) = some t → (t.co k).seq.state ≠ .armed →
          exec (.markerSend k p) s = .next (leaves t ((t.co k).seq.epochs + 1))) ∧
      (p.toNat ∉ s.unmarked k → exec (.markerSend k p) s = .next s) ∧
      ∀ e, (p.toNat ∈ s.activePorts k → ∃ t, exec (.markerReceive k p e) s = .next t ∧ (k, e) ∈ (t.port p.toNat).markers ∧
          (∀ m ∈ (s.port p.toNat).markers, m ∈ (t.port p.toNat).markers) ∧ (∀ r, r ≠ p.toNat → t.port r = s.port r) ∧ t.cos = s.cos) ∧
        (p.toNat ∉ s.activePorts k → exec (.markerReceive k p e) s = .next s)

/-- The three hold conditions in arithmetic modulo 2^32, and a condition once met stays met (R156). -/
def Obligations.HoldConditionsAndTheirMemory : Prop :=
  (∀ c v : Word, (condHolds 0 c v = true ↔ (c.toNat + 2 ^ 32 - v.toNat) % 2 ^ 32 < 2 ^ 31) ∧ (condHolds 1 c v = true ↔ c = v) ∧
    (condHolds 2 c v = true ↔ ∀ i, i < 32 → v.getLsbD i = true → c.getLsbD i = true)) ∧
    ∀ (s : State) (i amount k : Nat), (s.co k).seq.met = true → ((s.addCtr i amount).co k).seq.met = true

/-- Entering, releasing and resuming a hold, the long-hold warning after WARN_MS, the curtain's post and the report's landing (R86, R155,
R157, R158, R161, R166, R258, R463). -/
def Obligations.HoldEventsComplete : Prop :=
  ∀ (s : State) (k : Nat), k < 16 →
    let q := (s.co k).seq
    (∀ u n e, q.cyclesToHold = some n → q.image.bind (fun i => i.holds[q.nextHold]?) = some e → q.advancing = true →
      n < 65536 * (q.epochs + 1) - q.stageCycle.toNat → (q.cyclesLeft (s.co k).upd.recastArmed).elim True (fun m => n < m) →
      s.stageBy k n = some u →
      let v := u.prechargeAll k
      let step := BitVec.ofNat 16 (v.co k).seq.step.toNat
      exec (.holdEnter k) s = .next ((v.modSeq k (fun x => { x with
        state := .held, held := true, heldSince := v.nowNs, heldStale := false, entry := BitVec.ofNat 12 q.nextHold,
        nextHold := q.nextHold + 1, met := false, longLogged := false, pendingPorts := pendingOf e.ports q.nextHold step (v.co k).seq.releases,
        releases := x.releases.filter (fun r => !(decide (r.2.1 = BitVec.ofNat 12 q.nextHold) && decide (r.2.2 = step))) })).enterCond
          k q.nextHold e)) ∧
    (∀ (p : BitVec 3) entry step, (s.activePorts k).contains p.toNat = true →
      (q.held = true → q.entry = entry → step = BitVec.ofNat 16 q.step.toNat → exec (.releaseReceive k p entry step) s =
        .next (s.modSeq k (fun x => { x with pendingPorts := x.pendingPorts &&& ~~~((1 : Byte) <<< (7 - p.toNat)) }))) ∧
      ((q.held = false ∨ q.entry ≠ entry ∨ step ≠ BitVec.ofNat 16 q.step.toNat) → (p.toNat, entry, step) ∉ q.releases →
        exec (.releaseReceive k p entry step) s = .next (s.modSeq k (fun x => { x with releases := x.releases ++ [(p.toNat, entry, step)] })))) ∧
    (∀ e ns guardNs, q.hold = some e → q.met = true → q.pendingPorts = 0 → s.nowNs ≤ q.heldSince + ns →
      let u := ((s.modSeq k (fun x => { x with state := .running, held := false, holdNs := x.holdNs + BitVec.ofNat 64 ns })).reopenRows k ns).countDead k
      (e.kind = 0 ∨ e.kind = 2 → exec (.holdResume k ns guardNs) s = .next u) ∧
      (e.kind = 1 → exec (.holdResume k ns guardNs) s =
        .next ((u.modPak k (fun p => { p with holdNs := p.holdNs + BitVec.ofNat 64 guardNs })).curtainAct k)) ∧
      (e.kind = 3 → exec (.holdResume k ns guardNs) s = .next (u.modFar k (fun f => f.leaveHold (s.roundDue k q.entry.toNat))))) ∧
    (∀ e ns guardNs, q.hold = some e → (q.met = false ∨ q.pendingPorts ≠ 0) → exec (.holdResume k ns guardNs) s = .next s) ∧
    (∀ e, q.hold = some e → let warn := if e.warnMs = 0 then 10000 else e.warnMs
      (q.longLogged = false → q.heldSince + 1000000 * warn ≤ s.nowNs → exec (.holdLong k) s =
        .next ((s.modSeq k (fun x => { x with longLogged := true })).log 1 k 1 k 0x0B04#16 [(12, q.entry.toNat), (8, q.pendingPorts.toNat)])) ∧
      ((q.longLogged = true ∨ s.nowNs < q.heldSince + 1000000 * warn) → exec (.holdLong k) s = .next s)) ∧
    (∀ im u, q.image = some im → im.update = some u → (s.co k).upd.curtainPostDue = true → q.held = false → q.waiting = false →
      exec (.curtainPost k) s = .next ((s.modUpd k (fun x => { x with curtainPostDue := false })).stagePost k u.ctrIndex u.ctrGen 1)) ∧
    ∀ im r step attempt bs rest, q.image = some im → im.rmon = some r → (s.co k).mon.pending = (step, attempt, bs) :: rest →
      let e := step % 2 ^ r.depthLog2
      exec (.rmonReportLanded k) s = .next (((s.dramWrite (r.base + e * bs.length) bs).modCo k (fun c => { c with mon := { c.mon with
        pending := rest, valid := true, lastEntry := BitVec.ofNat 6 e, repStep := BitVec.ofNat 48 step,
        repAttempt := BitVec.ofNat 16 attempt } })).stagePost k r.ctrIndex r.ctrGen 1)

/-- A complete curtain commits exactly when entries 0 to 4 of its tail allow it, and otherwise skips the step (R247, R257, R258,
R259, R263). -/
def Obligations.CurtainFlipsBankOnlyOnCommit : Prop :=
  ∀ (s : State) (k : Nat) (im : Image) (u : UpdSection),
    let q := (s.co k).seq
    let x := (s.co k).upd
    q.image = some im → im.update = some u → x.tailSeen = true → s.passComplete k u = true → x.faults.toNat ≤ x.placedFaults.toNat →
    let t := s.curtainAct k
    let y := (t.co k).upd
    let commits := x.tail.getD 0 0 = 0 ∧ x.tail.getD 1 0 = 0 ∧ x.tail.getD 2 0 = 0 ∧ (x.tail.getD 3 0).toNat = im.axes.foldl (· * ·) 1 ∧
      x.tail.getD 4 0 = 0
    y.nonfinite = 0 ∧ y.faults = 0 ∧ y.tailSeen = false ∧ y.curtainPostDue = true ∧
    (commits → y.committed = (!x.committed) ∧ y.commits = x.commits + 1 ∧ y.skipsRun = 0 ∧ y.verdict = .commit ∧ y.digest = x.passDigest ∧
      (t.co k).seq.attempt = q.attempt) ∧
    (¬ commits → y.committed = x.committed ∧ y.commits = x.commits ∧ y.digest = x.digest ∧ y.powers = x.powers ∧ y.skipsTotal = x.skipsTotal + 1 ∧
      y.recastArmed = true ∧ y.verdict = .skip ∧ (t.co k).seq.attempt = q.attempt + 1)

/-- A shard starts, gradient lines are buffered, enter the pipeline and leave it, the tail is delivered, the recast phase starts
(R237, R238, R249, R251, R252, R256, R261). -/
def Obligations.UpdateEngineEventsComplete : Prop :=
  (∀ (s t : State) (e : Nat), e < 48 →
    let k := s.quarterOwner e
    let q := (s.co k).seq
    (∀ u sh, s.shardNow e = some (u, sh) → (q.phase = .step ∨ q.phase = .reshardWait) → (s.engine e).started = false →
      s.stageFrom k (q.issueBase + sh.start) = some t →
      exec (.updShardStart e) s = .next (t.modEngine e (fun x => { x with started := true, startAt := q.issueBase + sh.start }))) ∧
    (∀ x, (s.co k).col.forEngine.find? (fun x => x.1 = e) = some x → s.stageFrom k x.2.1 = some t → t.quarterOwner e = k →
      let r := t.modCol k (fun c => { c with forEngine := c.forEngine.erase x })
      let none_ : Prop := r.shardNow e = none ∨ (r.engine e).recast = true
      (none_ → exec (.updGradientLine e) s = .next ((r.addFaults k 1).log 4 e 2 k 0x0A06#16 [(6, e)])) ∧
      (¬ none_ → 8192 ≤ (r.engine e).buffer.length →
        exec (.updGradientLine e) s = .next ((r.addFaults k 1).log 4 e 2 k 0x0A05#16 [(6, e), (16, (r.engine e).shard)])) ∧
      (¬ none_ → (r.engine e).buffer.length < 8192 →
        exec (.updGradientLine e) s = .next (r.modEngine e (fun y => { y with buffer := y.buffer ++ [(x.2.1, x.2.2)] })))) ∧
    (∀ u sh l handed rest v, s.shardNow e = some (u, sh) → (s.engine e).buffer = (handed, l) :: rest → (s.engine e).recast = false →
      let first := sh.perLine * (s.engine e).linesTaken
      let n := min sh.perLine (sh.elements - first)
      (s.engine e).entryCycle sh handed first n = some v → s.stageFrom k v = some t →
      ∃ z p, exec (.updLineEnter e) s = .next z ∧ (z.engine e).buffer = rest ∧ (z.engine e).pipe = (t.engine e).pipe ++ [p] ∧
        p.entered = v ∧ p.first = first ∧ p.fields.length = sh.fields ∧
        p.grads = (gradElems sh.gbf16 l n).map (fun w => if (f32dec w).nonFinite then 0#32 else w) ∧
        (∀ d, d ≠ e → z.engine d = t.engine d)) ∧
    ∀ l rest u sh p, (s.engine e).pipe = l :: rest → s.updOf e = some u → (u.shardsOf e)[l.shard]? = some sh → u.programs[sh.program]? = some p →
      s.stageFrom k l.leavesLast = some t →
      let r := lineResults p (t.co k).upd sh l
      let sum := iter r.1.length (fun i a => a + digestTerm (sh.base + l.first + i) ((r.1.getD i []).take sh.fields)) 0
      ∃ z copy, exec (.updElementExit e) s = .next z ∧ (z.engine e).pipe = rest ∧
        (z.engine e).writes = (t.engine e).writes ++ fieldWrites sh (sh.bank (!(t.co k).upd.committed)) l.first (l.entered + 272) r.1 ++ copy ∧
        (sh.nocopy = true → copy = []) ∧
        (z.co k).upd.passDigest = (t.co k).upd.passDigest + (if sh.digest then BitVec.ofNat 64 sum else 0)) ∧
  ∀ (s t : State) (k : Nat) (im : Image) (u : UpdSection), k < 16 → (s.co k).seq.image = some im → im.update = some u →
    (∀ v l, (s.co k).col.tail = some (v, l) → s.stageFrom k v = some t → exec (.curtainTailDelivered k) s =
      .next (((t.modCol k (fun c => { c with tail := none })).dramWrite u.tailRecord (leBytes 256 l.toNat)).modUpd k (fun x =>
        { x with tail := tailEntries l, tailSeen := true }))) ∧
    ((s.co k).seq.phase = .recast → (s.co k).upd.recastArmed = true → (s.co k).seq.advancing = true → exec (.recastPhaseStart k) s =
      .next ((s.engineList k).foldl (fun r e => r.modEngine e (fun x =>
          ({ x.fresh with recast := true, startAt := (s.co k).seq.issueBase } : Engine).recastNext (u.shardsOf e)))
        ((s.modUpd k (fun x => { x with recastArmed := false })).modCol k (fun x => { x with next := [] }))))

/-- New fields are written where the group layout of a bank puts them, 32 elements in the cycle in which they leave the pipeline, and every
instruction of a program leaves the engine's registers finite (R237, R239, R250, R251, R252). -/
def Obligations.UpdateFieldsStayFiniteAndInTheirLayout : Prop :=
  (∀ (sh : Shard) (base g leaves : Nat) (news : List (List Word)), 1 ≤ sh.fields → sh.fields ≤ 4 →
    let ws := fieldWrites sh base (64 * g) leaves news
    (∀ i f, i < news.length → f < sh.fields →
      let a := base + 256 * (sh.fields * (g + i / 64) + f) + 4 * (i % 64)
      ∃ w ∈ ws, w.addr ≤ a ∧ a + 4 ≤ w.addr + w.data.length ∧ w.due = leaves + i / 32 ∧
        leNat ((w.data.drop (a - w.addr)).take 4) = ((news.getD i []).getD f 0).toNat) ∧
    ∀ w ∈ ws, base + 256 * (sh.fields * g) ≤ w.addr ∧ w.addr + w.data.length ≤ base + 256 * (sh.fields * (g + (news.length + 63) / 64))) ∧
  let finite := fun w => (f32dec w).nonFinite = false
  (∀ block ks bs w lanes out, (∀ us ∈ lanes, ∀ u ∈ us, finite u) → updInstr block ks bs w lanes = some out →
    ∀ us ∈ out, ∀ u ∈ us, finite u) ∧
    updLaneOp 0x0C 0x00000000#32 0 0 = some 0x7F7FFFFF#32 ∧ updLaneOp 0x0C 0x80000000#32 0 0 = some 0xFF7FFFFF#32 ∧
    updLaneOp 0x0D 0x00000000#32 0 0 = some 0x7F7FFFFF#32 ∧ updLaneOp 0x0D 0x80000000#32 0 0 = some 0x7F7FFFFF#32 ∧
    (∀ a b c, (f32dec a).isZero = false → (f32dec a).sign = true → finite a → updLaneOp 0x0D a b c = some 0 ∧ updLaneOp 0x0E a b c = some 0) ∧
    ∀ a b c, (f32dec a).isZero = true → updLaneOp 0x0E a b c = some 0

/-- A chunk starts and ends, a line leaves, arrives and is handed over, and a re-shard phase ends (R178, R179, R181, R182, R209, R215,
R216, R219, R228, R229). -/
def Obligations.CollectiveEventsComplete : Prop :=
  ∀ (s t : State) (k : Nat), k < 16 →
    let c := s.co k
    (∀ (id : BitVec 16) p ch, c.plan id.toNat = some p → p.chunks[tget 0 c.col.next id.toNat]? = some ch →
      c.seq.starting = false → c.planRuns id.toNat = true → s.stageFrom k (c.seq.issueBase + ch.issue) = some t →
      let i := tget 0 c.col.next id.toNat
      let v := c.seq.issueBase + ch.issue
      let r := if p.permute ∧ ch.send then t.countWord k v ch else (none, t)
      let u := r.2.noteClipped k p i ch (r.1.getD 0)
      exec (.collectiveChunkStart k id) s = .next (u.modCol k (fun x => { x with
        next := tset 0 x.next id.toNat (i + 1),
        active := x.active ++ [{ plan := id.toNat, index := i, chunk := ch, fetch := u.fetchOrder k p ch, fetchAt := v,
                                 count := min (r.1.getD ch.lines) ch.lines, lastEvent := v }] }))) ∧
    (∀ (p : BitVec 3) cycle l, s.restoreOn true k p.toNat = none → s.stageAt k cycle = some t →
      transmitAt ((t.co k).laneCount p.toNat) cycle = true → tget 0 (t.port p.toNat).sentAt k ≤ cycle → t.nextLine k p.toNat cycle = some l →
      let n := tget 0 (t.port p.toNat).seqTx k
      let frame : Frame := .line k l.plan n (BitVec.ofNat 16 cycle) l.data
        (crc32 (leBytes 1 k ++ leBytes 2 l.plan ++ leBytes 2 n.toNat ++ leBytes 2 (BitVec.ofNat 16 cycle).toNat ++ leBytes 256 l.data.toNat))
      ∃ z, exec (.torusLineSend k p cycle) s = .next z ∧ (z.port p.toNat).txq = (t.port p.toNat).txq.erase l ∧
        tget 0 (z.port p.toNat).sentAt k = cycle + 1 ∧
        (l.blank = false → (t.port p.toNat).state = .active → z.tor.tx = (p.toNat, frame) :: t.tor.tx ∧ tget 0 (z.port p.toNat).seqTx k = n + 1) ∧
        (l.blank = true → z.tor.tx = t.tor.tx ∧ tget 0 (z.port p.toNat).seqTx k = n)) ∧
    (∀ (p : BitVec 3) (plan seq cycle : BitVec 16) data place, (s.port p.toNat).state = .active → s.laneLost k p.toNat = false →
      s.restoreOn false k p.toNat = none → c.onPort p.toNat = true → seq = tget 0 (s.port p.toNat).seqRx k →
      (c.plan plan.toNat).isSome = true → ((s.port p.toNat).recv.filter (fun l => l.company = k)).length < 192 * c.laneCount p.toNat →
      let now := c.seq.stageCycle.toNat
      let due := nearCycle now ((cycle + 2048).toNat)
      ∃ z, exec (.torusLineReceive k p plan seq cycle data (crc32 (lineFrameBytes k plan.toNat seq cycle data)) place) s = .next z ∧
        (z.port p.toNat).recv = (s.port p.toNat).recv ++ [
          { company := k, plan := plan.toNat, place := place, due := max due now, late := now - due, issue := 0, rank := 0, forwarded := false,
            data := data }] ∧
        tget 0 (z.port p.toNat).seqRx k = seq + 1 ∧ z.cos = s.cos ∧ z.err = s.err) ∧
    (∀ (p : BitVec 3) cycle l pl ch, (s.port p.toNat).recv.find? (fun l => decide (l.company = k) && decide (l.due ≤ cycle)) = some l →
      l.late = 0 → s.stageAt k cycle = some t → (t.co k).plan l.plan = some pl → pl.chunks[l.place.chunk]? = some ch →
      let u := t.modPort p.toNat (fun x => { x with recv := x.recv.erase l })
      exec (.torusLineHandover k p cycle) s = .next (if pl.permute then u.permuteLine k pl l.place.chunk ch l.place cycle l.data
        else u.sumLine k pl l.place.chunk ch l.place cycle l.data)) ∧
    (∀ (id : BitVec 16) p a, c.plan id.toNat = some p → c.col.active.find? (fun a => a.plan = id.toNat) = some a → s.chunkEnded k p a = true →
      s.stageFrom k (a.lastEvent + 2) = some t →
      (∀ im u, (t.co k).seq.image = some im → im.update = some u → u.digestPlan ≠ id.toNat) →
      let r := t.modCol k (fun x => { x with
        active := x.active.filter (fun b => decide (b.plan ≠ id.toNat) || decide (b.index ≠ a.index)), chunks := x.chunks + 1 })
      exec (.collectiveChunkDone k id) s = .next (if p.amount = 0 then r else r.stagePost k p.ctrIndex p.ctrGen p.amount)) ∧
    ∀ ps epochs ctr gen, c.col.reshard = some (ps, epochs, ctr, gen) → c.seq.phase = .reshard → 65536 * epochs ≤ c.seq.phaseCycle →
      (∀ p ∈ ps, c.col.missingOf p = 0) →
      exec (.reshardPhaseEnd k) s = .next (((s.haltScript k).modCol k (fun x => { x with reshardResult := 1 })).stagePost k ctr gen 1)

/-- The shards of a half cover it without overlap, and add() of a sum acts on each element in the format of the plan (R212, R214).
-/
def Obligations.SumPartitionAndAddition : Prop :=
  (∀ (ls : List Nat) (len : Nat), 1 ≤ len →
    plusHalf ls ++ minusHalf ls = ls ∧ (plusHalf ls).length = (ls.length + 1) / 2 ∧
    ∀ half : List Nat, (List.range len).flatMap (shardLines half len) = half ∧
      ∀ j, j < len → (shardLines half len j).length = (j + 1) * half.length / len - j * half.length / len ∧
        ∀ i, j * half.length / len ≤ i → i < (j + 1) * half.length / len → half[i]? = (shardLines half len j)[i - j * half.length / len]?) ∧
  (∀ a b : Line,
    (∀ i, i < 64 → lineBits (addLines 0 a b) (32 * i) 32 =
      (fadd (BitVec.ofNat 32 (lineBits a (32 * i) 32)) (BitVec.ofNat 32 (lineBits b (32 * i) 32))).toNat) ∧
    (∀ i, i < 128 → lineBits (addLines 1 a b) (16 * i) 16 =
      (bfpack ((bfdec (BitVec.ofNat 16 (lineBits a (16 * i) 16))).add (bfdec (BitVec.ofNat 16 (lineBits b (16 * i) 16))))).toNat) ∧
    (∀ i, i < 64 → lineBits (addLines 2 a b) (32 * i) 32 = (lineBits a (32 * i) 32 + lineBits b (32 * i) 32) % 2 ^ 32) ∧
    ∀ i, i < 32 → lineBits (addLines 3 a b) (64 * i) 64 = (lineBits a (64 * i) 64 + lineBits b (64 * i) 64) % 2 ^ 64)

/-- Lost, overflowing, unplanned and late torus lines each count an uncorrected fault of the step; a frame that fails its CRC, or comes on a
failed lane, leaves no trace (R181, R182, R183, R193, R206). -/
def Obligations.TorusLineLossesCountFaults : Prop :=
  ∀ (s : State) (k : Nat) (p : BitVec 3) (plan seq cycle : BitVec 16) (data : Line) (crc : Word) (place : LinePlace), k < 16 →
    let x := s.port p.toNat
    let n := (seq - tget 0 x.seqRx k).toNat
    let room := (x.recv.filter (fun l => l.company = k)).length < 192 * (s.co k).laneCount p.toNat
    let faults := fun (t : State) => (t.co k).upd.faults.toNat
    let good : Prop := crc = crc32 (lineFrameBytes k plan.toNat seq cycle data)
    ((x.state ≠ .active ∨ ¬ good ∨ s.laneLost k p.toNat = true) → exec (.torusLineReceive k p plan seq cycle data crc place) s = .next s) ∧
    (x.state = .active → good → s.laneLost k p.toNat = false → s.restoreOn false k p.toNat = none → (s.co k).onPort p.toNat = true →
      ∃ t, exec (.torusLineReceive k p plan seq cycle data crc place) s = .next t ∧
        (t.port p.toNat).lost = satAdd x.lost n ∧ tget 0 (t.port p.toNat).seqRx k = seq + 1 ∧
        ((s.co k).plan plan.toNat = none → faults t = min (2 ^ 32 - 1) (faults s + n + 1) ∧ (t.port p.toNat).recv = x.recv) ∧
        ((s.co k).plan plan.toNat ≠ none →
          (room → faults t = min (2 ^ 32 - 1) (faults s + n) ∧ (t.port p.toNat).recv.length = x.recv.length + 1 ∧ (t.port p.toNat).overflow = x.overflow) ∧
          (¬ room → faults t = min (2 ^ 32 - 1) (faults s + n + 1) ∧ (t.port p.toNat).recv = x.recv ∧ (t.port p.toNat).overflow = satAdd x.overflow 1))) ∧
    ∀ c l u, x.recv.find? (fun l => decide (l.company = k) && decide (l.due ≤ c)) = some l → 0 < l.late → s.stageAt k c = some u →
      (u.co k).plan l.plan = none → ∃ t, exec (.torusLineHandover k p c) s = .next t ∧ (t.port p.toNat).recv = (u.port p.toNat).recv.erase l ∧
        (t.port p.toNat).late = satAdd (u.port p.toNat).late 1 ∧ faults t = min (2 ^ 32 - 1) (faults u + 1)

/-- RMON_SET_SCALE, UPD_SET_CONST, COL_RESHARD, PAK_SNAP_SET and FAR_RUN are staged with DONE, and what each does when its curtain
acts (R94, R95, R227, R228, R266, R267, R276, R277, R335, R384, R406). -/
def Obligations.StagedCurtainCommandsComplete : Prop :=
  (∀ (s c : State) (j : Journal) (h : Pkt), h.txn ≠ 0 →
    let k := c.queueCo h.queue
    (∀ unit (index : BitVec 10) slot (v : BitVec 8), s.serving (.rmonSetScale h unit index slot v) = some (j, c) → -64 ≤ v.toInt → v.toInt ≤ 63 →
      ((unit = true ∧ index.toNat < 48 ∧ slot.toNat < 16 ∧ (k = 0 ∨ (c.co k).quarters.getLsbD index.toNat = true)) ∨
        (unit = false ∧ k ≠ 0 ∧ ∃ r, (c.co k).rect = some r ∧ index.toNat / 32 < r.rows ∧ index.toNat % 32 < r.cols) ∨
        (unit = false ∧ k = 0 ∧ index.toNat / 32 < c.grid)) → exec (.rmonSetScale h unit index slot v) s =
        .next ((c.stagedInto k (.rmonSetScale h unit index slot v)).answered j 0x00 [])) ∧
    (∀ program index v im u, s.serving (.updSetConst h program index v) = some (j, c) → (c.co k).seq.image = some im → im.update = some u →
      program.toNat < u.programs.length → (f32dec v).nonFinite = false → exec (.updSetConst h program index v) s =
        .next ((c.stagedInto k (.updSetConst h program index v)).answered j 0x00 [])) ∧
    (∀ a n e i g, s.serving (.colReshard h a n e i g) = some (j, c) → reshardCheck a.toNat n.toNat e.toNat i.toNat c k = none →
      exec (.colReshard h a n e i g) s =
        .next ((c.stagedInto k (.colReshard h a n e i g)).answered j 0x00 [])) ∧
    (∀ en ev l d q g x p w, s.serving (.pakSnapSet h en ev l d q g x p w) = some (j, c) →
      snapCheck (BitVec.toNat ev) (BitVec.toNat l) d (BitVec.toNat q) g x p w c k = none → exec (.pakSnapSet h en ev l d q g x p w) s =
        .next ((c.stagedInto k (.pakSnapSet h en ev l d q g x p w)).answered j 0x00 [])) ∧
    (∀ a n en, s.serving (.farRun h a n en) = some (j, c) → farCheck (BitVec.toNat a) (BitVec.toNat n) en c k = none →
      exec (.farRun h a n en) s =
        .next ((c.stagedInto k (.farRun h a n en)).answered j 0x00 []))) ∧
  ∀ (s : State) (k : Nat) (h : Pkt) (commit : Bool),
    (∀ p i v, s.applyCurtain k commit (.updSetConst h p i v) =
      s.modUpd k (fun x => { x with consts := tset 0 x.consts (16 * p.toNat + i.toNat) v })) ∧
    (∀ i slot v, s.applyCurtain k commit (.rmonSetScale h true i slot v) =
      s.modEngine i.toNat (fun e => { e with rmon := tmod {} e.rmon slot.toNat (fun r => { r with scaleExp := v }) })) ∧
    (∀ i slot v p, s.relPhys k (i.toNat / 32) (i.toNat % 32) = some p → k ≠ 0 → s.applyCurtain k commit (.rmonSetScale h false i slot v) =
      s.modCore p (fun c => { c with rmon := tmod {} c.rmon slot.toNat (fun r => { r with scaleExp := v }) })) ∧
    (∀ a n e i g, s.applyCurtain k false (.colReshard h a n e i g) =
      (s.modCol k (fun c => { c with reshardState := 0, reshardResult := 2 })).stagePost k i.toNat g 1) ∧
    (∀ a n e i g, let t := s.applyCurtain k true (.colReshard h a n e i g)
      (t.co k).col.reshardState = 1 ∧ (t.co k).seq.phase = .reshardWait ∧ ∃ ps, (t.co k).col.reshard = some (ps, e.toNat, i.toNat, g)) ∧
    (∀ en ev l d q g x p w, s.applyCurtain k commit (.pakSnapSet h en ev l d q g x p w) = s.modPak k (fun y => { y with
      enable := en, every := BitVec.toNat ev, list := s.readBankList k (BitVec.toNat l), dest := d, queue := BitVec.toNat q, queueGen := g,
      cipher := x, pack := p, width := w })) ∧
    (∀ a n, let t := s.applyCurtain k commit (.farRun h a n false)
      (t.co k).far.table = none ∧ (t.co k).far.enabled = false ∧ (t.co k).far.phase = .idle ∧ (t.co k).far.inRound = false) ∧
    ∀ a n x e, readRoundTable s k (BitVec.toNat a) (BitVec.toNat n) = some (x, e) → let t := s.applyCurtain k commit (.farRun h a n true)
      (t.co k).far.table = some x ∧ (t.co k).far.enabled = true ∧ (t.co k).far.phase = .idle ∧ (t.co k).far.inRound = false ∧
        (t.co k).far.gateway = decide (x.gatewayIndex ≠ 0xFFFF)

/-- Stage commands of every kind and refreshes of a channel, extra refreshes of a hold, and when each is issued: a slot carries one command,
the intervals of the bank have passed, and the update engine goes before the collective engine and both before the fly engine (R148, R150,
R151, R157, R207, R258, R515). -/
def Obligations.DramControllerEventsComplete : Prop :=
  ∀ (s : State) (c slot : Nat), c < 384 →
    let k := s.channelCo c
    let x := s.chanTo c slot
    ((s.co k).seq.advancing = true → (s.chan c).slot ≤ slot →
      (s.co k).seq.stageCycle.toNat ≤ 7 * slot / 4 + 48 → 7 * slot / 4 < s.stageEnd k → refreshSlot c slot = false →
      s.wingsSlot c slot = false → s.stageSlot c slot = true) ∧
    (s.stageSlot c slot = true →
      (∀ bank row, bank < 48 → row < 21845 ∨ (row = 21845 ∧ bank < 16) → tget 0 x.rows bank = 0 →
        (tget 0 x.prechargedAt bank = 0 ∨ tget 0 x.prechargedAt bank - 1 + 8 ≤ slot) →
        (tget 0 x.activatedAt bank = 0 ∨ tget 0 x.activatedAt bank - 1 + 32 ≤ slot) → tget 0 x.freeAt bank ≤ slot →
        exec (.dramStageAccess c slot (.activate bank row)) s = .next (s.modChan c (fun _ => { x with
          slot := slot + 1, rows := tset 0 x.rows bank (row + 1), activatedAt := tset 0 x.activatedAt bank (slot + 1) }))) ∧
      (∀ bank, tget 0 x.rows bank ≠ 0 → (tget 0 x.accessedAt bank = 0 ∨ tget 0 x.accessedAt bank - 1 + 4 ≤ slot) → tget 0 x.freeAt bank ≤ slot →
        exec (.dramStageAccess c slot (.precharge bank)) s = .next (s.modChan c (fun _ => { x with
          slot := slot + 1, rows := tset 0 x.rows bank 0, prechargedAt := tset 0 x.prechargedAt bank (slot + 1) }))) ∧
      (∀ a, chanOf a = c → x.canAccess (bankOf a) (rowOf a) slot = true →
        let n := s.modChan c (fun _ => { x with slot := slot + 1, accessedAt := tset 0 x.accessedAt (bankOf a) (slot + 1) })
        (s.updReadIn c slot = some a → exec (.dramStageAccess c slot (.engineRead a)) s = .next (
          let u := n.updRead (c / 8) slot a
          if (u.engine (c / 8)).recast then State.recastGroups 64 u (c / 8) else u)) ∧
        (∀ y i, s.updReadIn c slot ≠ some a → s.updTakes c slot = false → s.colReadIn c slot = some (y, i) → y.readAddr i = a →
          exec (.dramStageAccess c slot (.engineRead a)) s = .next (n.colRead k slot y i)) ∧
        (∀ w, s.updWriteIn c slot = some w → w.addr = a → exec (.dramStageAccess c slot (.engineWrite a)) s =
          .next ((n.dramWrite a w.data).modEngine (c / 8) (fun y => { y with writes := y.writes.erase w }))) ∧
        (∀ w, s.updTakes c slot = false → s.colWriteIn c slot = some w → w.addr + 64 * w.access = a →
          exec (.dramStageAccess c slot (.engineWrite a)) s = .next (n.colWrite k w)) ∧
        (∀ j w ws, (s.co j).upd.posted = w :: ws → w.addr = a → exec (.dramStageAccess c slot (.postedWrite j)) s =
          .next ((n.dramWrite a (w.data.take 64)).modUpd j (fun u => { u with
            posted := if w.data.length ≤ 64 then ws else { addr := a + 64, data := w.data.drop 64 } :: ws }))) ∧
        ∀ e f p, (s.fly e).active = some f → (s.fly e).addr f = a → (s.fly e).startAt ≤ 7 * slot / 4 →
          s.relPhys (s.quarterOwner e) f.lrow f.lcol = some p → s.updTakes c slot = false → s.colTakes c slot = false →
          (f.kind ≠ 2 ∨ (s.fly e).access ≠ 0 → exec (.dramStageAccess c slot (.flyAccess e)) s = .next (n.flyAccess e slot p f)) ∧
          ∀ t, f.kind = 2 → (s.fly e).access = 0 → s.flyFetch e slot p f = (t, true) →
            exec (.dramStageAccess c slot (.flyAccess e)) s = .next ((t.noteAccess c slot a).flyAccess e slot p f))) ∧
    (c % 24 ≤ slot → slot % 24 = c % 24 → (s.co k).seq.advancing = true → (s.chan c).slot ≤ slot → 7 * slot / 4 < s.stageEnd k →
      ∃ z : Channel, exec (.dramRefresh c slot) s = .next (s.modChan c (fun _ => z)) ∧ z.slot = slot + 1 ∧
        z.lastRefreshed = some (slot / 24 % 48) ∧ tget 0 z.freeAt (slot / 24 % 48) = slot + 160 ∧ z.rows = (s.chan c).rows) ∧
    ∀ elapsed, elapsed % 24 = 23 → (s.co k).seq.advancing = false → ((s.co k).seq.held = true ∨ (s.co k).seq.waiting = true) →
      (s.chan c).heldSlot ≤ elapsed →
      ∃ z : Channel, exec (.extraRefresh c elapsed) s = .next (s.modChan c (fun _ => z)) ∧ z.heldSlot = elapsed + 1 ∧
        (let b := ((s.chan c).lastRefreshed.elim 0 (fun b => b + 1) + (elapsed / 24 - (s.chan c).heldSlot / 24)) % 48
         z.lastRefreshed = some b ∧ tget 0 z.freeAt b = elapsed + 160)

/-- A wings access of BAR2 waits in arrival order and goes ahead in a wings slot that nothing has used, whose bank is precharged, not
refreshing, not about to be refreshed and wanted by no stage command; it takes the slot, and its bank for 32 slots (R17, R21, R150, R152,
R153, R157, R470, R515). -/
def Obligations.WingsAccessGoesAheadInItsSlot : Prop :=
  ∀ (s : State) (c slot f addr : Nat) (data : Option (BitVec 512)) (soon : Bool), c < 384 → addr < dramBytes → chanOf addr = c →
    s.bar2Reach f addr = true →
    let r : WingsReq := { master := .bar2 f, addr := addr, data := data }
    let advancing := (s.co (s.channelCo c)).seq.advancing
    let x := s.chanTo c slot
    ((s.chan c).waiting = [] → s.slotOpen c slot = true → s.wingsSlot c slot = true → tget 0 x.rows (bankOf addr) = 0 →
      tget 0 x.freeAt (bankOf addr) ≤ slot → s.refreshSoon c slot (bankOf addr) = false → soon = false →
      ∃ n : State, n.dram = s.dram ∧ n.cos = s.cos ∧ (n.chan c).waiting = [] ∧ tget 0 (n.chan c).freeAt (bankOf addr) = slot + 32 ∧
        (if advancing then (n.chan c).slot = slot + 1 else (n.chan c).heldSlot = slot + 1) ∧
        (∀ d, data = some d → exec (.wingsAccess c slot r soon) s = .next (n.dramWrite (addr / 64 * 64) (leBytes 64 d.toNat))) ∧
        (data = none → ∃ t d e, n.eccAccess (s.masterCo (.bar2 f)) (addr / 64 * 64) true (tget 0 s.dramFlips (addr / 64 * 64 / 64)) = (d, e, t) ∧
          exec (.wingsAccess c slot r soon) s = .next { t with answers := { req := r, data := d, error := e } :: t.answers })) ∧
    ((s.chan c).waiting = [] → (s.wingsSlot c slot = false ∨ s.slotOpen c slot = false ∨ soon = true) →
      exec (.wingsAccess c slot r soon) s = .next (s.modChan c (fun x => { x with waiting := [r] }))) ∧
    (advancing = false → ((s.co (s.channelCo c)).seq.held = true ∨ (s.co (s.channelCo c)).seq.waiting = true) →
      (s.wingsSlot c slot = true ↔ slot % 24 ≠ 23)) ∧
    (advancing = false → (s.co (s.channelCo c)).seq.held = false → (s.co (s.channelCo c)).seq.waiting = false → s.wingsSlot c slot = true) ∧
    (slot % 24 ≠ c % 24 → advancing = true → ∀ im, (s.co (s.channelCo c)).seq.image = some im →
      s.wingsSlot c slot = (tget 0 im.masks c).getLsbD (slot % 64)) ∧
    (advancing = true → c % 24 ≤ slot → slot % 24 = c % 24 → s.wingsSlot c slot = false)

/-- A fly command starts at its ISSUE or after the last access of the one before it, its fourth access sends the line, lines leave an edge
source and pass its bridge and row channel in their cycles, and a line is written in its arrival cycle (R36, R37, R147, R148, R149, R157,
R170, R171, R517). -/
def Obligations.FlyCommandsAndMeshArrivals : Prop :=
  (∀ (s : State) (e : Nat), e < 48 →
    let k := s.quarterOwner e
    let q := (s.co k).seq
    (∀ im p f, q.image = some im → im.fly.find? (fun p => p.engine = e) = some p → p.cmds[(s.fly e).next]? = some f →
      (s.fly e).active = none → q.advancing = true → (q.phase = .step ∨ q.phase = .reshardWait) →
      let start := max (q.stageCycle.toNat - q.stepCycle.toNat + f.issue) (s.fly e).lastAccess
      start < s.stageEnd k →
      exec (.flyCommandStart e) s = .next (s.modFly e (fun x => { x with
        active := some f, next := x.next + 1, startAt := start, line := 0, access := 0, ready := none }))) ∧
    ((s.fly e).active ≠ none → exec (.flyCommandStart e) s = .next s)) ∧
  (∀ (s : State) (east : Bool) (rank leave p line : Nat) (part : Bool) (data : Line),
    let r := s.roleOf p
    (∀ m ∈ s.mesh, m.edge = true → m.east = east → m.rank = rank → s.coreCo m.core = s.coreCo p → m.left ≠ leave) →
    ∃ m, s.edgeSend east rank leave p line part data = { s with mesh := s.mesh ++ [m] } ∧ m.core = p ∧ m.line = line ∧ m.part = part ∧
      m.data = data ∧ m.left = leave ∧
      (east = decide (16 ≤ r.lcol) → m.path.map (fun x => x.1) = [4, 2 * ((if r.lcol < 16 then r.lcol else 31 - r.lcol) + 1)]) ∧
      (east ≠ decide (16 ≤ r.lcol) → m.path.map (fun x => x.1) = [0, 12, 2 * ((if r.lcol < 16 then r.lcol else 31 - r.lcol) + 1)])) ∧
  (∀ (s t : State) (e slot p : Nat) (f : FlyCmd) (d : BitVec 512) (x : Bool), f.kind = 1 → (s.fly e).access = 3 →
    let a := f.dram + 256 * f.stride * (s.fly e).line + 192
    s.eccAccess (s.quarterOwner e) a false (tget 0 s.dramFlips (a / 64)) = (d, x, t) → t.fly e = s.fly e →
    let l := putAccess (s.fly e).buffer 3 d
    s.flyAccess e slot p f = ((t.modFly e (fun y => { y with buffer := l })).edgeSend (decide (24 ≤ e)) (64 + e) (7 * slot / 4 + 48) p
      (f.line + (s.fly e).line) false l).modFly e (fun y =>
        if y.line + 1 < f.count then { y with access := 0, line := y.line + 1, ready := none }
        else { y with active := none, access := 0, line := 0, ready := none, lastAccess := 7 * slot / 4 })) ∧
  (∀ (s t : State) (p cycle : Nat), p < 850 → s.stageAt (s.coreCo p) cycle = some t →
    let step := meshStep cycle (t.mesh.filter (fun m => t.coreCo m.core = s.coreCo p))
    ((∀ m ∈ step.2.1, m.core ≠ p) → exec (.meshLineArrival p cycle) s = .next s) ∧
    ((∃ m ∈ step.2.1, m.core = p) → exec (.meshLineArrival p cycle) s = .next (t.stageTo (s.coreCo p) (cycle + 1)))) ∧
  (∀ (s : State) (k v : Nat),
    let mine := s.mesh.filter (fun m => s.coreCo m.core = k)
    mine ≠ [] →
    let r := meshStep v mine
    ∃ u : State, u.mesh = s.mesh.filter (fun m => s.coreCo m.core ≠ k) ++ r.1 ∧ u.cores = s.cores ∧
      s.meshCycle k v = r.2.1.foldl (fun s m => s.onCore m.core (fun c => c.inbound (s.slotCtx m.core) v m)) u) ∧
  ∀ (x : SlotCtx) (c : Core) (cycle : Nat) (m : MeshLine), m.part = false → cycle + 1 ≤ (c.runToStage x (cycle + 1) cycle).stageCycle →
    c.inbound x cycle m = (c.runToStage x (cycle + 1) cycle).tileWrite (256 * m.line) (leBytes 256 m.data.toNat)

/-- The form pass, its end, the sealing, the opening and the apply pass of a round each complete in the phase in which they are due (R309,
R316, R317, R318, R319, R328, R329, R332). -/
def Obligations.FarRoundPassesComplete : Prop :=
  ∀ (s : State) (k : Nat) (x : FarCtx), k < 16 → s.roundCtx k = some x →
    let f := (s.co k).far
    let q := (s.co k).seq
    let stepBegan := q.stageCycle.toNat - q.stepCycle.toNat
    let inc := fun (i : Nat) => ({ src := .engine k ((s.absChan k x.t.channel).getD 0), index := x.t.ctrs.getD i 0, gen := x.t.gens.getD i 0,
                                   amount := 1 } : Inc)
    (∀ u t, q.image.bind (fun i => i.update) = some u → f.phase = .form → f.formDone = false → q.step.toNat = f.s0 + 1 → q.phase = .step →
      s.passComplete k u = true → s.stageFrom k (stepBegan + x.t.formStart) = some t →
      exec (.formPass k) s = .next ((x.ps.foldl (fun s' p => s'.formParcel k x.r f.copy (s'.co k).upd.committed p.1 p.2) t).modFar k
        (fun g => { g with formDone := true }))) ∧
    (f.inRound = true → f.phase = .form → f.formDone = true → ∃ t, exec (.formDone k) s = .next t ∧ (t.co k).far.phase = .sealing ∧
      (t.co k).far.taken = 0 ∧ (t.co k).far.finished = 0 ∧ t.dram = s.dram) ∧
    (f.phase = .sealing → f.finished = x.ps.length → (∀ w ∈ s.wingsOut, w.master ≠ .far k) → ∃ t, exec (.sealComplete k) s = .next t ∧
      (t.co k).far.phase = .send ∧ t.incWings = s.incWings ++ (if f.gateway then [inc 0] else [inc 0, inc 1])) ∧
    (∀ d, f.ownerRecord = some d → f.phase = .opening → f.put = false → tget 0 f.votes 19 = 0 → f.finished = (openList x d).length →
      ∃ t, exec (.openComplete k) s = .next t ∧ (t.co k).far.decision = some d ∧ (t.co k).far.put = true ∧
        tget 0 (t.co k).far.votes 17 = f.tagFails ∧ tget 0 (t.co k).far.votes 19 = 1 ∧
        (∀ i, i ≠ 17 → i ≠ 19 → tget 0 (t.co k).far.votes i = tget 0 f.votes i) ∧
        t.wingsOut = (s.wingsPut (.far k) x.t.voteSrc (voteBytes (t.co k).far.votes)).wingsOut) ∧
    (f.phase = .opening → f.put = true → (∀ w ∈ s.wingsOut, w.master ≠ .far k) → (s.farSettle k x).incWings = s.incWings ++ [inc 2]) ∧
    ∀ d t, f.decision = some d → f.phase = .apply → f.applied = false → q.step.toNat = f.s0 + x.t.land + 1 → q.phase = .step →
      s.stageFrom k (stepBegan + x.t.applyStart) = some t →
      let votes := (List.range 20).map (fun i => t.dramNat (t.voteSum k x.t + 8 * i) 8)
      let missed := decide (votes.getD 16 0 ≠ 0) || decide (votes.getD 17 0 ≠ 0) || decide (votes.getD 19 0 ≠ q.members)
      let r := x.ps.foldl (fun (r : State × Nat) p =>
        let o := r.1.applyParcel k x.t x.r f.copy (missed || decide (d.verdict ≠ 0)) d p.1 p.2
        (o.1, r.2 + o.2)) (t, 0)
      let u := (r.1.dramWrite (x.t.ledger + 256 * (x.r % 2 ^ x.t.ledgerLog2)) (ledgerEntry f d r.2 votes missed)).modFar k (fun g => { g with
        applied := true, phase := .install, resync := g.resync || missed,
        missedRounds := if missed then satAdd g.missedRounds 1 else g.missedRounds })
      exec (.applyPass k) s = .next (if missed then u.log 5 0 1 k 0x0704#16 [(40, x.r), (32, votes.getD 16 0), (32, votes.getD 17 0)] else u)

/-- The apply pass writes the copy that is not current, and a round missed or void leaves anchor and momentum as they are (R312,
R328, R329). -/
def Obligations.ApplyPassWritesTheOtherCopy : Prop :=
  (∀ (s : State) (k r : Nat) (t : RoundTable) (copy skip : Bool) (d : Decision) (p : Parcel) (sh : Shard) (a : Nat),
    (a < p.copy (!copy) ∨ p.copy (!copy) + 1024 * cdiv sh.elements 64 ≤ a) →
    mbyte (s.applyParcel k t r copy skip d p sh).1.dram a = mbyte s.dram a) ∧
  ∀ (t : RoundTable) (absent dropped : Bool) (x : ApplyIn) (cur prev : List Word),
    applyElem t true absent dropped x cur prev =
      (x.a, if dropped then uadd (uadd x.res x.own) x.ownPrev else uadd x.res x.own, x.m, 0#32) ∧
    (let sum := prev.foldl (fun a v => ufma t.stale v a) (cur.foldl uadd 0#32)
     let g := umul sum (updRcp (f32pack (Fp.ofInt cur.length)))
     let m2 := ufma t.mu x.m g
     let a2 := ufma (fneg t.eta) (ufma t.mu m2 g) x.a
     let res := if absent then uadd x.res x.own else x.res
     applyElem t false absent dropped x cur prev = (a2, if dropped then uadd res x.ownPrev else res, m2, uadd (usub a2 x.a) x.p))

/-- The leader's decision at each of its three moments, the record it seals for its peers, and a gateway that is decided or stays undecided
(R324, R325, R326, R327, R328, R333). -/
def Obligations.FarDecisionsComplete : Prop :=
  (∀ (f : Far) (x : FarCtx) (ms : Nat),
    let done := fun (site : Nat) => decide (site = x.t.site) || (f.complete x.r site).isSome
    let count := ((List.range x.t.sites).filter done).length
    (count = x.t.sites → ms ≤ x.t.hardMs →
      ∃ d, decideRound f x ms = some d ∧ d.round = x.r ∧ d.verdict = 0x00 ∧ d.current = siteWord x.t.sites (fun _ => 1)) ∧
    (count ≠ x.t.sites → x.t.deadlineMs ≤ ms → ms ≤ x.t.hardMs → x.t.quorum ≤ count → ∃ d, decideRound f x ms = some d ∧ d.verdict = 0x00 ∧
      d.current = siteWord x.t.sites (fun i => if done i then 1 else if x.t.carry then 2 else 0)) ∧
    (x.t.hardMs ≤ ms → (x.t.hardMs < ms ∨ (count ≠ x.t.sites ∧ (count < x.t.quorum ∨ ms < x.t.deadlineMs))) →
      ∃ d, decideRound f x ms = some d ∧ d.verdict = 0x01 ∧ d.current = siteWord x.t.sites (fun _ => 0)) ∧
    (count ≠ x.t.sites → (ms < x.t.deadlineMs ∨ count < x.t.quorum) → ms < x.t.hardMs → decideRound f x ms = none)) ∧
  (∀ (s : State) (k : Nat) (x : FarCtx), k < 16 → (s.farGo k).roundCtx k = some x →
    let u := s.farGo k
    let f := (u.co k).far
    f.gateway = true → f.phase = .exchange →
    (∀ ms d, x.t.site = x.t.leader → f.decision = none → f.replay = false → u.sinceT0 k = some ms → decideRound f x ms = some d →
      ∃ z : State, (z.co k).far.decision = some d ∧ (z.co k).far.recordAsked = true ∧ z.dram = u.dram ∧ z.incWings = u.incWings ∧
        exec (.farDecision k) s = .next (z.farAsk k x.t (farMessage (.far k .record 0) x.t x.r x.t.site 0xFFFF x.t.gatewayIndex true d.bytes none))) ∧
    (∀ d, f.decision = some d → f.put = false → ∀ got, u.held k x d = some got →
      exec (.gatewayDecided k) s = .next ((u.writeSlots k x d got).farSettle k x)) ∧
    (∀ ms, (f.decision = none ∨ ∃ d, f.decision = some d ∧ u.held k x d = none) → f.put = false → u.sinceT0 k = some ms → x.t.hardMs ≤ ms →
      exec (.gatewayUndecided k) s =
        .next ((u.writeSlots k x { round := x.r, verdict := 0xFF, gateway := x.t.gatewayIndex } []).farSettle k x))) ∧
  ∀ (s : State) (k : Nat) (x : FarCtx) (d : Decision), k < 16 → (s.co k).far.put = true → (s.co k).far.phase = .exchange →
    (s.co k).far.decision = some d → (∀ w ∈ s.wingsOut, w.master ≠ .far k) →
    ∃ t : State, s.farSettle k x = (t.ledgerFlush k).farPost k x.t 1 ∧ (t.co k).far.phase = .landing ∧ (t.co k).far.put = false ∧
      (t.co k).far.votes = gatewayVotes d x.t.sites (s.co k).far.votes ∧ t.dram = s.dram ∧
      ((s.co k).far.replay = false → d.verdict = 0xFF →
        (t.co k).far.ledgerBuf = (s.co k).far.ledgerBuf ++ ledgerRecord x d [])

/-- CFX frames and timers: segments kept once, acknowledgements, retransmission of every unacknowledged segment, streams that stop, frames that
do not match, and a far port that carries nothing; after a frame the FAR unit goes on (R311, R321, R322, R323, R324, R337, R341, R351). -/
def Obligations.CfxFramesComplete : Prop :=
  ∀ (s : State) (port : Bool) (k : Nat) (bs : List Byte), k < 16 →
    (s.farUp (b2n port) = false → exec (.cfxParcelReceive port k bs) s = .next (s.farGo k) ∧
      exec (.cfxDecideReceive port k bs) s = .next (s.farGo k) ∧ exec (.cfxAckReceive port k bs) s = .next s ∧
      exec (.cfxSnapReceive port k bs) s = .next s) ∧
    (s.farUp (b2n port) = true → cfxRead bs = none → exec (.cfxParcelReceive port k bs) s = .next ((s.badFrame k).farGo k) ∧
      exec (.cfxDecideReceive port k bs) s = .next ((s.badFrame k).farGo k) ∧ exec (.cfxAckReceive port k bs) s = .next (s.badFrame k) ∧
      exec (.cfxSnapReceive port k bs) s = .next (s.badFrame k)) ∧
    (s.farUp (b2n port) = true → ∀ h, cfxRead bs = some h →
      (h.run = 0 → exec (.cfxSnapReceive port k bs) s = .next s) ∧ (h.run ≠ 0 → exec (.cfxSnapReceive port k bs) s = .next (s.badFrame k)) ∧
      ∀ t, (s.co k).far.table = some t →
      let r := (s.co k).far.round.toNat
      ((h.run ≠ t.run.toNat ∨ t.sites ≤ h.site) → exec (.cfxParcelReceive port k bs) s = .next ((s.badFrame k).farGo k) ∧
        exec (.cfxDecideReceive port k bs) s = .next ((s.badFrame k).farGo k)) ∧
      (h.run = t.run.toNat → h.site < t.sites → h.gateway = t.gatewayIndex →
        (h.typ = 1 → r + 2 < h.round → exec (.cfxParcelReceive port k bs) s = .next ((s.badFrame k).farGo k)) ∧
        (h.typ = 1 → h.round ≤ r + 2 → r ≤ h.round + 1 → h.seg < h.segs → h.site ≠ t.site →
          (∀ y ∈ (s.co k).far.inStreams, y.round = h.round → y.site = h.site → y.decide = true) →
          let new : InStream := ⟨h.round, h.site, false, h.segs, [(h.seg, h.payload)], [h.seg]⟩
          let others := (s.co k).far.inStreams.filter (fun y =>
            !(decide (y.round = h.round) && decide (y.site = h.site) && decide (y.decide = false)) && decide (r ≤ y.round + 1))
          let u := s.modFar k (fun f => { f with inStreams := others ++ [new] })
          exec (.cfxParcelReceive port k bs) s = .next ((if h.segs = 1 then u.sendAck k t new else u).farGo k)) ∧
        (h.typ = 1 → ∀ y, h.round ≤ r + 2 → r ≤ h.round + 1 → h.seg < h.segs → h.site ≠ t.site →
          (s.co k).far.inStreams.find? (fun y => decide (y.round = h.round) && decide (y.site = h.site) && decide (y.decide = false)) = some y →
          y.segs = h.segs → h.seg ∈ y.seen → y.seen.length ≠ y.segs → exec (.cfxParcelReceive port k bs) s = .next (s.farGo k)) ∧
        (h.typ = 3 → h.site ≠ t.leader → exec (.cfxDecideReceive port k bs) s = .next (s.farGo k)) ∧
        (h.typ = 3 → h.site = t.leader → exec (.cfxDecideReceive port k bs) s = .next ((s.keepSegment k h t true).farGo k)) ∧
        (h.typ = 2 → h.run ≠ 0 →
          let acked := fun (i : Nat) => decide (h.seg ≤ i) && (h.payload.getD ((i - h.seg) / 8) 0).getLsbD ((i - h.seg) % 8)
          let after := fun (o : OutStream) => if o.round = h.round ∧ o.site = h.site ∧ o.segments.length = h.segs then
            { o with unacked := o.unacked.filter (fun i => !acked i) } else o
          exec (.cfxAckReceive port k bs) s = .next (s.modFar k (fun f => { f with outStreams := f.outStreams.map after }))))) ∧
    (∀ t, (s.co k).far.table = some t →
      let retx := ((s.co k).far.lastTable.elim 2 (fun t => t.retxMs)) * 1000000
      ((s.co k).far.ackNs + retx / 2 ≤ s.nowNs → exec (.cfxAckTimer k) s = .next (
        ((s.co k).far.inStreams.filter (fun x => decide (x.seen.length < x.segs))).foldl
          (fun s x => (ackFrames t x).foldl (fun s d => s.cfxSend k t x.site d) s) (s.modFar k (fun f => { f with ackNs := s.nowNs })))) ∧
      (s.nowNs < (s.co k).far.ackNs + retx / 2 → exec (.cfxAckTimer k) s = .next s) ∧
      ∀ site seg, site < 16 →
        let due := fun (o : OutStream) => decide (o.site = site) && !o.stopped && !s.roundExpired k o.round && o.unacked.contains seg &&
          decide (tget 0 o.sentNs seg + retx ≤ s.nowNs + 1)
        exec (.cfxRetransmit k site seg) s = .next ((((s.co k).far.outStreams.filter due).foldl
          (fun s o => (s.modFar k (fun f => { f with retx := f.retx + 1 })).cfxSend k t site (outDatagram t o seg)) s).modFar k (fun f => { f with
            outStreams := f.outStreams.map (fun o => if due o then { o with sentNs := tset 0 o.sentNs seg (s.nowNs + 1) } else o) }))) ∧
    exec (.cfxHardExpiry k) s = .next (s.modFar k (fun f => { f with
      outStreams := f.outStreams.map (fun o => if s.roundExpired k o.round then { o with stopped := true } else o) })) ∧
    (∀ round t, (s.co k).far.table = some t → (s.roundExpired k round = true ↔
      ∃ o ∈ (s.co k).far.outStreams, o.round = round ∧ o.firstNs + t.hardMs * 1000000 ≤ s.nowNs)) ∧
    ∀ (t : RoundTable) site d p, t.peers[site * t.gateways + t.gatewayIndex]? = some p →
      (s.hasShare k (b2n p.port) = false → s.cfxSend k t site d = s) ∧
      (s.farUp (b2n p.port) = true → s.hasShare k (b2n p.port) = true →
        s.cfxSend k t site d = s.farSend (b2n p.port) p.address (if p.udp = 0 then 47344 else p.udp.toNat) d)

/-- FAR_PORT_SET, FAR_JOIN and FAR_ANCHOR_EXPORT complete, and a far port's link comes up and goes down (R283, R331, R334, R337,
R341, R351, R384). -/
def Obligations.FarCommandsAndPortsComplete : Prop :=
  ∀ (s c : State) (j : Journal) (h : Pkt),
    (∀ (port : Bool) a p u, s.serving (.farPortSet h port a p u) = some (j, c) →
      (c.cip.sealedMode = true → exec (.farPortSet h port a p u) s = .next ((c.modFarPort (if port then 1 else 0)
        (fun f => { f with addrSet := true, address := a, snapPeer := p, snapUdp := u })).answered j 0x00 [])) ∧
      (c.cip.sealedMode = false → exec (.farPortSet h port a p u) s = .next (c.answered j 0x09 []))) ∧
    (∀ (k : BitVec 4) (round : BitVec 40), s.serving (.farJoin h k round) = some (j, c) →
      ((c.co k.toNat).seq.state = .stopped →
        ∃ t : State, exec (.farJoin h k round) s = .next (t.answered j 0x00 []) ∧ (t.co k.toNat).far.installed = round.toNat ∧
          (t.co k.toNat).far.round = round ∧ (t.co k.toNat).far.inRound = false ∧ (t.co k.toNat).far.phase = .idle ∧
          (t.co k.toNat).far.resync = false ∧ (t.co k.toNat).far.joined = true ∧
          ((c.co k.toNat).far.lastTable = none → t.dram = c.dram)) ∧
      ((c.co k.toNat).seq.state ≠ .stopped → exec (.farJoin h k round) s = .next (c.answered j 0x09 []))) ∧
    (∀ (k : BitVec 4) (q : BitVec 13) g (a : BitVec 48), s.serving (.farAnchorExport h k q g a) = some (j, c) →
      (∀ l t, c.readBankList k.toNat a.toNat = some l → (c.co k.toNat).far.table = some t →
        c.queueCheck 0 q.toNat g = none → ∃ x : Stream, exec (.farAnchorExport h k q g a) s =
          .next ((c.modPak 0 (fun p => { p with streams := p.streams ++ [x] })).journalled j 0x00 []) ∧
          x.kind = 1 ∧ x.list = l ∧ x.bank = (c.co k.toNat).far.copy ∧ x.queue = q.toNat ∧ x.pack = false ∧ x.reply = some h ∧
          x.header = padTo 512 (leBytes 4 t.run.toNat ++ leBytes 5 (c.co k.toNat).far.installed ++ leBytes 4 c.island.coord.toNat)) ∧
      (c.readBankList k.toNat a.toNat = none → exec (.farAnchorExport h k q g a) s = .next (c.answered j 0x04 []))) ∧
    ∀ port : Bool,
      exec (.farPortLinkUp port) s = .next (s.modFarPort (if port then 1 else 0) (fun f => { f with link := if f.lasers then 2 else f.link })) ∧
      ((s.farPort (if port then 1 else 0)).link = 0 → exec (.farPortDown port) s = .next s) ∧
      ((s.farPort (if port then 1 else 0)).link ≠ 0 → (∀ k, k < 16 → (s.co k).pak.streams = []) → exec (.farPortDown port) s =
        .next ((s.modFarPort (if port then 1 else 0) (fun f => { f with link := 0, snapUnacked := [] })).log 5 0 1 0 0x0707#16
          [(1, if port then 1 else 0)]))

/-- A snapshot stream starts with its header, takes its turn at the pack engine and codes one input block at a time, clears the guard after its
last read, and ends with its trailer (R278, R279, R280, R281, R284). -/
def Obligations.SnapshotStreamEventsComplete : Prop :=
  (∀ (s : State) (k : Nat) (x : Stream) (xs : List Stream), k < 16 → (s.co k).pak.streams = x :: xs →
    (x.begun = false → x.cut = false → x.cipher = 0x1FF#9 → (s.absQueue k x.queue).isSome = true →
      let u := s.modPak k (fun p => { p with
        streams := { x with begun := true, buf := s.streamHeader x, made := (s.streamHeader x).length } :: xs })
      exec (.snapshotBlock k) s = exec (.snapshotBlock k) u) ∧
    ((s.streamHeader x).length = 256 ∧ (s.streamHeader x).take 8 = ascii "PV8SNAPS") ∧
    (s.blockReady k = true → (∀ j, j < 16 → j ≠ k → s.blockReady j = false) → s.blockTurn k = true) ∧
    (x.begun = true → x.cipher = 0x1FF#9 → (x.dest ≠ 0 ∨ (s.streamQueue k x).isSome = true) → s.blockTurn k = true →
      let n := min 65536 (512 + 256 * x.list.lines - x.read)
      let bs := s.blockBytes k x
      let out := codeBlock x.pack (2 ^ x.width.toNat) bs
      ∃ u : State, exec (.snapshotBlock k) s = .next (u.streamFlush k) ∧ u.pakLast = k ∧ u.dram = s.dram ∧
        (u.co k).pak.streams = { x with
          read := x.read + n, blocks := x.blocks + 1, crc := bs.foldl (crcStep 0xEDB88320#32) x.crc, buf := x.buf ++ out,
          made := x.made + out.length, marks := x.marks ++ [(x.made, x.read + n)] } :: xs) ∧
    (x.result = none → x.asked = 4 * x.list.lines → x.readsDone = false → x.kind = 0 →
      (∀ a ∈ x.needs x.read (x.total - x.read), (s.wingsFind (.snapshot k) a).isSome = true) →
      (∀ y ∈ xs, y.kind = 0 → y.readsDone = true ∨ y.result.isSome = true ∨ y.cut = true) →
      ∃ t, exec (.snapshotReadsDone k) s = .next t ∧ (t.co k).pak.guard = false ∧ (t.co k).pak.streams = { x with readsDone := true } :: xs) ∧
    (x.result = none → x.readsDone = true → x.read = 512 + 256 * x.list.lines → x.cipher = 0x1FF#9 →
      ∃ u : State, exec (.snapshotStreamEnd k) s = .next (u.streamFlush k) ∧ u.dram = s.dram ∧ (u.co k).pak.streams = { x with
        buf := x.buf ++ (ascii "PV8SNAPE" ++ leBytes 4 x.blocks ++ [0, 0, 0, 0] ++ leBytes 4 (~~~x.crc).toNat ++ List.replicate 12 0),
        made := x.made + 32, result := some 0 } :: xs) ∧
    (x.result = none → x.readsDone = false → exec (.snapshotStreamEnd k) s = .next s) ∧
    (x.result.isSome = true → exec (.snapshotStreamEnd k) s = .next (s.streamFlush k))) ∧
  ∀ (pack : Bool) (w : Nat) (bs : List Byte),
    let crc := leBytes 4 (crc32 bs).toNat
    ((pack = false ∨ bs.length ≤ (packedForm w bs).length) →
      codeBlock pack w bs = leBytes 4 bs.length ++ leBytes 4 bs.length ++ [0, 0, 0, 0] ++ crc ++ bs) ∧
    (pack = true → (packedForm w bs).length < bs.length →
      codeBlock pack w bs = leBytes 4 bs.length ++ leBytes 4 (packedForm w bs).length ++ [1, 0, 0, 0] ++ crc ++ packedForm w bs)

/-- Both ends of a restore start and end with the CRC-32 of all lines compared, the receiver times out, and a roll forward commits the step that
the curtain left (R275, R297, R298, R299, R304, R305). -/
def Obligations.RestoresAndRollForwardComplete : Prop :=
  (∀ (s c : State) (j : Journal) (h : Pkt),
    (∀ (sending : Bool) (k : BitVec 4) (p : BitVec 3) image bank (a : BitVec 48) (ms : BitVec 16) l,
      let i : Instr := if sending then .rprRestoreSend h k p (!image) bank a else .rprRestoreRecv h k p image bank a ms
      s.serving i = some (j, c) → c.readBankList k.toNat a.toNat = some l →
      (image = true → c.ownsDram k.toNat (if bank then l.imageB else l.imageA) (256 * l.lines) = true) →
      let x : RestoreSession := { sending := sending, company := k.toNat, port := p.toNat, image := image, bank := bank, list := l, cmd := h,
                                  deadline := if sending then c.nowNs else c.nowNs + 1000000 * ms.toNat }
      (c.restoreFree p.toNat = false → exec i s = .next (c.answered j 0x09 [])) ∧
      (c.restoreFree p.toNat = true → (c.port p.toNat).state ≠ .active → exec i s = .next (c.answered j 0x0A [])) ∧
      (c.restoreFree p.toNat = true → (c.port p.toNat).state = .active →
        ∃ u : State, exec i s = .next ((if sending then u.send p.toNat (.restoreOffer k.toNat l.lines) else u).journalled j 0x00 []) ∧
          u.restore.sessions = c.restore.sessions ++ [x] ∧ u.restore.lines = 0 ∧ u.restore.company = k ∧ u.restore.port = p ∧
          u.restore.state = (if sending then 2 else 1) ∧ u.dram = c.dram)) ∧
    (∀ (k : BitVec 4) (a : BitVec 48) im u, s.serving (.rprRollForward h k a) = some (j, c) →
      (c.co k.toNat).seq.image = some im → im.update = some u → (c.co k.toNat).seq.state = .stopped →
      (c.co k.toNat).upd.verdict = .incomplete → c.passComplete k.toNat u = true →
      let e := fun (i : Nat) => (tailEntries (mline c.dram a.toNat)).getD i 0
      let commits := e 0 = 0 ∧ e 1 = 0 ∧ e 2 = 0 ∧ (e 3).toNat = (c.co k.toNat).seq.members ∧ e 4 = 0
      (commits → exec (.rprRollForward h k a) s = .next (((c.commitBank k.toNat u
        (if (c.co k.toNat).upd.restored then 0 else (c.co k.toNat).upd.passDigest)).flushPosted k.toNat).answered j 0x00 [])) ∧
      (¬ commits → exec (.rprRollForward h k a) s = .next (c.answered j 0x02 [])))) ∧
  ∀ (s : State) (p : BitVec 3) (x : RestoreSession), s.restore.sessions.find? (fun r => r.port = p.toNat) = some x →
    let ended := fun (s : State) (shown : BitVec 4) (status : Byte) => ({ s with restore := { s.restore with
      state := if s.restore.port.toNat = x.port then shown else s.restore.state,
      sessions := s.restore.sessions.filter (fun y => y.port ≠ x.port) } } : State).answer x.cmd status 0 []
    let failed := fun (cause : Nat) => ended (s.log 0xD 0 1 x.company 0x0481#16 [(4, x.company), (3, x.port), (2, cause), (32, x.count)]) 5 0x0A
    (∀ header crc, x.count = x.list.lines →
      (crc = ~~~x.crc → x.sending = true ∨ x.image = true → exec (.restoreComplete p (.ok header crc)) s = .next (ended s 4 0x00)) ∧
      (crc = ~~~x.crc → x.sending = false → x.image = false →
        exec (.restoreComplete p (.ok header crc)) s = .next (ended (s.restoreBank x header) 4 0x00)) ∧
      (crc ≠ ~~~x.crc → exec (.restoreComplete p (.ok header crc)) s = .next (failed 1))) ∧
    exec (.restoreComplete p .linesDiffer) s = .next (ended s 5 0x04) ∧
    exec (.restoreComplete p .frameLost) s = .next (failed 0) ∧ exec (.restoreComplete p .crcMismatch) s = .next (failed 1) ∧
    exec (.restoreComplete p .portLost) s = .next (failed 2) ∧
    (x.sending = false → x.count = 0 → x.deadline ≤ s.nowNs → exec (.restoreTimeout p) s = .next (failed 3)) ∧
    ((x.sending = true ∨ x.count ≠ 0 ∨ s.nowNs < x.deadline) → exec (.restoreTimeout p) s = .next s)

/-- Keys are installed, cleared and bound, and the first write of CIP_CTRL.SEALED decides the mode (R11, R345, R346, R350, R352,
R353, R354, R363, R364, R367, R368). -/
def Obligations.KeyAndModeCommandsComplete : Prop :=
  (∀ (s c : State) (j : Journal) (h : Pkt),
    let k := c.queueCo h.queue
    (∀ (slot : BitVec 6) (a : BitVec 48) n kek key, s.serving (.cipKeyUnwrap h slot a) = some (j, c) →
      let blob := mread c.dram a.toNat 72
      c.absSlot k slot.toNat = some n → c.ownsDram k a.toNat 72 = true → (blob.getD 4 0).toNat = k →
      c.kekOf k (blob.getD 5 0).toNat = .ok kek → c.boundTo n = [] → blob.take 3 = ascii "KB" ++ [1] →
      ((blob.getD 3 0).toNat = 1 ∨ (blob.getD 3 0).toNat = 2) → blob.getD 6 0 = 0 → blob.getD 7 0 = 0 →
      kwUnwrap kek (blob.drop 16) = some (key ++ blob.take 16) → key.length = 32 →
      exec (.cipKeyUnwrap h slot a) s = .next ((c.modKeySlot n (fun _ =>
        { key := BitVec.ofNat 256 (leNat key), use := BitVec.ofNat 2 (blob.getD 3 0).toNat, unwrapped := true })).answered j 0x00 [])) ∧
    (∀ (slot : BitVec 6) n, s.serving (.cipKeyClear h slot) = some (j, c) → c.absSlot k slot.toNat = some n →
      (c.boundTo n = [] → exec (.cipKeyClear h slot) s = .next ((c.modKeySlot n (fun _ => {})).answered j 0x00 [])) ∧
      (c.boundTo n ≠ [] → exec (.cipKeyClear h slot) s = .next (c.answered j 0x09 []))) ∧
    ∀ (ch : BitVec 8) i (slot : BitVec 6) nonce fixed, c.absChan k ch.toNat = some i →
      (s.serving (.cipChanSet h ch true slot nonce fixed) = some (j, c) →
        (c.cip.busy i = true → exec (.cipChanSet h ch true slot nonce fixed) s = .next (c.answered j 0x09 [])) ∧
        (c.cip.busy i = false → exec (.cipChanSet h ch true slot nonce fixed) s = .next ((c.modCipChan i (fun _ => {})).answered j 0x00 []))) ∧
      (s.serving (.cipChanSet h ch false slot nonce fixed) = some (j, c) → ∀ n, c.absSlot k slot.toNat = some n →
        (c.cip.busy i = true → exec (.cipChanSet h ch false slot nonce fixed) s = .next (c.answered j 0x09 [])) ∧
        (c.cip.busy i = false → (c.keySlot n).use = 1 → (∀ x ∈ c.boundTo n, x.1 = i ∨ x.2.nonce = nonce) →
          exec (.cipChanSet h ch false slot nonce fixed) s = .next ((c.modCipChan i (fun _ =>
            { bound := true, slot := BitVec.ofNat 6 n, nonce := nonce, fixed := fixed })).answered j 0x00 [])))) ∧
  ∀ (s : State), s.boot.pcieUp = true → (s.func 0).frozen = false →
    (∀ v : Word, s.cip.sealedMode = false → bit v 15 = true → (bits v 11 10 = 1 ∨ bits v 11 10 = 2) → s.slotCo (bits v 5 0) = 0 →
      s.boundTo (bits v 5 0) = [] →
      ∃ t, exec (.cipKeyWrite 0 v) s = .next t ∧
        t.keySlot (bits v 5 0) =
          { key := BitVec.ofNat 256 (leNat (s.cip.keyData.flatMap (fun w => leBytes 4 w.toNat))), use := BitVec.ofNat 2 (bits v 11 10) } ∧
        (∀ n, n ≠ bits v 5 0 → t.keySlot n = s.keySlot n) ∧ t.cip.keyData = List.replicate 8 0 ∧ t.cip.chans = s.cip.chans) ∧
    (∀ v : Word, s.cip.sealedMode = false → bit v 15 = true → s.slotCo (bits v 5 0) ≠ 0 →
      exec (.cipKeyWrite 0 v) s = .next (s.violation 0 0x11 (.function 0) [(32, bits v 5 0)])) ∧
    (∀ v : Word, s.cip.sealedMode = true → bit v 15 = true → exec (.cipKeyWrite 0 v) s = .next (s.lockedWrite 0 0x0500120 v.toNat)) ∧
    (s.cip.locked = false →
      exec (.sealedModeEnter 0) s = .next { s with cip := { s.cip with locked := true, sealedMode := true } } ∧
      exec (.openModeLock 0) s = .next { s with cip := { s.cip with locked := true, sealedMode := false } }) ∧
    (s.cip.locked = true → s.cip.sealedMode = true →
      exec (.sealedModeEnter 0) s = .next s ∧ exec (.openModeLock 0) s = .next (s.lockedWrite 0 0x0500000 0)) ∧
    (s.cip.locked = true → s.cip.sealedMode = false →
      exec (.sealedModeEnter 0) s = .next (s.lockedWrite 0 0x0500000 1) ∧ exec (.openModeLock 0) s = .next s)

/-- A waiting message starts with its nonce and a context, its data enter by slices that go out to its client, and its tag or verdict ends it;
after each the FAR units go on (R343, R344, R346, R349, R356, R357, R358, R359, R360, R402). -/
def Obligations.CipherMessagesComplete : Prop :=
  ∀ (s : State) (c : Nat), c < 256 →
    let ch := s.cipChan c
    let slot := ch.slot.toNat
    let key := s.keySlot slot
    (∀ m, s.canStart c = some m → ch.bound = true → key.use = 1 → s.slotCo slot = s.chanCo c →
      let begun := fun (u : State) (iv : BitVec 96) => ({ u with cip := { u.cip with
        waiting := s.cip.waiting.erase m,
        msgs := s.cip.msgs ++ [{ m with iv := iv, onChip := true, lastServed := s.cip.serveCount }] } } : State)
      (m.opening = true → s.cip.onChip < 64 → exec (.cipherMessageStart c) s = .next (begun s m.iv).farAll) ∧
      (m.opening = false → key.invocations.toNat + 1 < 2 ^ 31 → s.cip.onChip < 64 →
        let u := s.modKeySlot slot (fun x => { x with invocations := x.invocations + 1 })
        let iv := if ch.nonce then BitVec.ofNat 96 (beNat (beBytes 12 m.iv.toNat))
          else BitVec.ofNat 96 (beNat (beBytes 4 ch.fixed.toNat ++ beBytes 8 key.invocations.toNat))
        exec (.cipherMessageStart c) s = .next (begun u iv).farAll) ∧
      (m.opening = false → 2 ^ 32 ≤ key.invocations.toNat → ∃ t : State, exec (.cipherMessageStart c) s = .next (t.msgLost m).farAll ∧
        t.cip.msgs = s.cip.msgs ∧ t.cip.waiting = s.cip.waiting.erase m ∧ t.cip.slots = s.cip.slots)) ∧
    (s.canStart c = none → exec (.cipherMessageStart c) s = .next s.farAll) ∧
    (c ∈ s.frozenChans → s.canStart c = none) ∧
    (s.nextChan = none → exec .cipherSliceEnd s = .next s.farAll) ∧
    (∀ m, s.nextChan = some c → s.cip.msg c = some m → m.onChip = true →
      let n := min 4096 (m.data.length - m.done)
      let u : State := { s with cip := { s.cip with
        lastServed := c, serveCount := s.cip.serveCount + 1,
        msgs := s.cip.msgs.map (fun x => if x.chan = c then { x with done := x.done + n, lastServed := s.cip.serveCount + 1 } else x) } }
      exec .cipherSliceEnd s = .next (u.cipOut m m.done (s.msgOutput m m.done n)).farAll) ∧
    (∀ m, s.cip.msg c = some m →
      ((m.closed = false ∨ m.done ≠ m.data.length) → exec (.cipherTagReady c) s = .next s.farAll) ∧
      (m.closed = true → m.done = m.data.length → m.onChip = true → exec (.cipherTagReady c) s = .next ((s.msgEnd c).msgDone m).farAll)) ∧
    (s.msgEnd c).cip.msg c = none ∧ (s.msgEnd c).cip.waiting = s.cip.waiting ∧ ∀ d, d ≠ c → (s.msgEnd c).cip.msg d = s.cip.msg d

/-- What the engine seals on a channel opens on it again with the verdict PASS, a changed tag does not, and the slices of a message put out
together what the message puts out as a whole (R343, R357, R360, R391). -/
def Obligations.SealedDataOpensUnderItsKey : Prop :=
  (∀ (key iv data : List Byte), key.length = 32 → gcmCrypt key iv (gcmCrypt key iv data) = data) ∧
  (∀ (s : State) (m : Message) (a b : Nat), s.msgOutput m 0 (a + b) = s.msgOutput m 0 a ++ s.msgOutput m a b) ∧
  ∀ (s : State) (m : Message) (q : Nat) (toHost : Bool) (a : Nat), m.opening = false →
    let ct := s.msgOutput m 0 m.data.length
    let back : Message := { m with opening := true, data := ct, client := .dma q toHost a, tag := BitVec.ofNat 128 (beNat (s.msgTag m)) }
    s.msgOutput back 0 ct.length = m.data ∧ s.msgDone back = s.dmaEnd q 0x00 1 ∧
      ∀ tag, tag ≠ back.tag → s.msgDone { back with tag := tag } = s.dmaEnd q 0x00 2

/-- A configuration transaction is opened, committed, aborted and timed out (R405, R406, R407, R408, R410). -/
def Obligations.TransactionsComplete : Prop :=
  (∀ (s c : State) (j : Journal) (h : Pkt),
    let k := c.queueCo h.queue
    let x := (c.co k).txn
    (∀ (mode : Bool) (t : BitVec 10), s.serving (.txnBegin h mode t) = some (j, c) →
      (x.opened = none →
        let id : Word := BitVec.ofNat 32 (k * 2 ^ 28 + (x.count + 1))
        let o : OpenTxn := { id := id, curtain := mode, timeoutS := if t = 0 then 10 else t.toNat, begunNs := c.nowNs, staged := [] }
        exec (.txnBegin h mode t) s = .next (((c.modCo k (fun y => { y with txn := { y.txn with count := x.count + 1, opened := some o } })).reply
          j 0x00 0 0 id []).fetch j.pkt.queue)) ∧
      (x.opened ≠ none → exec (.txnBegin h mode t) s = .next (c.answered j 0x05 []))) ∧
    (∀ (step : BitVec 48) (i : BitVec 13) g, s.serving (.txnCommit h step i g) = some (j, c) →
      (x.opened = none → exec (.txnCommit h step i g) s = .next (c.answered j 0x04 [])) ∧
      ∀ o, x.opened = some o →
        (o.curtain = true → (c.co k).seq.curtainAhead step = false → exec (.txnCommit h step i g) s = .next (c.answered j 0x04 [])) ∧
        ((o.curtain = false ∨ (c.co k).seq.curtainAhead step = true) → 8 ≤ x.committed.length →
          exec (.txnCommit h step i g) s = .next (c.answered j 0x05 [])) ∧
        ((o.curtain = false ∨ (c.co k).seq.curtainAhead step = true) → x.committed.length < 8 → i ≠ 0x1FFF →
          c.ctrCurrent k i.toNat g = some false → exec (.txnCommit h step i g) s = .next (c.answered j 0x07 [])) ∧
        ((o.curtain = false ∨ (c.co k).seq.curtainAhead step = true) → x.committed.length < 8 →
          (i = 0x1FFF ∨ c.ctrCurrent k i.toNat g = some true) →
          let t : CommittedTxn := { id := o.id, step := if o.curtain then some step else none,
                                    ctr := if i = 0x1FFF then none else some (i.toNat, g), staged := o.staged }
          exec (.txnCommit h step i g) s = .next ((c.modCo k (fun y => { y with
            txn := { y.txn with opened := none, committed := y.txn.committed ++ [t] },
            col := if o.curtain && hasReshard o.staged then { y.col with reshardState := 1 } else y.col })).answered j 0x00
              (leBytes 8 (if o.curtain then step.toNat else c.nextEpoch k))))) ∧
    (s.serving (.txnAbort h) = some (j, c) →
      (∀ o, x.opened = some o → exec (.txnAbort h) s = .next ((c.modCo k (fun y => { y with
        txn := { y.txn with opened := none, aborted := o.id :: y.txn.aborted } })).answered j 0x00 [])) ∧
      (x.opened = none → exec (.txnAbort h) s = .next ((c.modCo k (fun y => y)).answered j 0x00 [])))) ∧
  (∀ (s : State) (k : Nat) (o : OpenTxn), k < 16 → (s.co k).txn.opened = some o →
    (o.begunNs + o.timeoutS * 1000000000 ≤ s.nowNs → exec (.txnTimeout k) s = .next ((s.modCo k (fun y => { y with
      txn := { y.txn with opened := none, aborted := o.id :: y.txn.aborted } })).log 8 0 1 k 0x0001#16 [(4, k), (32, o.id.toNat)])) ∧
    (s.nowNs < o.begunNs + o.timeoutS * 1000000000 → exec (.txnTimeout k) s = .next s)) ∧
  (∀ (s : State) (k : Nat), k < 16 → (s.co k).txn.opened = none → exec (.txnTimeout k) s = .next s) ∧
  ∀ (q : Seq) (step : BitVec 48),
    (q.state = .loaded → q.curtainAhead step = true) ∧ (q.state = .empty ∨ q.state = .stopped → q.curtainAhead step = false) ∧
    (q.state = .armed → (q.curtainAhead step = true ↔ q.startStep.toNat ≤ step.toNat)) ∧
    (q.state = .running → q.phase = .recast → (q.curtainAhead step = true ↔ q.step.toNat ≤ step.toNat)) ∧
    (q.state = .running → q.phase = .step →
      (q.curtainAhead step = true ↔ q.step.toNat < step.toNat ∨ (q.step = step ∧ q.curtainActed = false)))

/-- Creating and destroying a company, granting and returning, and releasing a frozen master, outside a transaction (R371, R373,
R376, R384, R389, R400, R403, R404, R409). -/
def Obligations.CompanyCommandsComplete : Prop :=
  (∀ (s c : State) (j : Journal) (h : Pkt), h.txn = 0 → (c.co 0).txn.opened = none → (c.co 0).txn.committed = [] →
    (∀ (k : BitVec 4) (f : BitVec 5), s.serving (.coCreate h k f) = some (j, c) → k ≠ 0 → f ≠ 0 → f.toNat ≤ 16 →
      (c.co k.toNat).present = false → (∀ i, i < 16 → (c.co i).present = true → (c.co i).function ≠ f.toNat) →
      exec (.coCreate h k f) s = .next ((c.modCo k.toNat (fun x => { x with present := true, function := f.toNat })).answered j 0x00 [])) ∧
    (∀ (k : BitVec 4), s.serving (.coDestroy h k) = some (j, c) → k ≠ 0 → (c.co k.toNat).present = true →
      ((c.co k.toNat).seq.state = .empty → exec (.coDestroy h k) s = .next ((c.applyDestroy k.toNat).answered j 0x00 [])) ∧
      ((c.co k.toNat).seq.state ≠ .empty → exec (.coDestroy h k) s = .next (c.answered j 0x09 []))) ∧
    (∀ (k kind : BitVec 4) (first count : Word) (extra : DWord), s.serving (.coGrant h k kind first count extra) = some (j, c) →
      k ≠ 0 → (c.co k.toNat).present = true → grantForm kind.toNat first.toNat count.toNat extra.toNat = true →
      (c.co k.toNat).holds kind.toNat (grantPort kind.toNat first.toNat) = false →
      ((kind = 1 ∨ kind = 2 ∨ kind = 9) → (c.co k.toNat).seq.state = .empty) →
      (grantClash k.toNat kind.toNat first.toNat count.toNat extra.toNat c = true →
        exec (.coGrant h k kind first count extra) s = .next (c.answered j 0x05 [])) ∧
      (grantClash k.toNat kind.toNat first.toNat count.toNat extra.toNat c = false → grantWait kind.toNat first.toNat count.toNat c = 0 →
        exec (.coGrant h k kind first count extra) s =
          .next ((c.applyGrant k.toNat kind.toNat first.toNat count.toNat extra.toNat).answered j 0x00 []))) ∧
    (∀ (k kind : BitVec 4) (port : BitVec 3), s.serving (.coReturn h k kind port) = some (j, c) → k ≠ 0 → (c.co k.toNat).present = true →
      ((c.co k.toNat).holds kind.toNat port.toNat = true → ((kind = 1 ∨ kind = 2 ∨ kind = 9) → (c.co k.toNat).seq.state = .empty) →
        exec (.coReturn h k kind port) s = .next ((c.applyReturn k.toNat kind.toNat port.toNat).answered j 0x00 [])) ∧
      ((c.co k.toNat).holds kind.toNat port.toNat = false → exec (.coReturn h k kind port) s = .next (c.answered j 0x04 [])))) ∧
  (∀ (s c : State) (j : Journal) (h : Pkt) (master : BitVec 2) (i : BitVec 16), s.serving (.coRelease h master i) = some (j, c) →
    (master = 0 → i.toNat ≤ 16 → (c.func i.toNat).frozen = true → exec (.coRelease h master i) s =
      .next ((c.modFunc i.toNat (fun x => { x with frozen := false })).fetchAll.answered j 0x00 [])) ∧
    (master = 1 → i.toNat < 32768 → (c.queue i.toNat).frozen = true →
      let u := c.modQueue i.toNat (fun x => { x with frozen := false })
      ((c.queue i.toNat).stopped = none → exec (.coRelease h master i) s = .next ((u.fetch i.toNat).answered j 0x00 [])) ∧
      ∀ op, (c.queue i.toNat).stopped = some op → exec (.coRelease h master i) s = .next ((u.dmaFinish i.toNat op).answered j 0x00 [])) ∧
    (master = 2 → i.toNat ∈ c.frozenChans → exec (.coRelease h master i) s =
      .next (({ c with frozenChans := c.frozenChans.filter (fun x => x ≠ i.toNat) } : State).answered j 0x00 [])) ∧
    ((master = 3 ∨ (master = 0 ∧ (c.func i.toNat).frozen = false)) → exec (.coRelease h master i) s = .next (c.answered j 0x04 []))) ∧
  (∀ (s : State) (k : Nat), let d := (s.applyDestroy k).co k
    d.present = false ∧ d.rect = none ∧ d.quarters = 0 ∧ d.queues = none ∧ d.counters = none ∧ d.watches = none ∧ d.keySlots = none ∧
      d.chans = none ∧ d.contexts = 0 ∧ d.lanes = [] ∧ d.farShare = []) ∧
  ∀ (s : State) (k : Nat), (s.co k).present = true → ((s.applyReturn k 1 0).co k).rect = none ∧ ((s.applyReturn k 2 0).co k).quarters = 0 ∧
    ((s.applyReturn k 3 0).co k).queues = none ∧ ((s.applyReturn k 4 0).co k).counters = none ∧ ((s.applyReturn k 5 0).co k).watches = none ∧
    ((s.applyReturn k 6 0).co k).keySlots = none ∧ ((s.applyReturn k 7 0).co k).chans = none ∧ ((s.applyReturn k 8 0).co k).contexts = 0 ∧
    ∀ p, (∀ l ∈ ((s.applyReturn k 9 p).co k).lanes, l.1 ≠ p) ∧ (∀ l ∈ ((s.applyReturn k 10 p).co k).farShare, l.1 ≠ p)

/-- Doorbells, queue enables and disables, counter writes, increments in their order, and arming and disarming a watch (R11, R380, R381, R382,
R394, R395, R396, R397, R398, R399, R400, R401). -/
def Obligations.QueuesCountersAndWatchesComplete : Prop :=
  ∀ (s : State), s.boot.pcieUp = true → (s.func 0).frozen = false →
    (∀ q (v : Word) host, exec (.doorbell 0 q v host) s = exec (.doorbell 0 q v []) (s.hostPut host)) ∧
    (∀ q (v : Word), q < 32768 →
      let x := s.queue q
      (bits v 31 24 ≠ x.gen.toNat → exec (.doorbell 0 q v []) s = .next (s.modQueue q (fun y => { y with stale := y.stale + 1 }))) ∧
      (bits v 31 24 = x.gen.toNat → x.enable = true → (x.typ = 1 ∨ (x.typ = 2 ∧ x.mode ≠ 1)) →
        let d := 2 * 2 ^ x.depthLog2.toNat
        let used := (bits v 16 0 + d - x.head) % d
        let moved := s.modQueue q (fun y => { y with tail := bits v 16 0 })
        (bits v 16 0 < d → (x.tail + d - x.head) % d ≤ used → used ≤ 2 ^ x.depthLog2.toNat →
          exec (.doorbell 0 q v []) s = .next (if x.typ = 1 then moved.fetch q else moved.farGo (s.queueCo q))) ∧
        ((d ≤ bits v 16 0 ∨ used < (x.tail + d - x.head) % d ∨ 2 ^ x.depthLog2.toNat < used) →
          exec (.doorbell 0 q v []) s = .next (s.violation (s.queueCo q) 0x12 (.queue q) [(32, q)])))) ∧
    (∀ q (v : DWord), q < 32768 →
      let x := s.queue q
      let y := x.withCfg v
      let k := s.queueCo q
      (x.enable = false → s.cfgGood k y = true → s.tooSoon x.changedNs = 0 → exec (.queueEnable 0 q v) s = .next (s.modQueue q (fun _ => { y with
        enable := true, head := 0, tail := 0, waiting := [], streamOff := 0, streamBytes := 0, streamEnds := 0 }))) ∧
      (x.enable = false → s.cfgGood k y = false → exec (.queueEnable 0 q v) s = .next (s.modQueue q (fun z => { z with cause := 0x01 }))) ∧
      (x.enable = true → y.cfgFields = x.cfgFields →
        exec (.queueEnable 0 q v) s = .next s ∧ exec (.queueDisable 0 q v) s = .next (s.resetQueue q)) ∧
      (x.enable = false → exec (.queueDisable 0 q v) s = .next (s.modQueue q (fun _ => y))) ∧
      ((∀ k, k < 16 → (s.co k).pak.streams = []) → ((s.resetQueue q).queue q).enable = false ∧ ((s.resetQueue q).queue q).gen = x.gen + 1 ∧
        ((s.resetQueue q).queue q).waiting = [])) ∧
    (∀ n (v : DWord),
      let x : Inc := { src := .host 0, index := n, gen := BitVec.ofNat 8 (bits v 39 32), amount := bits v 31 0 }
      (n < 8192 → (s.absCtr 0 n).isSome = true →
        exec (.synCtrAdd 0 n v) s = .next { s with incHost := s.incHost ++ [x] } ∧
        exec (.synCtrReset 0 n v) s = .next { s with incHost := s.incHost ++ [{ x with reset := true }] }) ∧
      (s.absCtr 0 n = none → ∃ t, exec (.synCtrAdd 0 n v) s = .next t ∧ exec (.synCtrReset 0 n v) s = .next t ∧ t.incHost = s.incHost ∧
        t.counters = s.counters)) ∧
    (∀ x xs, (s.incStage = x :: xs → exec .syncIncrementApply s = .next (State.applyInc { s with incStage := xs } x)) ∧
      (s.incStage = [] → s.incDma = x :: xs → exec .syncIncrementApply s = .next (State.applyInc { s with incDma := xs } x)) ∧
      (s.incStage = [] → s.incDma = [] → s.incWings = x :: xs → exec .syncIncrementApply s = .next (State.applyInc { s with incWings := xs } x)) ∧
      (s.incStage = [] → s.incDma = [] → s.incWings = [] → s.incHost = x :: xs →
        exec .syncIncrementApply s = .next (State.applyInc { s with incHost := xs } x))) ∧
    (∀ (k i : Nat) (x : Inc), (x.src = .stage k ∨ x.src = .host k) → s.absCtr k x.index = some i →
      ((s.ctr i).gen = x.gen → x.reset = false →
        s.applyInc x = (s.modCtr i (fun c => { c with value := c.value + BitVec.ofNat 32 x.amount })).evalCtr i) ∧
      ((s.ctr i).gen = x.gen → x.reset = true → s.tooSoon (s.ctr i).changedNs = 0 →
        s.applyInc x = ((s.modCtr i (fun c => { c with gen := c.gen + 1, changedNs := some s.nowNs })).modCtr i (fun c => { c with
          value := BitVec.ofNat 32 x.amount })).evalCtr i) ∧
      ((s.ctr i).gen = x.gen → x.reset = true → s.tooSoon (s.ctr i).changedNs ≠ 0 → s.applyInc x = s.logTooSoon k 1 x.index (s.ctr i).changedNs) ∧
      ((s.ctr i).gen ≠ x.gen → s.applyInc x = s.modCo k (fun c => { c with synStale := satAdd c.synStale 1 }))) ∧
    ∀ w (v : DWord), w < 16384 →
      let x := s.watch w
      let y := x.withCfg v
      (x.enable = false → (s.absCtr x.company y.ctrIndex.toNat).isSome = true → (s.absQueue x.company y.queue.toNat).isSome = true →
        s.tooSoon x.changedNs = 0 → exec (.watchArm 0 w v) s =
          .next ((s.modWatch w (fun _ => { y with enable := true, fired := false, held := false })).evalWatch w)) ∧
      (x.enable = true → y.cfgFields = x.cfgFields → ∃ t, exec (.watchDisarm 0 w v) s = .next t ∧ (t.watch w).enable = false ∧
        (t.watch w).fired = false ∧ (t.watch w).gen = x.gen + 1 ∧ (t.watch w).changedNs = some s.nowNs ∧ ∀ j, j ≠ w → t.watch j = s.watch j)

/-- DMA descriptors start when their queue is ready, move their bytes access by access and report them; host reads time out, and streams report
their progress (R379, R390, R391, R392, R393, R400, R401, R429). -/
def Obligations.DmaDescriptorsComplete : Prop :=
  (∀ (s : State) (q : Nat) (raw : BitVec 512), q < 32768 → s.dmaReady q = true → s.ringEntry q 0 = some (leBytes 64 raw.toNat) →
    let d := readDescriptor raw
    let k := s.queueCo q
    let o : DmaOp := { raw := raw, tag := d.tag, notify := d.notify, ctr := if d.ctr = 0x1FFF then none else some (d.ctr, d.ctrGen, d.amount) }
    (d.good = false → d.op = 1 → s.freeSlots ≠ [] → ∃ t, exec (.dmaHostToDram q raw) s = .next t ∧ t.dram = s.dram ∧
      (t.queue q).dma = some { o with ended := true, status := 0x04 }) ∧
    (d.good = false → d.op = 2 → ∃ t, exec (.dmaDramToHost q raw) s = .next t ∧ t.hostMem = s.hostMem ∧
      (t.queue q).dma = some { o with ended := true, status := 0x04 }) ∧
    (d.good = true → d.seal_ = false → d.open_ = false → s.ownsDram k d.dram d.length = true →
      (d.ctr = 0x1FFF ∨ (s.absCtr k d.ctr).isSome = true) →
      (d.op = 1 → s.freeSlots ≠ [] → exec (.dmaHostToDram q raw) s =
        .next ((s.modQueue q (fun x => { x with dma := some o })).takeSlots q d.length)) ∧
      (d.op = 2 → exec (.dmaDramToHost q raw) s = .next (s.modQueue q (fun x => { x with dma := some o }))))) ∧
  (∀ (s : State) (q : Nat) (o : DmaOp), (s.queue q).dma = some o → o.ended = false →
    let d := readDescriptor o.raw
    d.seal_ = false → d.open_ = false →
    (∀ (data : BitVec 512), d.pack = false → d.op = 2 →
      (s.dmaRead q data false).hostMem = mwrite s.hostMem (d.host + o.taken) (leBytes 64 data.toNat) ∧
      (s.dmaRead q data true).hostMem = s.hostMem) ∧
    (∀ u, d.op = 1 → d.dram ≤ u → u < d.dram + 64 * o.asked → s.dmaHostBytes q u = some (mread s.hostMem (d.host + (u - d.dram)) 64))) ∧
  (∀ (s : State) (q : Nat) (op : DmaOp), q < 32768 → (s.queue q).dma = some op → op.ended = true → (∀ w ∈ s.wingsOut, w.master ≠ .dma q) →
    s.entryWaits q = false → (∀ i g n, op.ctr = some (i, g, n) → (s.absCtr (s.queueCo q) i).isSome = true) →
    ∃ t, exec (.dmaComplete q) s = .next t ∧ (t.queue q).dma = none ∧
      (t.queue q).head = ((s.queue q).head + 1) % (2 * 2 ^ (s.queue q).depthLog2.toNat) ∧
      (∀ i g n, op.ctr = some (i, g, n) → t.incDma = s.incDma ++
        (if op.status = 0x00 then [{ src := .dma q, index := i, gen := g, amount := n }] else [])) ∧
      (op.ctr = none → t.incDma = s.incDma)) ∧
  (∀ (s : State) (i : Nat), i < 2048 →
    let x := tget {} s.readSlots i
    let f := s.coFunc (s.queueCo x.queue)
    (x.use = 1 → x.sinceNs + (s.func f).timeoutNs ≤ s.nowNs → ∃ t, exec (.hostCplTimeout f i) s = .next t ∧
      t.err.cplTimeouts = s.err.cplTimeouts + 1 ∧ tget {} t.readSlots i = { use := 2, queue := x.queue, gen := x.gen + 1, sinceNs := s.nowNs }) ∧
    (x.use = 2 → ∀ g, ∃ t, exec (.hostLateCpl g i) s = .next t ∧ t.err.lateCpl = s.err.lateCpl + 1 ∧ t.readSlots = s.readSlots) ∧
    (x.use = 2 → x.sinceNs + (s.func f).timeoutNs ≤ s.nowNs → exec (.readSlotQuarantineEnd i) s =
      .next { s with readSlots := tmod {} s.readSlots i (fun x => { x with use := 0 }) })) ∧
  ∀ (s : State) (q p : Nat), q < 32768 → (s.queue q).typ = 2 → (s.queue q).mode ≠ 0 → s.entryWaits q = false →
    s.absQueue (s.queueCo q) (s.queue q).pair.toNat = some p →
    let entry := fun (u : State) (b : Byte) =>
      u.post p (completionEntry (leBytes 4 (if (s.queue q).mode = 2 then (s.queue q).head else (s.queue q).tail) ++ [b]) 3
        (s.localIndex (fun c => c.queues) (s.queueCo q) q) (s.queue q).gen) none
    (65536 ≤ (s.queue q).streamBytes → exec (.streamProgress q false) s =
      .next (entry (s.modQueue q (fun x => { x with streamBytes := x.streamBytes - 65536 })) 0)) ∧
    ((s.queue q).streamEnds ≠ 0 → exec (.streamProgress q true) s = .next (entry (s.modQueue q (fun x => { x with
      streamBytes := x.streamBytes % 65536, streamEnds := x.streamEnds - 1 })) 1))

/-- Function Level Resets, VF Enable and PERST_N, register writes, and the registers that a read clears (R9, R11, R63, R89, R353,
R402, R404, R426, R435, R436, R470, R497). -/
def Obligations.HostInterfaceEventsComplete : Prop :=
  (∀ s : State, s.boot.pcieUp = true →
    exec (.functionLevelReset 0) s = .next (s.flr 0) ∧ exec .vfEnable s = .next { s with boot := { s.boot with vfEnable := true } } ∧
    (∀ f, 0 < f → f ≤ 16 → s.boot.vfEnable = true → exec (.functionLevelReset f) s = .next (s.flr f)) ∧
    ((∀ k, k < 16 → (s.co k).pak.streams = []) →
      ((s.flr 0).boot.vfEnable = false ∧ (∀ q, ((s.flr 0).queue q).enable = false) ∧ (s.flr 0).counters = s.counters ∧
        ∀ k, ((s.flr 0).co k).seq = (s.co k).seq) ∧
      ∀ f, 0 < f → (∀ q, s.coFunc (s.queueCo q) = f → ((s.flr f).queue q).enable = false) ∧
        (∀ q, s.coFunc (s.queueCo q) ≠ f → ((s.flr f).queue q).enable = (s.queue q).enable ∧ ((s.flr f).queue q).gen = (s.queue q).gen) ∧
        ∀ k, k < 16 → s.coFunc k = f → ((s.flr f).co k).txn.opened = none)) ∧
  (∀ s : State, (∃ t, exec .perstAssert s = .next t ∧ t.boot.pcieUp = false ∧ t.boot.perst = true ∧ t.boot.vfEnable = false) ∧
    (s.boot.perst = true → exec .perstRelease s = .next { s with boot :=
      if s.boot.powerGood = true ∧ s.boot.powerGoodNs + 100000000 ≤ s.nowNs then
        { s.boot with perst := false, perstReleasedEarly := false, pcieUp := true }
      else { s.boot with perst := false, perstReleasedEarly := true } })) ∧
  (∀ (s : State) (f a : Nat) (wide : Bool) (v : DWord), f ≤ 16 → s.reaches f = true →
    ((s.func f).frozen = false → exec (.registerWrite f a wide v) s = .next (if a < 0x4000000 then s.writeReg f a wide v else s)) ∧
    ((s.func f).frozen = true → exec (.registerWrite f a wide v) s = .next s ∧ exec (.errFatalOccClear f v) s = .next s)) ∧
  (∀ (s : State) (a : Nat) (wide : Bool) (v : DWord), s.boot.pcieUp = true → (s.func 0).frozen = false →
    exec (.errFatalOccClear 0 v) s = .next { s with err := { s.err with occ := s.err.occ &&& ~~~v } } ∧
    s.writeReg 0 0x200018 true v = { s with err := { s.err with occ := s.err.occ &&& ~~~v } } ∧
    s.writeReg 0 0x200000 wide v = (if v.getLsbD 8 then { s with err := { s.err with fatalFull := false } } else s) ∧
    s.writeReg 0 0xC00018 false v = s.modFunc 0 (fun x => { x with monSel := v.setWidth 32 &&& 0x83FF#32 }) ∧
    (∀ i, i < 8 → s.cip.sealedMode = true → s.writeReg 0 (0x500100 + 4 * i) false v =
      if v.setWidth 32 = s.cip.keyData.getD i 0 then s else s.lockedWrite 0 (0x500100 + 4 * i) (v.setWidth 32).toNat) ∧
    (a < 0x1000000 → (a / 0x100000 = 0 ∨ a / 0x100000 = 1 ∨ a / 0x100000 = 3 ∨ a / 0x100000 = 4 ∨ a / 0x100000 = 9 ∨ a / 0x100000 = 10) →
      ∀ f, s.writeReg f a wide v = s)) ∧
  ∀ (s : State), s.boot.pcieUp = true →
    (∀ p, p < 850 → exec (.coreResidueRowsRead 0 p) s = .next (s.modCore p (fun c => { c with resRows := 0 }))) ∧
    exec (.errDropsRead 0) s = .next { s with err := { s.err with dropCorrected := 0, dropDeferred := 0, dropUncorrected := 0 } }

/-- The stage manager's commands, its resets and restarts, and firmware staging and switching (R399, R415, R416, R417, R418, R420,
R421, R432, R442). -/
def Obligations.StageManagerCommandsComplete : Prop :=
  (∀ (s c : State) (j : Journal) (h : Pkt),
    let k := c.queueCo h.queue
    (s.serving (.smInfo h) = some (j, c) → s.sm.ready = true → exec (.smInfo h) s = .next (c.answered j 0x00
      ([if c.sm.imageB then 1 else 0] ++ leBytes 4 (if c.sm.imageB then c.sm.versionB else c.sm.versionA).toNat ++
        [c.sm.load, c.sm.decimation.setWidth 8]))) ∧
    (∀ (q : BitVec 13) (g : BitVec 8) (ms : BitVec 10), s.serving (.smTelemetry h q g ms) = some (j, c) →
      (1000 < ms.toNat → exec (.smTelemetry h q g ms) s = .next (c.answered j 0x04 [])) ∧
      (ms.toNat ≤ 1000 → c.absQueue k q.toNat = none → exec (.smTelemetry h q g ms) s = .next (c.answered j 0x02 [])) ∧
      ∀ a, c.absQueue k q.toNat = some a → ms.toNat ≤ 1000 →
        ((c.queue a).gen ≠ g → exec (.smTelemetry h q g ms) s = .next (c.answered j 0x07 [])) ∧
        (ms = 0 → (c.queue a).gen = g →
          exec (.smTelemetry h q g ms) s = .next ((c.modCo k (fun x => { x with telemetry := none })).answered j 0x00 [])) ∧
        (ms ≠ 0 → (c.queue a).gen = g → (c.queue a).typ = 4 → exec (.smTelemetry h q g ms) s =
          .next ((c.modCo k (fun x => { x with telemetry := some (q.toNat, g, ms.toNat, c.nowNs) })).answered j 0x00 []))) ∧
    (∀ (a : BitVec 48) (n : Word), s.serving (.smFwStage h a n) = some (j, c) →
      ((c.sm.staging ≠ none ∨ c.sm.previous ≠ none) → exec (.smFwStage h a n) s = .next (c.answered j 0x09 [])) ∧
      (c.sm.previous = none → c.sm.staging = none → c.ownsDram 0 a.toNat n.toNat = false →
        exec (.smFwStage h a n) s = .next (c.answered j 0x02 [])) ∧
      (c.sm.previous = none → c.sm.staging = none → c.ownsDram 0 a.toNat n.toNat = true →
        let u : State := { c with sm := { c.sm with staging := some { addr := a.toNat, length := n.toNat, cmd := h } } }
        exec (.smFwStage h a n) s = .next ((u.modEntry j (fun y => { y with
          state := .accepted, status := 0x00, detail := 0, result := [] })).fetch j.pkt.queue))) ∧
    (s.serving (.smFwSwitch h) = some (j, c) →
      (c.sm.staged = false → exec (.smFwSwitch h) s = .next (c.answered j 0x09 [])) ∧
      (c.sm.staged = true → exec (.smFwSwitch h) s = .next ((State.smReset { c with sm := { c.sm with
        imageB := !c.sm.imageB, previous := some c.sm.imageB } } .switch).journalled j 0x00 []))) ∧
    (s.serving (.smReset h) = some (j, c) → ∃ t, exec (.smReset h) s = .next t ∧ t.sm.ready = false ∧ t.sm.resets = satAdd c.sm.resets 1 ∧
      t.sm.journal = modFirst (fun x => x.unanswered && decide (x.pkt = j.pkt) && decide (x.gen = j.gen))
        (fun y => { y with state := .committed, status := 0x00, detail := 0, result := [] }) c.sm.journal) ∧
    ∀ grant, s.serving (.smRemoval h grant) = some (j, c) →
      (c.svc.removal = false → exec (.smRemoval h grant) s = .next (c.answered j 0x04 [])) ∧
      (c.svc.removal = true → grant = false → exec (.smRemoval h grant) s = .next ((c.setRemoval false).answered j 0x00 [])) ∧
      (c.svc.removal = true → grant = true → c.scriptsIdle = false → exec (.smRemoval h grant) s = .next (c.answered j 0x09 [])) ∧
      (c.svc.removal = true → grant = true → c.scriptsIdle = true → exec (.smRemoval h grant) s = .next (
        ({ c.torusDark.farDark with svc := { c.torusDark.farDark.svc with removal := false, safe := true } } : State).answered j 0x00 []))) ∧
  (∀ (s : State), (∀ p, ∃ t u, exec (.smLockstepMismatch p) s = .next t ∧ exec (.smWatchdogExpiry p) s = .next u ∧
      (∀ v, v = t ∨ v = u → v.sm.ready = false ∧ v.sm.resets = satAdd s.sm.resets 1 ∧ v.sm.staging = none ∧ v.sm.journal = s.sm.journal ∧
        v.cos = s.cos ∧ v.cores = s.cores ∧ v.tor = s.tor ∧ v.pwr = s.pwr)) ∧
    (s.smHolds = true → ∃ t, exec .smRestartReady s = .next t ∧ t.sm.ready = true ∧
      t.sm.mode = .running ∧ t.sm.previous = none ∧ t.sm.staged = (s.sm.staged && s.sm.previous.isNone) ∧ t.cos = s.cos ∧ t.cores = s.cores ∧
      t.tor = s.tor ∧ t.pwr = s.pwr ∧ t.err = s.err) ∧
    (∀ x, s.sm.ready = true → s.sm.staging = some x →
      let m := { s.sm with staging := none }
      let v := Config.imageVersion x.image
      let f := if s.sm.imageB then { m with flashA := x.image, versionA := v, staged := true }
        else { m with flashB := x.image, versionB := v, staged := true }
      (x.image.length < x.length → exec .fwStageComplete s = .next s) ∧
      (x.length ≤ x.image.length → s.sm.accepts x.image = true →
        exec .fwStageComplete s = .next (State.answer { s with sm := f } x.cmd 0x00 0 [])) ∧
      (x.length ≤ x.image.length → s.sm.accepts x.image = false →
        exec .fwStageComplete s = .next (State.answer { s with sm := m } x.cmd 0x04 0 []))) ∧
    (s.nowNs < s.sm.switchNs + 10000000000 → exec .smFwFallback s = .next s) ∧
    ∀ old, s.sm.previous = some old → s.sm.ready = false → s.sm.switchNs + 10000000000 ≤ s.nowNs → ∃ t, exec .smFwFallback s = .next t ∧ t.sm.imageB = old ∧ t.sm.staged = false ∧
      t.sm.previous = none ∧ ∀ j, j ∈ s.sm.journal → j.opcode = 0x0104#16 → j.state = .waiting →
        { j with state := JournalState.committed, status := 0x0A } ∈ t.sm.journal)

/-- Error records, their groups and the ring, ERR_INJECT, undefined opcodes, telemetry and decimation (R388, R413, R415, R422, R424, R425,
R426, R427, R428, R432, R434). -/
def Obligations.ErrorsAndTelemetryComplete : Prop :=
  (∀ (s c : State) (j : Journal) (h : Pkt) (src code : BitVec 16) (cls : BitVec 2) (co : BitVec 4),
    s.serving (.errInject h src cls code co) = some (j, c) →
    let r : ErrRec := { source := src, cls := cls, code := code, company := co.toNat, injected := true }
    (c.cip.sealedMode = true → exec (.errInject h src cls code co) s = .next (c.answered j 0x09 [])) ∧
    (c.cip.sealedMode = false → exec (.errInject h src cls code co) s = .next ((c.raise r).answered j 0x00 []))) ∧
  (∀ (s : State) (r : ErrRec), let u := s.raise r
    let r := { r with stamp := s.stamp }
    (r.cls ≠ 3 → (∀ g, g ∈ s.err.groups → ¬ (g.first.source = r.source ∧ g.first.code = r.code ∧ g.first.company = r.company)) →
      (s.err.buffer.length < 256 → u.err.buffer = s.err.buffer ++ [r] ∧ u.err.groups = s.err.groups ++ [{ first := r, openedNs := s.nowNs }]) ∧
      (256 ≤ s.err.buffer.length → u.err.buffer = s.err.buffer ∧ (r.cls = 0 → u.err.dropCorrected = satAdd s.err.dropCorrected 1) ∧
        (r.cls = 1 → u.err.dropDeferred = satAdd s.err.dropDeferred 1) ∧ (r.cls = 2 → u.err.dropUncorrected = satAdd s.err.dropUncorrected 1))) ∧
    (r.cls = 3 → s.err.next < 4032 → tget none u.err.ring s.err.next = some r ∧
      u.err.next = (if s.err.next = 4031 then 1024 else s.err.next + 1) ∧
      ∀ n, n < 64 → s.err.occ.getLsbD n = false → (∀ m, m < n → s.err.occ.getLsbD m = true) →
        (∀ m x, m < 64 → s.err.occ.getLsbD m = true → tget none s.err.ring (4032 + m) = some x → ¬ (x.source = r.source ∧ x.code = r.code)) →
        u.err.occ.getLsbD n = true ∧ tget none u.err.ring (4032 + n) = some r)) ∧
  (∀ (s : State), s.stamp = BitVec.ofNat 64 (2 ^ 16 * (s.tor.houseEpoch.toNat % 2 ^ 48) + min 65535 s.epochPeriods)) ∧
  (∀ (s : State) (r : ErrRec) (rs : List ErrRec), s.err.buffer = r :: rs →
    (s.err.takenNs = s.nowNs → 4 ≤ s.err.taken → exec .errorRecord s = .next s) ∧
    ((s.err.takenNs = s.nowNs → s.err.taken < 4) → ∃ t, exec .errorRecord s = .next t ∧ t.err.buffer = rs ∧ t.err.takenNs = s.nowNs ∧
    t.err.taken = (if s.err.takenNs = s.nowNs then s.err.taken + 1 else 1) ∧
    tget none t.err.ring s.err.next = some r ∧ t.err.next = (if s.err.next = 4031 then 1024 else s.err.next + 1) ∧
    t.err.pinned = min 1024 (s.err.pinned + 1) ∧ t.err.groups = s.err.groups ∧ ∀ i, i ≠ s.err.next → tget none t.err.ring i = tget none s.err.ring i)) ∧
  (∀ (s : State) (g : ErrGroup) (gs : List ErrGroup), s.err.groups = g :: gs → g.openedNs + 1000000 ≤ s.nowNs →
    exec .errorGroupClose s = .next (State.closeGroup { s with err := { s.err with groups := gs } } g g.repeats)) ∧
  (∀ (s : State) (h : Pkt) (op : BitVec 16) (j : Journal),
    let u := s.fetch h.queue
    u.turnOf h op [] = some j → op.toNat ∉ definedOpcodes → h.reserved = 0 → bits h.flags 15 1 = 0 → h.length ≤ 256 →
      exec (.commandBadOpcode h op) s = .next (((u.begin_ j).reply j 0x03 0 0 j.txn []).fetch h.queue)) ∧
  (∀ (s : State) (k q a p last : Nat) (g : BitVec 8) (mean : Word), k < 16 → (s.co k).telemetry = some (q, g, p, last) →
    (s.nowNs < last + p * 2 ^ s.sm.decimation.toNat * 1000000 → exec (.telemetryTick k mean) s = .next s) ∧
    (s.sm.list ≠ [] → exec (.telemetryTick k mean) s = .next s) ∧
    (s.sm.ready = true → s.sm.list = [] → last + p * 2 ^ s.sm.decimation.toNat * 1000000 ≤ s.nowNs → s.absQueue k q = some a →
      let u := s.modCo k (fun c => { c with telemetry := some (q, g, p, s.nowNs) })
      ((s.queue a).gen ≠ g → exec (.telemetryTick k mean) s = .next u) ∧
      ((s.queue a).gen = g → (s.queue a).typ = 4 → exec (.telemetryTick k mean) s =
        .next (u.post a (leBytes 8 s.stamp.toNat ++ leBytes 8 (s.co k).energy.toNat ++ leBytes 4 mean.toNat ++
          leBytes 2 s.pwr.hottest.toNat ++ [s.pwr.op.setWidth 8, s.sm.decimation.setWidth 8]) none)))) ∧
  ∀ (s : State) (busy : BitVec 8) (ns : Nat), (s.nowNs < s.sm.busyNs + 10000000 → exec (.decimationUpdate busy ns) s = .next s) ∧
    (s.sm.ready = true → s.sm.busyNs + 10000000 ≤ s.nowNs → ∃ t, exec (.decimationUpdate busy ns) s = .next t ∧ t.sm.load = busy ∧ t.sm.busyNs = s.nowNs ∧
    t.sm.serviceNs = ns ∧ (80 < busy.toNat → s.sm.decimation.toNat ≤ 6 → t.sm.decimation.toNat = min 6 (s.sm.decimation.toNat + 1)) ∧
    (50 ≤ busy.toNat → busy.toNat ≤ 80 → t.sm.decimation = s.sm.decimation ∧ t.sm.lowMs = 0) ∧
    (busy.toNat < 50 → s.sm.lowMs < 90 → t.sm.decimation = s.sm.decimation ∧ t.sm.lowMs = s.sm.lowMs + 10) ∧
    (busy.toNat < 50 → 90 ≤ s.sm.lowMs → t.sm.decimation.toNat = s.sm.decimation.toNat - 1))

/-- Re-pointing, disabling and lane-swap commands, and what happens to lanes and power reduction (R158, R193, R194, R195, R505).
-/
def Obligations.TorusCommandsAndLanesComplete : Prop :=
  (∀ (s c : State) (j : Journal) (h : Pkt) (port : BitVec 3), let p := port.toNat
    (∀ (serial : DWord) (coord : Word) (ms : BitVec 16), s.serving (.torRepoint h port serial coord ms) = some (j, c) →
      ((c.portQuiet true p = false ∨ (c.port p).repoint ≠ none) →
        exec (.torRepoint h port serial coord ms) s = .next (c.answered j 0x09 [])) ∧
      (c.portQuiet true p = true → (c.port p).repoint = none →
        ∃ u : State, exec (.torRepoint h port serial coord ms) s = .next (u.journalled j 0x00 []) ∧
          (u.port p).state = .repointing ∧ (u.port p).lasers = false ∧ (u.port p).ident = none ∧ (u.port p).barred = false ∧
          (u.port p).repoint = some (serial, coord, h, c.nowNs + 1000000 * ms.toNat) ∧
          ((c.port p).state.trained = true → (p, Frame.repoint) ∈ u.tor.tx) ∧ ∀ q, q ≠ p → u.port q = c.port q)) ∧
    (∀ (lane : BitVec 4), s.serving (.torLaneSwap h port lane) = some (j, c) →
      (((c.port p).spareFor ≠ 0xF#4 ∨ (c.port p).swapPending = true) →
        exec (.torLaneSwap h port lane) s = .next (c.answered j 0x05 [])) ∧
      ((c.port p).spareFor = 0xF#4 → (c.port p).swapPending = false →
        ∃ u : State, exec (.torLaneSwap h port lane) s = .next (u.journalled j 0x00 []) ∧
          u.port p = { c.port p with swapPending := true, swapLane := lane.setWidth 5, swapCmd := some h } ∧
          ∀ q, q ≠ p → u.port q = c.port q)) ∧
    (∀ d, s.serving (.torPortDisable h port d) = some (j, c) →
      (c.portQuiet true p = false → exec (.torPortDisable h port d) s = .next (c.answered j 0x09 [])) ∧
      (c.portQuiet true p = true → d = true →
        ∃ u : State, exec (.torPortDisable h port d) s = .next (u.answered j 0x00 []) ∧ (u.port p).state = .disabled ∧
          (u.port p).lasers = false ∧ (u.port p).repoint = none ∧ ∀ q, q ≠ p → u.port q = c.port q) ∧
      (c.portQuiet true p = true → d = false → (c.port p).state = .disabled → exec (.torPortDisable h port d) s =
        .next ((c.modPort p (fun x => { x with state := .down, lasers := c.lasersAllowed })).answered j 0x00 [])) ∧
      (c.portQuiet true p = true → d = false → (c.port p).state ≠ .disabled →
        exec (.torPortDisable h port d) s = .next (c.answered j 0x00 [])))) ∧
  ∀ (s : State) (port : BitVec 3), let p := port.toNat
    ((s.port p).repoint = none → exec (.repointTimeout port) s = .next s) ∧
    (∀ serial coord h due, (s.port p).repoint = some (serial, coord, h, due) →
      (due ≤ s.nowNs → exec (.repointTimeout port) s =
        .next ((s.modPort p (fun x => { x with repoint := none, barred := true })).answer h 0x0A 0 [])) ∧
      (s.nowNs < due → exec (.repointTimeout port) s = .next s)) ∧
    (∀ (lane : BitVec 5), ∃ t : State, exec (.laneSignalLoss port lane) s = .next t ∧ lane.toNat ∈ (t.port p).failedLanes ∧
      ((s.port p).spareFor = 0xF#4 → (s.port p).swapPending = false → lane.toNat < 16 → (t.port p).swapPending = true ∧ (t.port p).swapLane = lane) ∧
      ((s.port p).spareFor ≠ 0xF#4 → (t.port p).swapPending = (s.port p).swapPending)) ∧
    (∀ (lane : BitVec 5) (n m : Nat), ∃ t : State, exec (.laneRateCheck port lane n m) s = .next t ∧
      (t.port p).corrected = (s.port p).corrected + BitVec.ofNat 32 n ∧ (m ≥ 100000 * n → (t.port p).swapPending = (s.port p).swapPending) ∧
      (m < 100000 * n → (s.port p).spareFor = 0xF#4 → (s.port p).swapPending = false → lane.toNat < 16 →
        (t.port p).swapPending = true ∧ (t.port p).swapLane = lane)) ∧
    ((s.port p).swapPending = true → (s.port p).state = .active → s.portQuiet false p = true → ∃ t : State,
      exec (.laneSwapStart port) s = .next t ∧ (t.port p).state = .retraining ∧ (p, Frame.swap (s.port p).swapLane) ∈ t.tor.tx ∧
      ∀ q, q ≠ p → t.port q = s.port q) ∧
    (((s.port p).swapPending = false ∨ (s.port p).state ≠ .active ∨ s.portQuiet false p = false) → exec (.laneSwapStart port) s = .next s) ∧
    (∀ (lane : BitVec 5), (s.port p).spareFor = 0xF#4 → (s.port p).swapPending = false → lane.toNat < 16 →
      (s.portQuiet false p = false → exec (.swapHandshakeReceive port lane) s =
        .next (s.modPort p (fun x => { x with swapPending := true, swapLane := lane }))) ∧
      ((s.port p).state = .active → s.portQuiet false p = true → ∃ t : State, exec (.swapHandshakeReceive port lane) s = .next t ∧
        (t.port p).state = .retraining ∧ (p, Frame.swap lane) ∈ t.tor.tx)) ∧
    ((s.port p).light = false → (s.port p).lasers = true → exec (.aprEnter port) s = .next (s.modPort p (fun x => { x with apr := true }))) ∧
    ((s.port p).apr = true → (s.port p).lasers = true → exec (.aprPulse port) s = .next (s.send p .pulse)) ∧
    ((s.port p).light = true → exec (.aprEnter port) s = .next s) ∧ ((s.port p).apr = false → exec (.aprPulse port) s = .next s)

/-- A torus port comes up from light to ACTIVE and goes down again; its one-way latency is half the median of the 64 round trips less
the neighbour's turnaround (R180, R184, R190, R191, R192, R194, R476, R477, R480, R486). -/
def Obligations.TorusPortsBringUpComplete : Prop :=
  (∀ trip turnaround : Nat, oneWay (List.replicate 64 (trip, turnaround)) = (trip - turnaround) / 2) ∧
  ∀ (s : State) (port : BitVec 3), let p := port.toNat; let x := s.port p
    (((x.state = .down ∧ x.lasers = true) ∨ x.state = .repointing) → ∃ t : State, exec (.portLightDetected port) s = .next t ∧
      (t.port p).state = .training ∧ (t.port p).light = true ∧ (t.port p).apr = false ∧ ∀ q, q ≠ p → t.port q = s.port q) ∧
    ((x.state = .training ∨ x.state = .identifying ∨ x.state = .accepted) → ∃ t : State, exec (.portLightDetected port) s = .next t ∧
      (t.port p).state = .down ∧ (t.port p).ident = none ∧ (t.port p).light = true ∧ ∀ q, q ≠ p → t.port q = s.port q) ∧
    (((x.state = .down ∧ x.lasers = false) ∨ x.state = .measured ∨ x.state = .active ∨ x.state = .retraining ∨ x.state = .disabled) →
      exec (.portLightDetected port) s = .next (s.modPort p (fun x => { x with light := true, apr := false }))) ∧
    ((x.state = .down ∨ x.state = .disabled ∨ x.state = .repointing) →
      exec (.portLightLoss port) s = .next (s.modPort p (fun x => { x with light := false }))) ∧
    (x.state ≠ .down → x.state ≠ .disabled → x.state ≠ .repointing → ∃ t : State, exec (.portLightLoss port) s = .next t ∧
      (t.port p).state = .down ∧ (t.port p).ident = none ∧ (t.port p).light = false ∧ (t.port p).nbrLocked = false ∧
      ∀ q, q ≠ p → t.port q = s.port q) ∧
    (x.state = .training →
      (∃ t : State, exec (.portTrainingDone port true) s = .next t ∧ (t.port p).state = .identifying ∧ (t.port p).candidate = none) ∧
      ∃ t : State, exec (.portTrainingDone port false) s = .next t ∧ (t.port p).state = .down ∧ (t.port p).repoint = none) ∧
    (x.state = .retraining →
      (∃ t : State, exec (.portTrainingDone port true) s = .next t ∧ (t.port p).state = .measured ∧ (t.port p).swapPending = false ∧
        (t.port p).spareFor = x.swapLane.setWidth 4 ∧ (t.port p).latDue = true) ∧
      ∃ t : State, exec (.portTrainingDone port false) s = .next t ∧ (t.port p).state = .down ∧ (t.port p).swapCmd = none) ∧
    (∀ serial island coord nport, let i : Ident := ⟨serial, island, coord, nport⟩
      let go := exec (.identityReceive port serial island coord nport) s
      (x.state = .identifying → (x.candidate ≠ some i ∨ x.candCount < 2) → ∃ t : State, go = .next t ∧ (t.port p).state = .identifying ∧
        (t.port p).ident = x.ident ∧ (t.port p).candidate = some i ∧ (t.port p).candCount = if x.candidate = some i then x.candCount + 1 else 1) ∧
      (x.state = .identifying → x.candidate = some i → 2 ≤ x.candCount → ∃ t : State, go = .next t ∧ (t.port p).state = .accepted ∧
        (t.port p).ident = some i) ∧
      (x.state = .active → x.ident = some i → ∃ t : State, go = .next t ∧ (t.port p).state = .active ∧ (t.port p).moved = x.moved) ∧
      (x.state = .active → x.ident ≠ some i → ∃ t : State, go = .next t ∧ (t.port p).state = .identifying ∧ (t.port p).moved = true ∧
        (t.port p).ident = none ∧ (t.port p).candidate = some i ∧ (t.port p).candCount = 1) ∧
      (x.state.trained = false → go = .next s)) ∧
    (x.state.trained = true → exec (.identitySend port) s = .next (s.send p (.identity s.serial s.island.island s.island.coord p)) ∧
      ∀ turnaround, exec (.probeReceive port turnaround) s = .next (s.send p (.echo turnaround))) ∧
    (x.state.trained = false → exec (.identitySend port) s = .next s ∧ ∀ turnaround, exec (.probeReceive port turnaround) s = .next s) ∧
    ∀ exchanges : List (Nat × Nat), exchanges.length = 64 → let cycles := (175 * oneWay exchanges + 999) / 1000
      ((x.state = .accepted ∨ x.state = .measured) → cycles ≤ 1152 → ∃ t : State, exec (.latencyMeasured port exchanges) s = .next t ∧
        (t.port p).latOp7 = BitVec.ofNat 16 cycles ∧
        (t.port p).state = if (s.tor.lockState = 2 ∨ s.tor.lockState = 3) ∧ x.nbrLocked = true ∧ x.barred = false ∧ s.agrees p = true
          then .active else .measured) ∧
      (x.state = .active → cycles ≤ 1152 → ∃ t : State, exec (.latencyMeasured port exchanges) s = .next t ∧ (t.port p).state = .active ∧
        (t.port p).measured = true) ∧
      ((x.state = .accepted ∨ x.state = .measured ∨ x.state = .active) → 1152 < cycles → ∃ t : State,
        exec (.latencyMeasured port exchanges) s = .next t ∧ (t.port p).state = .accepted) ∧
      (x.state ≠ .accepted → x.state ≠ .measured → x.state ≠ .active → exec (.latencyMeasured port exchanges) s = .next s)

/-- Lock frames, relocking and holdover, and the house epoch with its ceiling window: HOUSE frames leave with the lead of a port's latency
and 128 cycles (R124, R185, R186, R187, R405, R450, R479, R481). -/
def Obligations.LockAndHouseEpochsComplete : Prop :=
  (∀ (s : State) (port : BitVec 3) (st : BitVec 3) (hops : BitVec 8) (child : Bool), let p := port.toNat
    ((s.port p).state.trained = false → exec (.lockFrameReceive port st hops child) s = .next s) ∧
    ((s.port p).state.trained = true → ∃ t : State, exec (.lockFrameReceive port st hops child) s = .next t ∧ (t.port p).lockState = st ∧
      (t.port p).lockHops = hops ∧ (t.port p).child = child ∧ ((t.port p).nbrLocked = true ↔ st = 2 ∨ st = 3) ∧
      ((s.port p).state = .active → st ≠ 2 → st ≠ 3 → (t.port p).state = .measured) ∧
      (s.tor.root = false → s.tor.lockState = 2 → s.tor.parent.toNat = p → st = 2 → t.tor.lockState = 2 ∧ t.tor.hops = hops + 1) ∧
      (s.tor.root = false → s.tor.lockState = 2 → s.tor.parent.toNat = p → st = 3 → t.tor.lockState = 3 ∧ t.tor.hops = 0xFF) ∧
      ((s.tor.root = true ∨ (s.tor.lockState = 2 ∧ s.tor.parent.toNat ≠ p)) → t.tor.lockState = s.tor.lockState ∧ t.tor.hops = s.tor.hops ∧
        t.tor.parent = s.tor.parent))) ∧
  (∀ s : State, let p := s.tor.parent.toNat
    (s.tor.root = false → s.tor.lockState ≠ 2 → p < 8 → (s.port p).lockState = 2 → ∃ t : State, exec .relockDone s = .next t ∧
      t.tor.lockState = 2 ∧ t.tor.hops = (s.port p).lockHops + 1 ∧ t.tor.everLocked = true ∧
      (s.tor.everLocked = true → t.tor.houseEpoch = s.tor.houseEpoch) ∧
      (∀ e, s.tor.everLocked = false → (s.port p).houseSeen.getLast? = some e → t.tor.houseEpoch = e.1) ∧
      ∀ q, q < 8 → (t.port q).measured = false) ∧
    ((s.tor.root = true ∨ s.tor.lockState = 2) → exec .relockDone s = .next s) ∧
    (s.tor.lockState = 3 → s.tor.holdoverLogged = false → s.bestParent = none →
      ∃ t : State, exec .lockHoldover s = .next t ∧ t.tor = { s.tor with holdoverLogged := true }) ∧
    (s.tor.holdoverLogged = true → exec .lockHoldover s = .next s)) ∧
  (∀ s : State, (∀ period, ∃ t : State, exec (.houseFrameSend period) s = .next t ∧ t.tor.houseEpoch = s.tor.houseEpoch ∧ ∀ p, p < 8 →
      ((s.port p).state = .active → (s.port p).houseSent ≠ some (s.tor.houseEpoch + 1) → 65536 ≤ period + (s.latencyNow p + 128) →
        (p, Frame.house (s.tor.houseEpoch + 1) s.pwr.m) ∈ t.tor.tx ∧
          t.port p = { s.port p with houseSent := some (s.tor.houseEpoch + 1) }) ∧
      (((s.port p).state ≠ .active ∨ (s.port p).houseSent = some (s.tor.houseEpoch + 1) ∨ period + (s.latencyNow p + 128) < 65536) →
        t.port p = s.port p)) ∧
    ∀ (port : BitVec 3) (e : DWord) (m : BitVec 3),
      (((s.port port.toNat).state = .active ∨ (s.port port.toNat).state = .measured) → exec (.houseFrameReceive port e m) s =
        .next (s.modPort port.toNat (fun x => { x with houseSeen :=
          (if s.tor.everLocked then x.houseSeen.filter (fun h => h.1 ≠ e) else []) ++ [(e, m)] }))) ∧
      ((s.port port.toNat).state ≠ .active → (s.port port.toNat).state ≠ .measured → exec (.houseFrameReceive port e m) s = .next s)) ∧
  ∀ s : State, let n := s.tor.houseEpoch + 1; let w := n.toNat % 256
    ((∃ p, p < 8 ∧ (s.port p).state = .active ∧ ∀ h, h ∈ (s.port p).houseSeen → h.1 ≠ n) →
      exec .houseEpochBoundary s = exec (.houseFrameSend 65536) s) ∧
    ((∀ p, p < 8 → (s.port p).state = .active → ∃ m, (n, m) ∈ (s.port p).houseSeen) →
      ∃ t : State, exec .houseEpochBoundary s = .next t ∧ t.tor.houseEpoch = n ∧ t.tor.epochNs = s.nowNs ∧ t.pwr.throttle = false ∧
        t.pwr.stretch = 0 ∧ (w = 128 → t.pwr.m = s.pwr.localCeil) ∧ (w < 128 → t.pwr.m = s.pwr.m) ∧
        (128 < w → t.pwr.m.toNat ≤ s.pwr.m.toNat ∧ ∀ p h, p < 8 → (s.port p).state = .active →
          (s.port p).houseSeen.find? (fun h => h.1 = n) = some h → t.pwr.m.toNat ≤ h.2.toNat)) ∧
    ∀ k : Nat, k % 256 = 0 → (s.ceilingWindow k).pwr.windows = s.pwr.windows ++ [(k / 256, s.pwr.m)]

/-- The call sheet, its overrides, the root and adoption, and the census (R296, R473, R476, R477, R478, R481, R482, R483, R484).
-/
def Obligations.CallSheetsAndCensusComplete : Prop :=
  (∀ (s c : State) (j : Journal) (h : Pkt),
    (∀ (a : BitVec 48) (n : Word), s.serving (.islCallSheet h a n) = some (j, c) →
      (sheetCheck c a.toNat n.toNat = none → exec (.islCallSheet h a n) s = .next ((c.installSheet (readSheet c a.toNat)).answered j 0x00
        [(c.installSheet (readSheet c a.toNat)).island.role.setWidth 8])) ∧
      (c.ownsDram 0 a.toNat n.toNat = false → ∃ u : State, exec (.islCallSheet h a n) s =
        .next ((u.reply j 0x02 0x01 0 j.txn []).fetch j.pkt.queue) ∧ u.island = c.island ∧ u.tor = c.tor ∧ u.dram = c.dram)) ∧
    (∀ (port : BitVec 3) (set : Bool), s.serving (.islOverride h port set) = some (j, c) → let p := port.toNat
      (set = true → c.portCheck p ≠ 2 → exec (.islOverride h port set) s = .next (c.answered j 0x04 [])) ∧
      ((set = false ∨ c.portCheck p = 2) → c.scriptBusy = true → exec (.islOverride h port set) s = .next (c.answered j 0x09 [])) ∧
      ((set = false ∨ c.portCheck p = 2) → c.scriptBusy = false → ∃ u : State, exec (.islOverride h port set) s = .next (u.answered j 0x00 []) ∧
        (u.port p).overridden = (if set then (c.port p).ident else none) ∧ ∀ q, q ≠ p → u.port q = c.port q)) ∧
    (s.serving (.islRoot h) = some (j, c) →
      ((c.island.adopted = true ∨ c.island.sheet = none) → exec (.islRoot h) s = .next (c.answered j 0x09 [])) ∧
      (c.island.adopted = false → c.island.sheet ≠ none → ∃ u : State, exec (.islRoot h) s = .next (u.answered j 0x00 []) ∧
        u.tor.root = true ∧ u.tor.hops = 0 ∧ u.tor.parent = 0xF ∧ u.tor.lockState = 2 ∧ u.tor.everLocked = true)) ∧
    ∀ (island coord : Word) (failed : DWord), s.serving (.rprAdopt h island coord failed) = some (j, c) →
      (c.isWarm = false → exec (.rprAdopt h island coord failed) s = .next (c.answered j 0x09 [])) ∧
      (c.isWarm = true → ∃ u : State, exec (.rprAdopt h island coord failed) s = .next (u.answered j 0x00 []) ∧ u.island =
        { c.island with island := island, coord := coord, role := 1, adopted := true, failedSerial := failed })) ∧
  (∀ (s : State) (sh : Sheet), let t := s.installSheet sh
    t.island.sheet = some sh ∧ t.island.island = sh.island ∧ (∀ p, p < 8 → (t.port p).overridden = none) ∧
      (sh.root = s.serial → t.tor.root = true ∧ t.tor.hops = 0 ∧ t.tor.lockState = 2) ∧ (sh.root ≠ s.serial → t.tor.root = false) ∧
      (∀ e, sh.entries.find? (fun e => decide (e.serial = s.serial)) = some e → t.island.role = e.role ∧ t.island.coord = e.coord) ∧
      (sh.entries.find? (fun e => decide (e.serial = s.serial)) = none → t.island.role = 0 ∧ t.island.coord = 0xFFFFFFFF)) ∧
  ∀ s : State,
    let due : Prop := ∀ t, s.island.roundNs = some t → t + (if s.island.ready then 1000000000 else 250000000) ≤ s.nowNs
    (∀ sh, s.island.sheet = some sh → s.tor.root = true → due → exec .censusRoundStart s = .next (s.censusBegin (s.island.round + 1) sh.revision)) ∧
    ((s.tor.root = false ∨ s.island.sheet = none ∨ ¬ due) → exec .censusRoundStart s = .next s) ∧
    (∀ t, s.island.roundNs = some t →
      (t + 3000000 * 65 ≤ s.nowNs → exec .censusRoundAbandon s = .next { s with island := { s.island with roundRevision := none, summing := false } }) ∧
      (s.nowNs < t + 3000000 * 65 → exec .censusRoundAbandon s = .next s)) ∧
    ∀ (port : BitVec 3) (rev : Word) (m r d : Nat),
      (s.tor.root = false → s.tor.parent.toNat = port.toNat →
        (∃ t : State, exec (.censusStartReceive port m rev) s = .next t ∧ t.island.round = m ∧
          (∀ q, q ∈ s.children → (q, Frame.censusStart m rev) ∈ t.tor.tx) ∧
          (s.children = [] → (s.tor.parent.toNat, Frame.censusSum 1 (if s.censusReadyNow rev then 1 else 0) s.disagreeing) ∈ t.tor.tx)) ∧
        ∃ t : State, exec (.censusResultReceive port rev r d) s = .next t ∧ t.island.censusRevision = rev ∧
          t.island.censusReady = BitVec.ofNat 16 (min r 65535) ∧ t.island.censusDisagree = BitVec.ofNat 8 (min d 255) ∧
          (∀ sh, s.island.sheet = some sh → (t.island.ready = true ↔ r = sh.active)) ∧
          ∀ q, q ∈ s.children → (q, Frame.censusResult rev r d) ∈ t.tor.tx) ∧
      ((s.tor.root = true ∨ s.tor.parent.toNat ≠ port.toNat) →
        exec (.censusStartReceive port m rev) s = .next s ∧ exec (.censusResultReceive port rev r d) s = .next s) ∧
      (s.children = [port.toNat] → s.island.summing = true → s.island.roundRevision = some rev →
        (s.tor.root = false → s.tor.parent.toNat < 8 → ∃ t : State, exec (.censusSumReceive port m r d) s = .next t ∧ t.island.summing = false ∧
          (s.tor.parent.toNat, Frame.censusSum (1 + m) ((if s.censusReadyNow rev then 1 else 0) + r) (s.disagreeing + d)) ∈ t.tor.tx) ∧
        (s.tor.root = true → ∃ t : State, exec (.censusSumReceive port m r d) s = .next t ∧ t.island.censusRevision = rev ∧
          t.island.censusReady = BitVec.ofNat 16 (min ((if s.censusReadyNow rev then 1 else 0) + r) 65535))) ∧
      (port.toNat ∉ s.children → exec (.censusSumReceive port m r d) s = .next s)

/-- Power caps and modes, the estimate and energy, calibration, droop, the thermal limits and the rail trim (R24, R450, R451,
R452, R453, R454, R455, R456, R457, R458, R465, R466). -/
def Obligations.PowerAndThermalComplete : Prop :=
  (∀ (s c : State) (j : Journal) (h : Pkt),
    (∀ w : BitVec 12, s.serving (.pwrCapSet h w) = some (j, c) →
      (1000 ≤ w.toNat ∧ w.toNat ≤ 2400 →
        exec (.pwrCapSet h w) s = .next (({ c with pwr := { c.pwr with cap := w } } : State).answered j 0x00 [])) ∧
      (w.toNat < 1000 ∨ 2400 < w.toNat → exec (.pwrCapSet h w) s = .next (c.answered j 0x04 []))) ∧
    (∀ op : BitVec 3, s.serving (.pwrFixedOp h op) = some (j, c) →
      ((∃ k, k < 16 ∧ c.runs k = true ∧ (c.co k).lanes ≠ []) → exec (.pwrFixedOp h op) s = .next (c.answered j 0x09 [])) ∧
      ((∀ k, k < 16 → c.runs k = true → (c.co k).lanes = []) →
        exec (.pwrFixedOp h op) s = .next (({ c with pwr := { c.pwr with fixedOp := op } } : State).answered j 0x00 []))) ∧
    ∀ a, s.serving (.pwrNvSet h a) = some (j, c) →
      exec (.pwrNvSet h a) s = .next (({ c with pwr := { c.pwr with ageingNext := a } } : State).answered j 0x00 [])) ∧
  (∀ (s : State) (raw k uj : Nat), 0 < k → k < 16 → (s.co k).present = true →
    ∃ t : State, exec (.powerEstimateTick raw [(k, uj)]) s = .next t ∧ t.nowNs = s.nowNs + 1000 ∧
    t.pwr.estimateW = BitVec.ofNat 16 (min 65535 (raw * s.pwr.gain.toNat / 16384)) ∧
    (t.co k).energy = (s.co k).energy + BitVec.ofNat 64 (min uj t.pwr.estimateW.toNat) ∧
    (t.co k).received = (s.co k).received + min uj t.pwr.estimateW.toNat ∧
    (t.co 0).energy = (s.co 0).energy + BitVec.ofNat 64 (t.pwr.estimateW.toNat - min uj t.pwr.estimateW.toNat) ∧
    (∀ q, q ≠ 0 → q ≠ k → (t.co q).energy = (s.co q).energy) ∧
    ((2400 < t.pwr.estimateW.toNat ∨ s.pwr.critical = true) → s.pwr.stretch < t.pwr.stretch ∧ (655 ≤ s.pwr.stretch → t.pwr.throttle = true ∧
      (s.pwr.throttleLogged = false → s.pwr.droopLogged = false →
        ∀ q, q < 16 → s.runs q = true → (t.co q).upd.faults = satAdd (s.co q).upd.faults 1))) ∧
    (t.pwr.estimateW.toNat ≤ 2400 → s.pwr.critical = false → t.pwr.throttle = s.pwr.throttle ∧ t.pwr.stretch ≤ max s.pwr.stretch 655 ∧
      (t.pwr.estimateW.toNat ≤ s.capNow → t.pwr.stretch = s.pwr.stretch) ∧
      (s.capNow < t.pwr.estimateW.toNat → s.pwr.stretch < 655 → s.pwr.stretch < t.pwr.stretch))) ∧
  (∀ (s : State) (mi mr : BitVec 16) (raw : Nat), (s.nowNs < s.pwr.measuredNs + 1000000 → exec (.powerMeasureTick mi mr raw) s = .next s) ∧
    (s.pwr.measuredNs + 1000000 ≤ s.nowNs → ∃ t : State, exec (.powerMeasureTick mi mr raw) s = .next t ∧ t.pwr.measuredNs = s.nowNs ∧
    t.pwr.inputW = mi ∧ t.pwr.railW = mr ∧ t.pwr.overLast = decide (s.capNow < mi.toNat) ∧
    13107 ≤ t.pwr.gain.toNat ∧ t.pwr.gain.toNat ≤ 20480 ∧
    s.pwr.capCeil.toNat ≤ t.pwr.capCeil.toNat + 1 ∧ t.pwr.capCeil.toNat ≤ s.pwr.capCeil.toNat + 1 ∧
    (t.pwr.capCeil.toNat < s.pwr.capCeil.toNat → s.pwr.overLast = true ∧ s.capNow < mi.toNat) ∧
    (s.pwr.overLast = true → s.capNow < mi.toNat → t.pwr.capCeil.toNat = s.pwr.capCeil.toNat - 1) ∧
    let loss : Int := 1000 * ((mi.toNat : Int) - mr.toNat)
    let total := s.receivedAll
    (total = 0 → (t.co 0).energy = (s.co 0).energy + BitVec.ofInt 64 loss) ∧
    (0 < total → ∀ k, k < 16 → (t.co k).received = 0 ∧ ∃ n : Int, (t.co k).energy = (s.co k).energy + BitVec.ofInt 64 n ∧
      n * total < loss * (s.co k).received + total ∧ loss * (s.co k).received < n * total + total))) ∧
  (∀ s : State, (∃ t : State, exec .currentLimitTrip s = .next t ∧ s.pwr.stretch < t.pwr.stretch ∧
      (655 < t.pwr.stretch → t.pwr.throttle = true ∧ t.pwr.throttleLogged = true) ∧
      (t.pwr.stretch ≤ 655 → t.pwr.throttle = s.pwr.throttle ∧ t.err = s.err)) ∧
    ∀ n, (s.pwr.drooped + n ≤ 655 → exec (.droopEvent n) s = .next
        { s with pwr := { s.pwr with drooped := s.pwr.drooped + n, stretch := s.pwr.stretch + min n (655 - s.pwr.stretch) } }) ∧
      (655 < s.pwr.drooped + n → s.pwr.droopLogged = true → exec (.droopEvent n) s = .next
        { s with pwr := { s.pwr with drooped := s.pwr.drooped + n, stretch := s.pwr.stretch + n } }) ∧
      (655 < s.pwr.drooped + n → s.pwr.droopLogged = false → ∃ t : State, exec (.droopEvent n) s = .next t ∧ t.pwr.throttle = true ∧
        t.pwr.droopLogged = true ∧ t.pwr.stretch = s.pwr.stretch + n ∧ (s.pwr.throttleLogged = false → ∀ q, q < 16 → s.runs q = true →
          (t.co q).upd.faults = satAdd (s.co q).upd.faults 1))) ∧
  (∀ (s : State) (die : Int) (sensor : BitVec 8) (dram : Int) (stack : Nat), ∃ t : State, exec (.thermalSample die sensor dram stack) s = .next t ∧
    t.pwr.hottest = BitVec.ofInt 16 die ∧ t.pwr.sensor = sensor ∧ t.pwr.dramHot = BitVec.ofInt 8 dram ∧
    t.pwr.hotNs = (if 800 < die ∨ 90 < dram then some (s.pwr.hotNs.getD s.nowNs) else none) ∧
    t.pwr.coolNs = (if die ≤ 736 ∧ dram ≤ 82 then some (s.pwr.coolNs.getD s.nowNs) else none) ∧
    (t.pwr.warned = true ↔ 760 < die ∨ 85 < dram) ∧ (t.pwr.critical = true ↔ 840 < die ∨ 95 < dram) ∧
    ((760 < die ∨ 85 < dram) → s.svc.powered = true → t.svc.alert = true) ∧
    ((920 < die ∨ 105 < dram) → s.pwr.shutdown = false → t.boot.railsUp = false ∧ t.pwr.shutdown = true ∧
      ∀ p, p < 8 → (t.port p).lasers = false) ∧
    (die ≤ 920 → dram ≤ 105 → t.boot = s.boot ∧ t.tor = s.tor)) ∧
  (∀ (s : State) (since : Nat),
    (s.pwr.hotNs = some since → since + 1000000 ≤ s.nowNs → exec (.thermalCeilingTick true) s =
      .next { s with pwr := { s.pwr with thermCeil := BitVec.ofNat 3 (s.pwr.thermCeil.toNat - 1), hotNs := some s.nowNs } }) ∧
    (s.pwr.coolNs = some since → since + 100000000 ≤ s.nowNs → exec (.thermalCeilingTick false) s =
      .next { s with pwr := { s.pwr with thermCeil := BitVec.ofNat 3 (min 7 (s.pwr.thermCeil.toNat + 1)), coolNs := some s.nowNs } }) ∧
    ((∀ u, s.pwr.hotNs = some u → s.nowNs < u + 1000000) → exec (.thermalCeilingTick true) s = .next s) ∧
    ((∀ u, s.pwr.coolNs = some u → s.nowNs < u + 100000000) → exec (.thermalCeilingTick false) s = .next s)) ∧
  ∀ (s : State) (slack : Bool),
    ((s.pwr.ageing = true ∨ s.smHolds = true ∨ s.nowNs < s.pwr.trimmedNs + 1000000) → exec (.railTrimTick slack) s = .next s) ∧
    (s.pwr.ageing = false → s.smHolds = false → s.pwr.trimmedNs + 1000000 ≤ s.nowNs → ∃ t : State, exec (.railTrimTick slack) s = .next t ∧
      t.pwr.trimmedNs = s.nowNs ∧ (slack = true → t.pwr.trim = max (min s.pwr.trim (-12)) (s.pwr.trim - 1)) ∧
      (slack = false → t.pwr.trim = min (max s.pwr.trim 16) (s.pwr.trim + 1)))

/-- Repair commands and holds, the boot phases, module reset and the 48 V input (R11, R418, R459, R460, R461, R463, R465, R468,
R469, R488, R496, R497). -/
def Obligations.RepairAndModuleStartComplete : Prop :=
  (∀ (s c : State) (j : Journal) (h : Pkt),
    (∀ (phys : BitVec 10) (kind : BitVec 2) (addr : Word), s.serving (.rprMark h phys kind addr) = some (j, c) →
      (markCheck c phys.toNat kind.toNat addr.toNat = none →
        exec (.rprMark h phys kind addr) s = .next ((c.arm kind.toNat phys.toNat addr.toNat).answered j 0x00 [])) ∧
      (kind = 0 → phys.toNat < 850 → (c.roleOf phys.toNat).role = 1 → c.coreSpare phys.toNat = false →
        exec (.rprMark h phys kind addr) s = .next (c.answered j 0x05 [])) ∧
      ((kind = 3 ∨ (kind.toNat < 2 ∧ 850 ≤ phys.toNat) ∨ (kind = 2 ∧ 384 ≤ phys.toNat)) →
        exec (.rprMark h phys kind addr) s = .next (c.answered j 0x04 []))) ∧
    ∀ (n : BitVec 8) (w : BitVec 16), s.serving (.rprPolicy h n w) = some (j, c) →
      (n ≠ 0 → w ≠ 0 → exec (.rprPolicy h n w) s =
        .next (({ c with rpr := { c.rpr with threshold := n, window := w } } : State).answered j 0x00 [])) ∧
      (n = 0 ∨ w = 0 → exec (.rprPolicy h n w) s = .next (c.answered j 0x04 []))) ∧
  (∀ (s : State) (k : Nat), k < 16 →
    ((s.co k).seq.hold = none → exec (.repairDone k) s = .next s) ∧
    ∀ e, (s.co k).seq.hold = some e → e.kind = 2 → (s.co k).seq.met = false →
      (s.armedFor k = [] → exec (.repairDone k) s = .next (s.meetHold k e)) ∧
      ∀ a, s.armedFor k = [a] → exec (.repairDone k) s = .next ((s.repairUnit a).meetHold k e)) ∧
  (∀ (s : State) (a : Armed), a.kind = 0 →
    (∀ p, s.rpr.log.length < 256 → (s.roleOf a.phys).role = 1 → s.rowSpare a.phys = some p → let t := s.repairUnit a
      t.roleOf p = s.roleOf a.phys ∧ (t.roleOf a.phys).role ≠ 1 ∧ (t.core a.phys).gated = true ∧
      a ∉ t.rpr.armed ∧ t.rpr.log = s.rpr.log ++ [a]) ∧
    ((256 ≤ s.rpr.log.length ∨ s.coreSpare a.phys = false) → let t := s.repairUnit a
      t.rpr.noSpare = true ∧ t.rpr.log = s.rpr.log ∧ t.cores = s.cores ∧ t.roles = s.roles)) ∧
  (∀ s : State, (s.boot.powerGood = false → s.pwr.shutdown = false → s.boot.band ≠ .lost → ∃ t : State, exec .powerGood s = .next t ∧
      t.boot.powerGood = true ∧ t.boot.railsUp = true ∧ t.boot.phase = 0 ∧ t.boot.powerGoodNs = s.nowNs) ∧
    (∀ u i, s.boot.powerGood = true → s.boot.phase = 0 → ∃ t : State, exec (.selftestDone (.failed u i)) s = .next t ∧ t.boot.phase = 4 ∧
      t.boot.failedUnit = u ∧ t.sm.ready = false ∧ ∀ p, p < 8 → (t.port p).lasers = false) ∧
    (∀ fs, s.boot.powerGood = true → s.boot.phase = 0 → ∃ t : State, exec (.selftestDone (.ok fs)) s = .next t ∧ t.boot.phase = 1 ∧
      t.boot.dramUp = true ∧ t.boot.found = fs ∧ t.pwr.op = 7 ∧ ∀ p, (t.core p).tile = [] ∧ (t.core p).flips = []) ∧
    (s.boot.phase = 1 → s.rpr.log = [] → s.boot.found = [] → s.svc.safe = false → ∃ t : State, exec (.repairApplicationDone (.ok [])) s = .next t ∧
      t.boot.phase = 2 ∧ t.boot.sparesUsed = 0 ∧ ∀ p, p < 8 → (s.port p).state ≠ .disabled → (t.port p).lasers = true) ∧
    (∀ u i, s.boot.phase = 1 → ∃ t : State, exec (.repairApplicationDone (.failed u i)) s = .next t ∧ t.boot.phase = 4 ∧ t.boot.failedUnit = u) ∧
    (s.boot.phase = 2 → (∃ t : State, exec (.firmwareReady true) s = .next t ∧ t.boot.phase = 3 ∧ t.sm.ready = true ∧ t.sm.mode = .running) ∧
      ∃ t : State, exec (.firmwareReady false) s = .next t ∧ t.boot.phase = 4 ∧ t.boot.failedUnit = 6 ∧ t.sm.ready = false) ∧
    (s.boot.phase ≠ 2 → ∀ b, exec (.firmwareReady b) s = .next s) ∧
    (∃ t : State, exec .moduleReset s = .next t ∧ t.fuses = s.fuses ∧ t.hostMem = s.hostMem ∧ t.rpr.log = s.rpr.log ∧ t.rpr.armed = [] ∧ t.dram = [] ∧
      t.cores = [] ∧ t.queues = [] ∧ t.err = {} ∧ t.cip = {} ∧ t.tor = {} ∧ t.cos = State.reset.cos ∧ t.boot.resetCount = s.boot.resetCount + 1 ∧
      t.pwr = { ageing := s.pwr.ageingNext, ageingNext := s.pwr.ageingNext } ∧ t.sm.journal = [] ∧ t.svc.powered = s.svc.powered) ∧
    (∀ dieE, s.isWarm = true → ∃ t : State, exec (.understudyRetest dieE none) s = .next t ∧ t.roles = s.roles ∧
      ∀ p, ¬ (p / 425 = if dieE then 1 else 0) → t.core p = s.core p)) ∧
  ∀ (s : State) (mv : BitVec 16),
    (40000 ≤ mv.toNat → mv.toNat ≤ 60000 → (s.boot.band ≠ .lost ∨ s.boot.powerGood = true) → exec (.vinBandChange mv) s =
      .next { s with boot := { s.boot with vinMv := mv, band := .normal } }) ∧
    (40000 ≤ mv.toNat → mv.toNat ≤ 62000 → s.boot.band = .lost → s.boot.powerGood = false → ∃ t : State, exec (.vinBandChange mv) s = .next t ∧
      t.boot.resetCount = s.boot.resetCount + 1 ∧ t.boot.vinMv = mv ∧ t.boot.phase = 0) ∧
    (∀ n, (38000 ≤ mv.toNat ∧ mv.toNat ≤ 62000 ∨ n ≤ 100) → exec (.pwrInputLoss mv n) s = .next s) ∧
    ∀ n, (mv.toNat < 38000 ∨ 62000 < mv.toNat) → 100 < n → ∃ t : State, exec (.pwrInputLoss mv n) s = .next t ∧ t.boot.band = .lost ∧
      t.boot.powerGood = false ∧ t.boot.pcieUp = false ∧ t.boot.railsUp = false ∧ t.sm.ready = false ∧ ∀ p, p < 8 → (t.port p).lasers = false

/-- The button, the mailbox, the Prompter, SMBus and JTAG of the service side (R9, R63, R411, R416, R435, R437, R439, R440, R441,
R442, R443, R502). -/
def Obligations.ServiceSideComplete : Prop :=
  (∀ s : State, s.svc.powered = true →
    let out (ls : List PromptLine) : Host.Outcome State Fault Refusal := .next { s with svc := { s.svc with uart := s.svc.uart ++ ls ++ [.prompt] } }
    let bus (cmd : Byte) (data : List Byte) : Host.Outcome State Fault Refusal :=
      .next { s with svc := { s.svc with smbus := data ++ [pec ([0x98, cmd, 0x99] ++ data)] } }
    exec .attnShortPress s = .next { s with svc := { s.svc with locate := !s.svc.locate } } ∧
    (∃ t : State, exec .attnLongPress s = .next t ∧ t.svc.removal = !s.svc.removal) ∧
    exec .prompterHelp s = out [.help] ∧
    (s.sm.ready = false → exec .prompterId s = out [.busy] ∧ exec .prompterStatus s = out [.busy] ∧ exec .prompterPorts s = out [.busy] ∧
      exec .prompterFatal s = out [.busy] ∧ ∀ n, exec (.prompterLog n) s = out [.busy]) ∧
    (s.sm.ready = true → exec .prompterId s = out [.id (s.readReg 0 0) s.serial s.sm.imageB (if s.sm.imageB then s.sm.versionB else s.sm.versionA)] ∧
      exec .prompterStatus s = out [.status (BitVec.ofNat 32 s.smStatus) s.cip.sealedMode s.boot.vinMv.toNat s.pwr.inputW.toNat s.pwr.hottest s.pwr.op] ∧
      exec .prompterPorts s = out ((List.range 8).map (fun p => PromptLine.port p (s.port p).state) ++
        [.farPort 0 (s.farPort 0).link, .farPort 1 (s.farPort 1).link]) ∧
      (∀ n, n < 64 → s.err.occ = (1#64) <<< n → ∀ r, tget none s.err.ring (4032 + n) = some r → exec .prompterFatal s = out [.record r]) ∧
      (∀ r, 0 < s.err.next → s.err.next ≠ 1024 → tget none s.err.ring (s.err.next - 1) = some r →
        exec (.prompterLog (some 1)) s = out [.record r])) ∧
    (∀ on, exec (.prompterLocate on) s = .next { s with svc := { s.svc with locate := on, uart := s.svc.uart ++ [.ok, .prompt] } }) ∧
    (∀ n, (n ∈ [115200, 230400, 460800, 921600, 1500000, 3000000] → ∃ t : State, exec (.prompterBaud n) s = .next t ∧ t.svc.baud = n) ∧
      (n ∉ [115200, 230400, 460800, 921600, 1500000, 3000000] → exec (.prompterBaud n) s = out [])) ∧
    (∃ t : State, exec .prompterSmreset s = .next t ∧ t.sm.ready = false ∧ t.sm.resets = satAdd s.sm.resets 1) ∧
    (∀ a, a < 0x4000000 →
      (s.cip.sealedMode = true → exec (.prompterPeek a) s = out [.denied]) ∧
      (s.cip.sealedMode = false → s.sm.ready = false → exec (.prompterPeek a) s = out [.busy]) ∧
      (s.cip.sealedMode = false → s.sm.ready = true → a / 8 * 8 ≠ 0x200008 → (a < 0x2000000 ∨ a % 0x4000 / 4 * 4 ≠ 0x14) →
        exec (.prompterPeek a) s = out [.value (s.readReg 0 a)]) ∧
      (s.cip.sealedMode = false → s.sm.ready = true → a = 0x20000C →
        ∃ t : State, exec (.prompterPeek a) s = .next t ∧ t.err = { s.err with dropUncorrected := 0 })) ∧
    (∀ a, 0x4000000 ≤ a → s.cip.sealedMode = false → s.sm.ready = true → exec (.prompterPeek a) s = out [.value 0]) ∧
    exec .smbusStatusRead s = bus 0x01 [s.smbusStatus] ∧ exec .smbusTempRead s = bus 0x02 (leBytes 2 s.pwr.hottest.toNat) ∧
    exec .smbusPowerRead s = bus 0x03 (leBytes 2 s.pwr.inputW.toNat) ∧ exec .smbusSerialRead s = bus 0x05 (8 :: leBytes 8 s.serial.toNat) ∧
    exec (.smbusLocateWrite 0) s = .next { s with svc := { s.svc with locate := false } } ∧
    exec (.smbusLocateWrite 1) s = .next { s with svc := { s.svc with locate := true } } ∧
    (s.svc.alert = true → ∃ t : State, exec .smbusAlertResponse s = .next t ∧ t.svc.alert = false ∧ t.svc.smbus.head? = some 0x98) ∧
    (∀ a b c d, (s.cip.sealedMode = false →
        exec (.jtagAccess a b c d) s = .next { s with svc := { s.svc with tck := a, tms := b, tdi := c, trstN := d } }) ∧
      (s.cip.sealedMode = true → exec (.jtagAccess a b c d) s = .next s)) ∧
    ∀ (data : List Byte) (crc : Word),
      let good : Prop := crc = crc32 ([0, 0] ++ leBytes 2 data.length ++ data)
      (good → data.length ≤ 248 → s.sm.ready = true → exec (.mailboxFrame 0 data crc) s =
        .next { s with svc := { s.svc with mailbox := (1, (Config.mailboxAnswer data).take 248) :: s.svc.mailbox } }) ∧
      (¬ good ∨ 248 < data.length → exec (.mailboxFrame 0 data crc) s = .next s)) ∧
  (∀ s : State, exec .smbusBusTimeout s = .next { s with svc := { s.svc with smbus := [] } } ∧
    exec .serviceSideReset s = .next { s with svc := { powered := true } } ∧ exec .svc3v3Loss s = .next { s with svc := {} }) ∧
  (∀ (s : State) (c : Instr), s.svc.powered = false → (c = .prompterHelp ∨ c = .prompterId ∨ c = .prompterStatus ∨ c = .attnShortPress ∨
    c = .attnLongPress ∨ c = .prompterSmreset ∨ c = .smbusStatusRead ∨ c = .smbusTempRead ∨ c = .smbusPowerRead ∨ c = .smbusSerialRead ∨
    c = .smbusAlertResponse) → exec c s = .next s) ∧
  (pec [0x98, 0x01, 0x99] ≠ pec [0x98, 0x02, 0x99] ∧ ∀ bs : List Byte, pec (bs ++ [pec bs]) = 0)
end

