-- ==== Sys2Proof/Laws/Table.lean ====
section
/-!
SUPPORT. Read-after-write laws of sparse tables and byte memories, and that their operations keep the canonical form.
-/

namespace Sys2Proof.Machine

variable {α : Type} [DecidableEq α]

omit [DecidableEq α] in
@[simp] theorem tget_nil (d : α) (k : Nat) : tget d [] k = d := rfl

omit [DecidableEq α] in
theorem tget_tput_self (d : α) (t : Table α) (k : Nat) (v : α) : tget d (tput t k v) k = v := by
  induction t with
  | nil => simp [tput, tget]
  | cons x t ih =>
    obtain ⟨j, w⟩ := x
    simp only [tput]
    split
    · simp [tget]
    · split
      · simp [tget]
      · simp [tget, *]

omit [DecidableEq α] in
theorem tget_tput_ne (d : α) (t : Table α) {k j : Nat} (v : α) (h : j ≠ k) : tget d (tput t k v) j = tget d t j := by
  induction t with
  | nil => simp [tput, tget, h.symm]
  | cons x t ih =>
    obtain ⟨i, w⟩ := x
    simp only [tput]
    split
    · simp [tget, h.symm]
    · split
      · subst_vars; simp [tget, h.symm]
      · simp [tget, ih]

omit [DecidableEq α] in
theorem tget_tdel_self (d : α) (t : Table α) (k : Nat) : tget d (tdel t k) k = d := by
  induction t with
  | nil => rfl
  | cons x t ih =>
    obtain ⟨i, w⟩ := x
    simp only [tdel]
    split
    · exact ih
    · simp [tget, *]

omit [DecidableEq α] in
theorem tget_tdel_ne (d : α) (t : Table α) {k j : Nat} (h : j ≠ k) : tget d (tdel t k) j = tget d t j := by
  induction t with
  | nil => rfl
  | cons x t ih =>
    obtain ⟨i, w⟩ := x
    simp only [tdel]
    split
    · subst_vars; simp [tget, h.symm, ih]
    · simp [tget, ih]

/-- What was written is read. -/
@[simp] theorem tget_tset_self (d : α) (t : Table α) (k : Nat) (v : α) : tget d (tset d t k v) k = v := by
  simp only [tset]; split
  · subst_vars; exact tget_tdel_self _ t k
  · exact tget_tput_self d t k v

/-- A write leaves every other key. -/
theorem tget_tset_ne (d : α) (t : Table α) {k j : Nat} (v : α) (h : j ≠ k) : tget d (tset d t k v) j = tget d t j := by
  simp only [tset]; split
  · exact tget_tdel_ne d t h
  · exact tget_tput_ne d t v h

theorem tget_tset (d : α) (t : Table α) (k j : Nat) (v : α) : tget d (tset d t k v) j = if j = k then v else tget d t j := by
  split
  · subst_vars; simp
  · exact tget_tset_ne d t v ‹_›

@[simp] theorem tget_tmod_self (d : α) (t : Table α) (k : Nat) (f : α → α) : tget d (tmod d t k f) k = f (tget d t k) := by
  simp [tmod]

theorem tget_tmod_ne (d : α) (t : Table α) {k j : Nat} (f : α → α) (h : j ≠ k) : tget d (tmod d t k f) j = tget d t j :=
  tget_tset_ne d t _ h

theorem tget_tmod (d : α) (t : Table α) (k j : Nat) (f : α → α) :
    tget d (tmod d t k f) j = if j = k then f (tget d t k) else tget d t j := by
  simp [tmod, tget_tset]

/-! ### The canonical form -/

theorem twfFrom_mono (d : α) {lo lo' : Nat} (t : Table α) (h : lo' ≤ lo) (w : twfFrom d lo t = true) : twfFrom d lo' t = true := by
  cases t with
  | nil => rfl
  | cons x t =>
    obtain ⟨i, v⟩ := x
    simp only [twfFrom, Bool.and_eq_true, decide_eq_true_eq] at w ⊢
    exact ⟨⟨Nat.le_trans h w.1.1, w.1.2⟩, w.2⟩

theorem twfFrom_tdel (d : α) (t : Table α) (k : Nat) : ∀ lo, twfFrom d lo t = true → twfFrom d lo (tdel t k) = true := by
  induction t with
  | nil => intro _ _; rfl
  | cons x t ih =>
    obtain ⟨i, v⟩ := x
    intro lo w
    simp only [twfFrom, Bool.and_eq_true, decide_eq_true_eq] at w
    simp only [tdel]
    split
    · exact twfFrom_mono d _ (Nat.le_succ_of_le w.1.1) (ih _ w.2)
    · simp only [twfFrom, Bool.and_eq_true, decide_eq_true_eq]
      exact ⟨w.1, ih _ w.2⟩

theorem twfFrom_tput (d : α) (t : Table α) (k : Nat) (v : α) (hv : v ≠ d) :
    ∀ lo, lo ≤ k → twfFrom d lo t = true → twfFrom d lo (tput t k v) = true := by
  induction t with
  | nil => intro lo h _; simp [tput, twfFrom, h, hv]
  | cons x t ih =>
    obtain ⟨i, w⟩ := x
    intro lo h hw
    simp only [twfFrom, Bool.and_eq_true, decide_eq_true_eq] at hw
    simp only [tput]
    split
    · simp only [twfFrom, Bool.and_eq_true, decide_eq_true_eq]
      exact ⟨⟨h, hv⟩, ⟨by omega, hw.1.2⟩, hw.2⟩
    · split
      · simp only [twfFrom, Bool.and_eq_true, decide_eq_true_eq]
        subst_vars; exact ⟨⟨h, hv⟩, hw.2⟩
      · simp only [twfFrom, Bool.and_eq_true, decide_eq_true_eq]
        exact ⟨hw.1, ih _ (by omega) hw.2⟩

/-- A write keeps the canonical form. -/
theorem twf_tset (d : α) (t : Table α) (k : Nat) (v : α) (w : twf d t = true) : twf d (tset d t k v) = true := by
  simp only [twf, tset] at *
  split
  · exact twfFrom_tdel d t k 0 w
  · exact twfFrom_tput d t k v ‹_› 0 (Nat.zero_le _) w

/-! ### Byte memories -/

theorem mbyte_mstore (m : Mem) (a b : Nat) (v : Byte) : mbyte (mstore m a v) b = if b = a then v else mbyte m b :=
  tget_tset 0 m a b v

theorem Memory.wf_mstore (m : Mem) (a : Nat) (v : Byte) (w : Memory.wf m = true) : Memory.wf (mstore m a v) = true :=
  twf_tset 0 m a v w

/-- A store of bytes keeps the canonical form. -/
theorem Memory.wf_mwrite (bs : List Byte) : ∀ (m : Mem) (a : Nat), Memory.wf m = true → Memory.wf (mwrite m a bs) = true := by
  induction bs with
  | nil => intro _ _ w; exact w
  | cons b bs ih => intro m a w; exact ih _ _ (Memory.wf_mstore m a b w)

/-- Bytes outside a store read as before. -/
theorem mbyte_mwrite_outside (bs : List Byte) : ∀ (m : Mem) (a x : Nat), x < a ∨ a + bs.length ≤ x → mbyte (mwrite m a bs) x = mbyte m x := by
  induction bs with
  | nil => intro _ _ _ _; rfl
  | cons b bs ih =>
    intro m a x h
    simp only [List.length_cons] at h
    rw [mwrite, ih _ _ _ (by omega), mbyte_mstore, if_neg (by omega)]

/-- Bytes of a store read as stored. -/
theorem mbyte_mwrite_inside (bs : List Byte) : ∀ (m : Mem) (a i : Nat) (h : i < bs.length), mbyte (mwrite m a bs) (a + i) = bs[i] := by
  induction bs with
  | nil => intro _ _ _ h; simp at h
  | cons b bs ih =>
    intro m a i h
    rw [mwrite]
    cases i with
    | zero => rw [mbyte_mwrite_outside _ _ _ _ (by omega), mbyte_mstore]; simp
    | succ i =>
      have := ih (mstore m a b) (a + 1) i (by simpa using h)
      rw [show a + (i + 1) = a + 1 + i by omega, this]; simp

end Sys2Proof.Machine
end

