-- ==== Sys2Proof/Laws/State.lean ====
section
/-!
SUPPORT. For each update of State: the part it changes reads as written, and every other part reads as before. One lemma per part
per update.
-/

namespace Sys2Proof.Machine

variable (s : State) (i j : Nat)

/-! ### modCo -/

theorem State.modCo_co (f : Co → Co) : (s.modCo i f).co j = if j = i then f (s.co i) else s.co j := tget_tmod _ _ _ _ _
@[simp] theorem State.modCo_co_self (f : Co → Co) : (s.modCo i f).co i = f (s.co i) := tget_tmod_self _ _ _ _
theorem State.modCo_co_ne (f : Co → Co) (h : j ≠ i) : (s.modCo i f).co j = s.co j := tget_tmod_ne _ _ _ h
@[simp] theorem State.modCo_core (f : Co → Co) : (s.modCo i f).core j = s.core j := rfl
@[simp] theorem State.modCo_queue (f : Co → Co) : (s.modCo i f).queue j = s.queue j := rfl
@[simp] theorem State.modCo_ctr (f : Co → Co) : (s.modCo i f).ctr j = s.ctr j := rfl
@[simp] theorem State.modCo_watch (f : Co → Co) : (s.modCo i f).watch j = s.watch j := rfl
@[simp] theorem State.modCo_func (f : Co → Co) : (s.modCo i f).func j = s.func j := rfl
@[simp] theorem State.modCo_port (f : Co → Co) : (s.modCo i f).port j = s.port j := rfl
@[simp] theorem State.modCo_chan (f : Co → Co) : (s.modCo i f).chan j = s.chan j := rfl
@[simp] theorem State.modCo_fly (f : Co → Co) : (s.modCo i f).fly j = s.fly j := rfl
@[simp] theorem State.modCo_engine (f : Co → Co) : (s.modCo i f).engine j = s.engine j := rfl
@[simp] theorem State.modCo_farPort (f : Co → Co) : (s.modCo i f).farPort j = s.farPort j := rfl
@[simp] theorem State.modCo_pending (f : Co → Co) : (s.modCo i f).pending = s.pending := rfl
@[simp] theorem State.modCo_nowNs (f : Co → Co) : (s.modCo i f).nowNs = s.nowNs := rfl
@[simp] theorem State.modCo_free (f : Co → Co) : (s.modCo i f).free = s.free := rfl
@[simp] theorem State.modCo_gradeA768 (f : Co → Co) : (s.modCo i f).gradeA768 = s.gradeA768 := rfl
@[simp] theorem State.modCo_opticsF2 (f : Co → Co) : (s.modCo i f).opticsF2 = s.opticsF2 := rfl
@[simp] theorem State.modCo_serial (f : Co → Co) : (s.modCo i f).serial = s.serial := rfl
@[simp] theorem State.modCo_grid (f : Co → Co) : (s.modCo i f).grid = s.grid := rfl
@[simp] theorem State.modCo_boot (f : Co → Co) : (s.modCo i f).boot = s.boot := rfl
@[simp] theorem State.modCo_island (f : Co → Co) : (s.modCo i f).island = s.island := rfl
@[simp] theorem State.modCo_tor (f : Co → Co) : (s.modCo i f).tor = s.tor := rfl
@[simp] theorem State.modCo_funcs (f : Co → Co) : (s.modCo i f).funcs = s.funcs := rfl
@[simp] theorem State.modCo_roles (f : Co → Co) : (s.modCo i f).roles = s.roles := rfl
@[simp] theorem State.modCo_cores (f : Co → Co) : (s.modCo i f).cores = s.cores := rfl
@[simp] theorem State.modCo_dram (f : Co → Co) : (s.modCo i f).dram = s.dram := rfl
@[simp] theorem State.modCo_dramFlips (f : Co → Co) : (s.modCo i f).dramFlips = s.dramFlips := rfl
@[simp] theorem State.modCo_channels (f : Co → Co) : (s.modCo i f).channels = s.channels := rfl
@[simp] theorem State.modCo_flys (f : Co → Co) : (s.modCo i f).flys = s.flys := rfl
@[simp] theorem State.modCo_mesh (f : Co → Co) : (s.modCo i f).mesh = s.mesh := rfl
@[simp] theorem State.modCo_engines (f : Co → Co) : (s.modCo i f).engines = s.engines := rfl
@[simp] theorem State.modCo_hostMem (f : Co → Co) : (s.modCo i f).hostMem = s.hostMem := rfl
@[simp] theorem State.modCo_answers (f : Co → Co) : (s.modCo i f).answers = s.answers := rfl
@[simp] theorem State.modCo_wingsGot (f : Co → Co) : (s.modCo i f).wingsGot = s.wingsGot := rfl
@[simp] theorem State.modCo_wingsOut (f : Co → Co) : (s.modCo i f).wingsOut = s.wingsOut := rfl
@[simp] theorem State.modCo_pakLast (f : Co → Co) : (s.modCo i f).pakLast = s.pakLast := rfl
@[simp] theorem State.modCo_dmaTurn (f : Co → Co) : (s.modCo i f).dmaTurn = s.dmaTurn := rfl
@[simp] theorem State.modCo_incHost (f : Co → Co) : (s.modCo i f).incHost = s.incHost := rfl
@[simp] theorem State.modCo_queues (f : Co → Co) : (s.modCo i f).queues = s.queues := rfl
@[simp] theorem State.modCo_readSlots (f : Co → Co) : (s.modCo i f).readSlots = s.readSlots := rfl
@[simp] theorem State.modCo_frozenChans (f : Co → Co) : (s.modCo i f).frozenChans = s.frozenChans := rfl
@[simp] theorem State.modCo_counters (f : Co → Co) : (s.modCo i f).counters = s.counters := rfl
@[simp] theorem State.modCo_watches (f : Co → Co) : (s.modCo i f).watches = s.watches := rfl
@[simp] theorem State.modCo_incStage (f : Co → Co) : (s.modCo i f).incStage = s.incStage := rfl
@[simp] theorem State.modCo_incDma (f : Co → Co) : (s.modCo i f).incDma = s.incDma := rfl
@[simp] theorem State.modCo_incWings (f : Co → Co) : (s.modCo i f).incWings = s.incWings := rfl
@[simp] theorem State.modCo_cip (f : Co → Co) : (s.modCo i f).cip = s.cip := rfl
@[simp] theorem State.modCo_farPorts (f : Co → Co) : (s.modCo i f).farPorts = s.farPorts := rfl
@[simp] theorem State.modCo_restore (f : Co → Co) : (s.modCo i f).restore = s.restore := rfl
@[simp] theorem State.modCo_sm (f : Co → Co) : (s.modCo i f).sm = s.sm := rfl
@[simp] theorem State.modCo_err (f : Co → Co) : (s.modCo i f).err = s.err := rfl
@[simp] theorem State.modCo_pwr (f : Co → Co) : (s.modCo i f).pwr = s.pwr := rfl
@[simp] theorem State.modCo_rpr (f : Co → Co) : (s.modCo i f).rpr = s.rpr := rfl
@[simp] theorem State.modCo_svc (f : Co → Co) : (s.modCo i f).svc = s.svc := rfl

/-! ### modCore -/

theorem State.modCore_core (f : Core → Core) : (s.modCore i f).core j = if j = i then f (s.core i) else s.core j := tget_tmod _ _ _ _ _
@[simp] theorem State.modCore_core_self (f : Core → Core) : (s.modCore i f).core i = f (s.core i) := tget_tmod_self _ _ _ _
theorem State.modCore_core_ne (f : Core → Core) (h : j ≠ i) : (s.modCore i f).core j = s.core j := tget_tmod_ne _ _ _ h
@[simp] theorem State.modCore_co (f : Core → Core) : (s.modCore i f).co j = s.co j := rfl
@[simp] theorem State.modCore_queue (f : Core → Core) : (s.modCore i f).queue j = s.queue j := rfl
@[simp] theorem State.modCore_ctr (f : Core → Core) : (s.modCore i f).ctr j = s.ctr j := rfl
@[simp] theorem State.modCore_watch (f : Core → Core) : (s.modCore i f).watch j = s.watch j := rfl
@[simp] theorem State.modCore_func (f : Core → Core) : (s.modCore i f).func j = s.func j := rfl
@[simp] theorem State.modCore_port (f : Core → Core) : (s.modCore i f).port j = s.port j := rfl
@[simp] theorem State.modCore_chan (f : Core → Core) : (s.modCore i f).chan j = s.chan j := rfl
@[simp] theorem State.modCore_fly (f : Core → Core) : (s.modCore i f).fly j = s.fly j := rfl
@[simp] theorem State.modCore_engine (f : Core → Core) : (s.modCore i f).engine j = s.engine j := rfl
@[simp] theorem State.modCore_farPort (f : Core → Core) : (s.modCore i f).farPort j = s.farPort j := rfl
@[simp] theorem State.modCore_pending (f : Core → Core) : (s.modCore i f).pending = s.pending := rfl
@[simp] theorem State.modCore_nowNs (f : Core → Core) : (s.modCore i f).nowNs = s.nowNs := rfl
@[simp] theorem State.modCore_free (f : Core → Core) : (s.modCore i f).free = s.free := rfl
@[simp] theorem State.modCore_gradeA768 (f : Core → Core) : (s.modCore i f).gradeA768 = s.gradeA768 := rfl
@[simp] theorem State.modCore_opticsF2 (f : Core → Core) : (s.modCore i f).opticsF2 = s.opticsF2 := rfl
@[simp] theorem State.modCore_serial (f : Core → Core) : (s.modCore i f).serial = s.serial := rfl
@[simp] theorem State.modCore_grid (f : Core → Core) : (s.modCore i f).grid = s.grid := rfl
@[simp] theorem State.modCore_boot (f : Core → Core) : (s.modCore i f).boot = s.boot := rfl
@[simp] theorem State.modCore_island (f : Core → Core) : (s.modCore i f).island = s.island := rfl
@[simp] theorem State.modCore_tor (f : Core → Core) : (s.modCore i f).tor = s.tor := rfl
@[simp] theorem State.modCore_cos (f : Core → Core) : (s.modCore i f).cos = s.cos := rfl
@[simp] theorem State.modCore_funcs (f : Core → Core) : (s.modCore i f).funcs = s.funcs := rfl
@[simp] theorem State.modCore_roles (f : Core → Core) : (s.modCore i f).roles = s.roles := rfl
@[simp] theorem State.modCore_dram (f : Core → Core) : (s.modCore i f).dram = s.dram := rfl
@[simp] theorem State.modCore_dramFlips (f : Core → Core) : (s.modCore i f).dramFlips = s.dramFlips := rfl
@[simp] theorem State.modCore_channels (f : Core → Core) : (s.modCore i f).channels = s.channels := rfl
@[simp] theorem State.modCore_flys (f : Core → Core) : (s.modCore i f).flys = s.flys := rfl
@[simp] theorem State.modCore_mesh (f : Core → Core) : (s.modCore i f).mesh = s.mesh := rfl
@[simp] theorem State.modCore_engines (f : Core → Core) : (s.modCore i f).engines = s.engines := rfl
@[simp] theorem State.modCore_hostMem (f : Core → Core) : (s.modCore i f).hostMem = s.hostMem := rfl
@[simp] theorem State.modCore_answers (f : Core → Core) : (s.modCore i f).answers = s.answers := rfl
@[simp] theorem State.modCore_wingsGot (f : Core → Core) : (s.modCore i f).wingsGot = s.wingsGot := rfl
@[simp] theorem State.modCore_wingsOut (f : Core → Core) : (s.modCore i f).wingsOut = s.wingsOut := rfl
@[simp] theorem State.modCore_pakLast (f : Core → Core) : (s.modCore i f).pakLast = s.pakLast := rfl
@[simp] theorem State.modCore_dmaTurn (f : Core → Core) : (s.modCore i f).dmaTurn = s.dmaTurn := rfl
@[simp] theorem State.modCore_incHost (f : Core → Core) : (s.modCore i f).incHost = s.incHost := rfl
@[simp] theorem State.modCore_queues (f : Core → Core) : (s.modCore i f).queues = s.queues := rfl
@[simp] theorem State.modCore_readSlots (f : Core → Core) : (s.modCore i f).readSlots = s.readSlots := rfl
@[simp] theorem State.modCore_frozenChans (f : Core → Core) : (s.modCore i f).frozenChans = s.frozenChans := rfl
@[simp] theorem State.modCore_counters (f : Core → Core) : (s.modCore i f).counters = s.counters := rfl
@[simp] theorem State.modCore_watches (f : Core → Core) : (s.modCore i f).watches = s.watches := rfl
@[simp] theorem State.modCore_incStage (f : Core → Core) : (s.modCore i f).incStage = s.incStage := rfl
@[simp] theorem State.modCore_incDma (f : Core → Core) : (s.modCore i f).incDma = s.incDma := rfl
@[simp] theorem State.modCore_incWings (f : Core → Core) : (s.modCore i f).incWings = s.incWings := rfl
@[simp] theorem State.modCore_cip (f : Core → Core) : (s.modCore i f).cip = s.cip := rfl
@[simp] theorem State.modCore_farPorts (f : Core → Core) : (s.modCore i f).farPorts = s.farPorts := rfl
@[simp] theorem State.modCore_restore (f : Core → Core) : (s.modCore i f).restore = s.restore := rfl
@[simp] theorem State.modCore_sm (f : Core → Core) : (s.modCore i f).sm = s.sm := rfl
@[simp] theorem State.modCore_err (f : Core → Core) : (s.modCore i f).err = s.err := rfl
@[simp] theorem State.modCore_pwr (f : Core → Core) : (s.modCore i f).pwr = s.pwr := rfl
@[simp] theorem State.modCore_rpr (f : Core → Core) : (s.modCore i f).rpr = s.rpr := rfl
@[simp] theorem State.modCore_svc (f : Core → Core) : (s.modCore i f).svc = s.svc := rfl

/-! ### modQueue -/

theorem State.modQueue_queue (f : Queue → Queue) : (s.modQueue i f).queue j = if j = i then f (s.queue i) else s.queue j := tget_tmod _ _ _ _ _
@[simp] theorem State.modQueue_queue_self (f : Queue → Queue) : (s.modQueue i f).queue i = f (s.queue i) := tget_tmod_self _ _ _ _
theorem State.modQueue_queue_ne (f : Queue → Queue) (h : j ≠ i) : (s.modQueue i f).queue j = s.queue j := tget_tmod_ne _ _ _ h
@[simp] theorem State.modQueue_co (f : Queue → Queue) : (s.modQueue i f).co j = s.co j := rfl
@[simp] theorem State.modQueue_core (f : Queue → Queue) : (s.modQueue i f).core j = s.core j := rfl
@[simp] theorem State.modQueue_ctr (f : Queue → Queue) : (s.modQueue i f).ctr j = s.ctr j := rfl
@[simp] theorem State.modQueue_watch (f : Queue → Queue) : (s.modQueue i f).watch j = s.watch j := rfl
@[simp] theorem State.modQueue_func (f : Queue → Queue) : (s.modQueue i f).func j = s.func j := rfl
@[simp] theorem State.modQueue_port (f : Queue → Queue) : (s.modQueue i f).port j = s.port j := rfl
@[simp] theorem State.modQueue_chan (f : Queue → Queue) : (s.modQueue i f).chan j = s.chan j := rfl
@[simp] theorem State.modQueue_fly (f : Queue → Queue) : (s.modQueue i f).fly j = s.fly j := rfl
@[simp] theorem State.modQueue_engine (f : Queue → Queue) : (s.modQueue i f).engine j = s.engine j := rfl
@[simp] theorem State.modQueue_farPort (f : Queue → Queue) : (s.modQueue i f).farPort j = s.farPort j := rfl
@[simp] theorem State.modQueue_pending (f : Queue → Queue) : (s.modQueue i f).pending = s.pending := rfl
@[simp] theorem State.modQueue_nowNs (f : Queue → Queue) : (s.modQueue i f).nowNs = s.nowNs := rfl
@[simp] theorem State.modQueue_free (f : Queue → Queue) : (s.modQueue i f).free = s.free := rfl
@[simp] theorem State.modQueue_gradeA768 (f : Queue → Queue) : (s.modQueue i f).gradeA768 = s.gradeA768 := rfl
@[simp] theorem State.modQueue_opticsF2 (f : Queue → Queue) : (s.modQueue i f).opticsF2 = s.opticsF2 := rfl
@[simp] theorem State.modQueue_serial (f : Queue → Queue) : (s.modQueue i f).serial = s.serial := rfl
@[simp] theorem State.modQueue_grid (f : Queue → Queue) : (s.modQueue i f).grid = s.grid := rfl
@[simp] theorem State.modQueue_boot (f : Queue → Queue) : (s.modQueue i f).boot = s.boot := rfl
@[simp] theorem State.modQueue_island (f : Queue → Queue) : (s.modQueue i f).island = s.island := rfl
@[simp] theorem State.modQueue_tor (f : Queue → Queue) : (s.modQueue i f).tor = s.tor := rfl
@[simp] theorem State.modQueue_cos (f : Queue → Queue) : (s.modQueue i f).cos = s.cos := rfl
@[simp] theorem State.modQueue_funcs (f : Queue → Queue) : (s.modQueue i f).funcs = s.funcs := rfl
@[simp] theorem State.modQueue_roles (f : Queue → Queue) : (s.modQueue i f).roles = s.roles := rfl
@[simp] theorem State.modQueue_cores (f : Queue → Queue) : (s.modQueue i f).cores = s.cores := rfl
@[simp] theorem State.modQueue_dram (f : Queue → Queue) : (s.modQueue i f).dram = s.dram := rfl
@[simp] theorem State.modQueue_dramFlips (f : Queue → Queue) : (s.modQueue i f).dramFlips = s.dramFlips := rfl
@[simp] theorem State.modQueue_channels (f : Queue → Queue) : (s.modQueue i f).channels = s.channels := rfl
@[simp] theorem State.modQueue_flys (f : Queue → Queue) : (s.modQueue i f).flys = s.flys := rfl
@[simp] theorem State.modQueue_mesh (f : Queue → Queue) : (s.modQueue i f).mesh = s.mesh := rfl
@[simp] theorem State.modQueue_engines (f : Queue → Queue) : (s.modQueue i f).engines = s.engines := rfl
@[simp] theorem State.modQueue_hostMem (f : Queue → Queue) : (s.modQueue i f).hostMem = s.hostMem := rfl
@[simp] theorem State.modQueue_answers (f : Queue → Queue) : (s.modQueue i f).answers = s.answers := rfl
@[simp] theorem State.modQueue_wingsGot (f : Queue → Queue) : (s.modQueue i f).wingsGot = s.wingsGot := rfl
@[simp] theorem State.modQueue_wingsOut (f : Queue → Queue) : (s.modQueue i f).wingsOut = s.wingsOut := rfl
@[simp] theorem State.modQueue_pakLast (f : Queue → Queue) : (s.modQueue i f).pakLast = s.pakLast := rfl
@[simp] theorem State.modQueue_dmaTurn (f : Queue → Queue) : (s.modQueue i f).dmaTurn = s.dmaTurn := rfl
@[simp] theorem State.modQueue_incHost (f : Queue → Queue) : (s.modQueue i f).incHost = s.incHost := rfl
@[simp] theorem State.modQueue_readSlots (f : Queue → Queue) : (s.modQueue i f).readSlots = s.readSlots := rfl
@[simp] theorem State.modQueue_frozenChans (f : Queue → Queue) : (s.modQueue i f).frozenChans = s.frozenChans := rfl
@[simp] theorem State.modQueue_counters (f : Queue → Queue) : (s.modQueue i f).counters = s.counters := rfl
@[simp] theorem State.modQueue_watches (f : Queue → Queue) : (s.modQueue i f).watches = s.watches := rfl
@[simp] theorem State.modQueue_incStage (f : Queue → Queue) : (s.modQueue i f).incStage = s.incStage := rfl
@[simp] theorem State.modQueue_incDma (f : Queue → Queue) : (s.modQueue i f).incDma = s.incDma := rfl
@[simp] theorem State.modQueue_incWings (f : Queue → Queue) : (s.modQueue i f).incWings = s.incWings := rfl
@[simp] theorem State.modQueue_cip (f : Queue → Queue) : (s.modQueue i f).cip = s.cip := rfl
@[simp] theorem State.modQueue_farPorts (f : Queue → Queue) : (s.modQueue i f).farPorts = s.farPorts := rfl
@[simp] theorem State.modQueue_restore (f : Queue → Queue) : (s.modQueue i f).restore = s.restore := rfl
@[simp] theorem State.modQueue_sm (f : Queue → Queue) : (s.modQueue i f).sm = s.sm := rfl
@[simp] theorem State.modQueue_err (f : Queue → Queue) : (s.modQueue i f).err = s.err := rfl
@[simp] theorem State.modQueue_pwr (f : Queue → Queue) : (s.modQueue i f).pwr = s.pwr := rfl
@[simp] theorem State.modQueue_rpr (f : Queue → Queue) : (s.modQueue i f).rpr = s.rpr := rfl
@[simp] theorem State.modQueue_svc (f : Queue → Queue) : (s.modQueue i f).svc = s.svc := rfl

/-! ### modCtr -/

theorem State.modCtr_ctr (f : Counter → Counter) : (s.modCtr i f).ctr j = if j = i then f (s.ctr i) else s.ctr j := tget_tmod _ _ _ _ _
@[simp] theorem State.modCtr_ctr_self (f : Counter → Counter) : (s.modCtr i f).ctr i = f (s.ctr i) := tget_tmod_self _ _ _ _
theorem State.modCtr_ctr_ne (f : Counter → Counter) (h : j ≠ i) : (s.modCtr i f).ctr j = s.ctr j := tget_tmod_ne _ _ _ h
@[simp] theorem State.modCtr_co (f : Counter → Counter) : (s.modCtr i f).co j = s.co j := rfl
@[simp] theorem State.modCtr_core (f : Counter → Counter) : (s.modCtr i f).core j = s.core j := rfl
@[simp] theorem State.modCtr_queue (f : Counter → Counter) : (s.modCtr i f).queue j = s.queue j := rfl
@[simp] theorem State.modCtr_watch (f : Counter → Counter) : (s.modCtr i f).watch j = s.watch j := rfl
@[simp] theorem State.modCtr_func (f : Counter → Counter) : (s.modCtr i f).func j = s.func j := rfl
@[simp] theorem State.modCtr_port (f : Counter → Counter) : (s.modCtr i f).port j = s.port j := rfl
@[simp] theorem State.modCtr_chan (f : Counter → Counter) : (s.modCtr i f).chan j = s.chan j := rfl
@[simp] theorem State.modCtr_fly (f : Counter → Counter) : (s.modCtr i f).fly j = s.fly j := rfl
@[simp] theorem State.modCtr_engine (f : Counter → Counter) : (s.modCtr i f).engine j = s.engine j := rfl
@[simp] theorem State.modCtr_farPort (f : Counter → Counter) : (s.modCtr i f).farPort j = s.farPort j := rfl
@[simp] theorem State.modCtr_pending (f : Counter → Counter) : (s.modCtr i f).pending = s.pending := rfl
@[simp] theorem State.modCtr_nowNs (f : Counter → Counter) : (s.modCtr i f).nowNs = s.nowNs := rfl
@[simp] theorem State.modCtr_free (f : Counter → Counter) : (s.modCtr i f).free = s.free := rfl
@[simp] theorem State.modCtr_gradeA768 (f : Counter → Counter) : (s.modCtr i f).gradeA768 = s.gradeA768 := rfl
@[simp] theorem State.modCtr_opticsF2 (f : Counter → Counter) : (s.modCtr i f).opticsF2 = s.opticsF2 := rfl
@[simp] theorem State.modCtr_serial (f : Counter → Counter) : (s.modCtr i f).serial = s.serial := rfl
@[simp] theorem State.modCtr_grid (f : Counter → Counter) : (s.modCtr i f).grid = s.grid := rfl
@[simp] theorem State.modCtr_boot (f : Counter → Counter) : (s.modCtr i f).boot = s.boot := rfl
@[simp] theorem State.modCtr_island (f : Counter → Counter) : (s.modCtr i f).island = s.island := rfl
@[simp] theorem State.modCtr_tor (f : Counter → Counter) : (s.modCtr i f).tor = s.tor := rfl
@[simp] theorem State.modCtr_cos (f : Counter → Counter) : (s.modCtr i f).cos = s.cos := rfl
@[simp] theorem State.modCtr_funcs (f : Counter → Counter) : (s.modCtr i f).funcs = s.funcs := rfl
@[simp] theorem State.modCtr_roles (f : Counter → Counter) : (s.modCtr i f).roles = s.roles := rfl
@[simp] theorem State.modCtr_cores (f : Counter → Counter) : (s.modCtr i f).cores = s.cores := rfl
@[simp] theorem State.modCtr_dram (f : Counter → Counter) : (s.modCtr i f).dram = s.dram := rfl
@[simp] theorem State.modCtr_dramFlips (f : Counter → Counter) : (s.modCtr i f).dramFlips = s.dramFlips := rfl
@[simp] theorem State.modCtr_channels (f : Counter → Counter) : (s.modCtr i f).channels = s.channels := rfl
@[simp] theorem State.modCtr_flys (f : Counter → Counter) : (s.modCtr i f).flys = s.flys := rfl
@[simp] theorem State.modCtr_mesh (f : Counter → Counter) : (s.modCtr i f).mesh = s.mesh := rfl
@[simp] theorem State.modCtr_engines (f : Counter → Counter) : (s.modCtr i f).engines = s.engines := rfl
@[simp] theorem State.modCtr_hostMem (f : Counter → Counter) : (s.modCtr i f).hostMem = s.hostMem := rfl
@[simp] theorem State.modCtr_answers (f : Counter → Counter) : (s.modCtr i f).answers = s.answers := rfl
@[simp] theorem State.modCtr_wingsGot (f : Counter → Counter) : (s.modCtr i f).wingsGot = s.wingsGot := rfl
@[simp] theorem State.modCtr_wingsOut (f : Counter → Counter) : (s.modCtr i f).wingsOut = s.wingsOut := rfl
@[simp] theorem State.modCtr_pakLast (f : Counter → Counter) : (s.modCtr i f).pakLast = s.pakLast := rfl
@[simp] theorem State.modCtr_dmaTurn (f : Counter → Counter) : (s.modCtr i f).dmaTurn = s.dmaTurn := rfl
@[simp] theorem State.modCtr_incHost (f : Counter → Counter) : (s.modCtr i f).incHost = s.incHost := rfl
@[simp] theorem State.modCtr_queues (f : Counter → Counter) : (s.modCtr i f).queues = s.queues := rfl
@[simp] theorem State.modCtr_readSlots (f : Counter → Counter) : (s.modCtr i f).readSlots = s.readSlots := rfl
@[simp] theorem State.modCtr_frozenChans (f : Counter → Counter) : (s.modCtr i f).frozenChans = s.frozenChans := rfl
@[simp] theorem State.modCtr_watches (f : Counter → Counter) : (s.modCtr i f).watches = s.watches := rfl
@[simp] theorem State.modCtr_incStage (f : Counter → Counter) : (s.modCtr i f).incStage = s.incStage := rfl
@[simp] theorem State.modCtr_incDma (f : Counter → Counter) : (s.modCtr i f).incDma = s.incDma := rfl
@[simp] theorem State.modCtr_incWings (f : Counter → Counter) : (s.modCtr i f).incWings = s.incWings := rfl
@[simp] theorem State.modCtr_cip (f : Counter → Counter) : (s.modCtr i f).cip = s.cip := rfl
@[simp] theorem State.modCtr_farPorts (f : Counter → Counter) : (s.modCtr i f).farPorts = s.farPorts := rfl
@[simp] theorem State.modCtr_restore (f : Counter → Counter) : (s.modCtr i f).restore = s.restore := rfl
@[simp] theorem State.modCtr_sm (f : Counter → Counter) : (s.modCtr i f).sm = s.sm := rfl
@[simp] theorem State.modCtr_err (f : Counter → Counter) : (s.modCtr i f).err = s.err := rfl
@[simp] theorem State.modCtr_pwr (f : Counter → Counter) : (s.modCtr i f).pwr = s.pwr := rfl
@[simp] theorem State.modCtr_rpr (f : Counter → Counter) : (s.modCtr i f).rpr = s.rpr := rfl
@[simp] theorem State.modCtr_svc (f : Counter → Counter) : (s.modCtr i f).svc = s.svc := rfl

/-! ### modWatch -/

theorem State.modWatch_watch (f : Watch → Watch) : (s.modWatch i f).watch j = if j = i then f (s.watch i) else s.watch j := tget_tmod _ _ _ _ _
@[simp] theorem State.modWatch_watch_self (f : Watch → Watch) : (s.modWatch i f).watch i = f (s.watch i) := tget_tmod_self _ _ _ _
theorem State.modWatch_watch_ne (f : Watch → Watch) (h : j ≠ i) : (s.modWatch i f).watch j = s.watch j := tget_tmod_ne _ _ _ h
@[simp] theorem State.modWatch_co (f : Watch → Watch) : (s.modWatch i f).co j = s.co j := rfl
@[simp] theorem State.modWatch_core (f : Watch → Watch) : (s.modWatch i f).core j = s.core j := rfl
@[simp] theorem State.modWatch_queue (f : Watch → Watch) : (s.modWatch i f).queue j = s.queue j := rfl
@[simp] theorem State.modWatch_ctr (f : Watch → Watch) : (s.modWatch i f).ctr j = s.ctr j := rfl
@[simp] theorem State.modWatch_func (f : Watch → Watch) : (s.modWatch i f).func j = s.func j := rfl
@[simp] theorem State.modWatch_port (f : Watch → Watch) : (s.modWatch i f).port j = s.port j := rfl
@[simp] theorem State.modWatch_chan (f : Watch → Watch) : (s.modWatch i f).chan j = s.chan j := rfl
@[simp] theorem State.modWatch_fly (f : Watch → Watch) : (s.modWatch i f).fly j = s.fly j := rfl
@[simp] theorem State.modWatch_engine (f : Watch → Watch) : (s.modWatch i f).engine j = s.engine j := rfl
@[simp] theorem State.modWatch_farPort (f : Watch → Watch) : (s.modWatch i f).farPort j = s.farPort j := rfl
@[simp] theorem State.modWatch_pending (f : Watch → Watch) : (s.modWatch i f).pending = s.pending := rfl
@[simp] theorem State.modWatch_nowNs (f : Watch → Watch) : (s.modWatch i f).nowNs = s.nowNs := rfl
@[simp] theorem State.modWatch_free (f : Watch → Watch) : (s.modWatch i f).free = s.free := rfl
@[simp] theorem State.modWatch_gradeA768 (f : Watch → Watch) : (s.modWatch i f).gradeA768 = s.gradeA768 := rfl
@[simp] theorem State.modWatch_opticsF2 (f : Watch → Watch) : (s.modWatch i f).opticsF2 = s.opticsF2 := rfl
@[simp] theorem State.modWatch_serial (f : Watch → Watch) : (s.modWatch i f).serial = s.serial := rfl
@[simp] theorem State.modWatch_grid (f : Watch → Watch) : (s.modWatch i f).grid = s.grid := rfl
@[simp] theorem State.modWatch_boot (f : Watch → Watch) : (s.modWatch i f).boot = s.boot := rfl
@[simp] theorem State.modWatch_island (f : Watch → Watch) : (s.modWatch i f).island = s.island := rfl
@[simp] theorem State.modWatch_tor (f : Watch → Watch) : (s.modWatch i f).tor = s.tor := rfl
@[simp] theorem State.modWatch_cos (f : Watch → Watch) : (s.modWatch i f).cos = s.cos := rfl
@[simp] theorem State.modWatch_funcs (f : Watch → Watch) : (s.modWatch i f).funcs = s.funcs := rfl
@[simp] theorem State.modWatch_roles (f : Watch → Watch) : (s.modWatch i f).roles = s.roles := rfl
@[simp] theorem State.modWatch_cores (f : Watch → Watch) : (s.modWatch i f).cores = s.cores := rfl
@[simp] theorem State.modWatch_dram (f : Watch → Watch) : (s.modWatch i f).dram = s.dram := rfl
@[simp] theorem State.modWatch_dramFlips (f : Watch → Watch) : (s.modWatch i f).dramFlips = s.dramFlips := rfl
@[simp] theorem State.modWatch_channels (f : Watch → Watch) : (s.modWatch i f).channels = s.channels := rfl
@[simp] theorem State.modWatch_flys (f : Watch → Watch) : (s.modWatch i f).flys = s.flys := rfl
@[simp] theorem State.modWatch_mesh (f : Watch → Watch) : (s.modWatch i f).mesh = s.mesh := rfl
@[simp] theorem State.modWatch_engines (f : Watch → Watch) : (s.modWatch i f).engines = s.engines := rfl
@[simp] theorem State.modWatch_hostMem (f : Watch → Watch) : (s.modWatch i f).hostMem = s.hostMem := rfl
@[simp] theorem State.modWatch_answers (f : Watch → Watch) : (s.modWatch i f).answers = s.answers := rfl
@[simp] theorem State.modWatch_wingsGot (f : Watch → Watch) : (s.modWatch i f).wingsGot = s.wingsGot := rfl
@[simp] theorem State.modWatch_wingsOut (f : Watch → Watch) : (s.modWatch i f).wingsOut = s.wingsOut := rfl
@[simp] theorem State.modWatch_pakLast (f : Watch → Watch) : (s.modWatch i f).pakLast = s.pakLast := rfl
@[simp] theorem State.modWatch_dmaTurn (f : Watch → Watch) : (s.modWatch i f).dmaTurn = s.dmaTurn := rfl
@[simp] theorem State.modWatch_incHost (f : Watch → Watch) : (s.modWatch i f).incHost = s.incHost := rfl
@[simp] theorem State.modWatch_queues (f : Watch → Watch) : (s.modWatch i f).queues = s.queues := rfl
@[simp] theorem State.modWatch_readSlots (f : Watch → Watch) : (s.modWatch i f).readSlots = s.readSlots := rfl
@[simp] theorem State.modWatch_frozenChans (f : Watch → Watch) : (s.modWatch i f).frozenChans = s.frozenChans := rfl
@[simp] theorem State.modWatch_counters (f : Watch → Watch) : (s.modWatch i f).counters = s.counters := rfl
@[simp] theorem State.modWatch_incStage (f : Watch → Watch) : (s.modWatch i f).incStage = s.incStage := rfl
@[simp] theorem State.modWatch_incDma (f : Watch → Watch) : (s.modWatch i f).incDma = s.incDma := rfl
@[simp] theorem State.modWatch_incWings (f : Watch → Watch) : (s.modWatch i f).incWings = s.incWings := rfl
@[simp] theorem State.modWatch_cip (f : Watch → Watch) : (s.modWatch i f).cip = s.cip := rfl
@[simp] theorem State.modWatch_farPorts (f : Watch → Watch) : (s.modWatch i f).farPorts = s.farPorts := rfl
@[simp] theorem State.modWatch_restore (f : Watch → Watch) : (s.modWatch i f).restore = s.restore := rfl
@[simp] theorem State.modWatch_sm (f : Watch → Watch) : (s.modWatch i f).sm = s.sm := rfl
@[simp] theorem State.modWatch_err (f : Watch → Watch) : (s.modWatch i f).err = s.err := rfl
@[simp] theorem State.modWatch_pwr (f : Watch → Watch) : (s.modWatch i f).pwr = s.pwr := rfl
@[simp] theorem State.modWatch_rpr (f : Watch → Watch) : (s.modWatch i f).rpr = s.rpr := rfl
@[simp] theorem State.modWatch_svc (f : Watch → Watch) : (s.modWatch i f).svc = s.svc := rfl

/-! ### modFunc -/

theorem State.modFunc_func (f : Func → Func) : (s.modFunc i f).func j = if j = i then f (s.func i) else s.func j := tget_tmod _ _ _ _ _
@[simp] theorem State.modFunc_func_self (f : Func → Func) : (s.modFunc i f).func i = f (s.func i) := tget_tmod_self _ _ _ _
theorem State.modFunc_func_ne (f : Func → Func) (h : j ≠ i) : (s.modFunc i f).func j = s.func j := tget_tmod_ne _ _ _ h
@[simp] theorem State.modFunc_co (f : Func → Func) : (s.modFunc i f).co j = s.co j := rfl
@[simp] theorem State.modFunc_core (f : Func → Func) : (s.modFunc i f).core j = s.core j := rfl
@[simp] theorem State.modFunc_queue (f : Func → Func) : (s.modFunc i f).queue j = s.queue j := rfl
@[simp] theorem State.modFunc_ctr (f : Func → Func) : (s.modFunc i f).ctr j = s.ctr j := rfl
@[simp] theorem State.modFunc_watch (f : Func → Func) : (s.modFunc i f).watch j = s.watch j := rfl
@[simp] theorem State.modFunc_port (f : Func → Func) : (s.modFunc i f).port j = s.port j := rfl
@[simp] theorem State.modFunc_chan (f : Func → Func) : (s.modFunc i f).chan j = s.chan j := rfl
@[simp] theorem State.modFunc_fly (f : Func → Func) : (s.modFunc i f).fly j = s.fly j := rfl
@[simp] theorem State.modFunc_engine (f : Func → Func) : (s.modFunc i f).engine j = s.engine j := rfl
@[simp] theorem State.modFunc_farPort (f : Func → Func) : (s.modFunc i f).farPort j = s.farPort j := rfl
@[simp] theorem State.modFunc_pending (f : Func → Func) : (s.modFunc i f).pending = s.pending := rfl
@[simp] theorem State.modFunc_nowNs (f : Func → Func) : (s.modFunc i f).nowNs = s.nowNs := rfl
@[simp] theorem State.modFunc_free (f : Func → Func) : (s.modFunc i f).free = s.free := rfl
@[simp] theorem State.modFunc_gradeA768 (f : Func → Func) : (s.modFunc i f).gradeA768 = s.gradeA768 := rfl
@[simp] theorem State.modFunc_opticsF2 (f : Func → Func) : (s.modFunc i f).opticsF2 = s.opticsF2 := rfl
@[simp] theorem State.modFunc_serial (f : Func → Func) : (s.modFunc i f).serial = s.serial := rfl
@[simp] theorem State.modFunc_grid (f : Func → Func) : (s.modFunc i f).grid = s.grid := rfl
@[simp] theorem State.modFunc_boot (f : Func → Func) : (s.modFunc i f).boot = s.boot := rfl
@[simp] theorem State.modFunc_island (f : Func → Func) : (s.modFunc i f).island = s.island := rfl
@[simp] theorem State.modFunc_tor (f : Func → Func) : (s.modFunc i f).tor = s.tor := rfl
@[simp] theorem State.modFunc_cos (f : Func → Func) : (s.modFunc i f).cos = s.cos := rfl
@[simp] theorem State.modFunc_roles (f : Func → Func) : (s.modFunc i f).roles = s.roles := rfl
@[simp] theorem State.modFunc_cores (f : Func → Func) : (s.modFunc i f).cores = s.cores := rfl
@[simp] theorem State.modFunc_dram (f : Func → Func) : (s.modFunc i f).dram = s.dram := rfl
@[simp] theorem State.modFunc_dramFlips (f : Func → Func) : (s.modFunc i f).dramFlips = s.dramFlips := rfl
@[simp] theorem State.modFunc_channels (f : Func → Func) : (s.modFunc i f).channels = s.channels := rfl
@[simp] theorem State.modFunc_flys (f : Func → Func) : (s.modFunc i f).flys = s.flys := rfl
@[simp] theorem State.modFunc_mesh (f : Func → Func) : (s.modFunc i f).mesh = s.mesh := rfl
@[simp] theorem State.modFunc_engines (f : Func → Func) : (s.modFunc i f).engines = s.engines := rfl
@[simp] theorem State.modFunc_hostMem (f : Func → Func) : (s.modFunc i f).hostMem = s.hostMem := rfl
@[simp] theorem State.modFunc_answers (f : Func → Func) : (s.modFunc i f).answers = s.answers := rfl
@[simp] theorem State.modFunc_wingsGot (f : Func → Func) : (s.modFunc i f).wingsGot = s.wingsGot := rfl
@[simp] theorem State.modFunc_wingsOut (f : Func → Func) : (s.modFunc i f).wingsOut = s.wingsOut := rfl
@[simp] theorem State.modFunc_pakLast (f : Func → Func) : (s.modFunc i f).pakLast = s.pakLast := rfl
@[simp] theorem State.modFunc_dmaTurn (f : Func → Func) : (s.modFunc i f).dmaTurn = s.dmaTurn := rfl
@[simp] theorem State.modFunc_incHost (f : Func → Func) : (s.modFunc i f).incHost = s.incHost := rfl
@[simp] theorem State.modFunc_queues (f : Func → Func) : (s.modFunc i f).queues = s.queues := rfl
@[simp] theorem State.modFunc_readSlots (f : Func → Func) : (s.modFunc i f).readSlots = s.readSlots := rfl
@[simp] theorem State.modFunc_frozenChans (f : Func → Func) : (s.modFunc i f).frozenChans = s.frozenChans := rfl
@[simp] theorem State.modFunc_counters (f : Func → Func) : (s.modFunc i f).counters = s.counters := rfl
@[simp] theorem State.modFunc_watches (f : Func → Func) : (s.modFunc i f).watches = s.watches := rfl
@[simp] theorem State.modFunc_incStage (f : Func → Func) : (s.modFunc i f).incStage = s.incStage := rfl
@[simp] theorem State.modFunc_incDma (f : Func → Func) : (s.modFunc i f).incDma = s.incDma := rfl
@[simp] theorem State.modFunc_incWings (f : Func → Func) : (s.modFunc i f).incWings = s.incWings := rfl
@[simp] theorem State.modFunc_cip (f : Func → Func) : (s.modFunc i f).cip = s.cip := rfl
@[simp] theorem State.modFunc_farPorts (f : Func → Func) : (s.modFunc i f).farPorts = s.farPorts := rfl
@[simp] theorem State.modFunc_restore (f : Func → Func) : (s.modFunc i f).restore = s.restore := rfl
@[simp] theorem State.modFunc_sm (f : Func → Func) : (s.modFunc i f).sm = s.sm := rfl
@[simp] theorem State.modFunc_err (f : Func → Func) : (s.modFunc i f).err = s.err := rfl
@[simp] theorem State.modFunc_pwr (f : Func → Func) : (s.modFunc i f).pwr = s.pwr := rfl
@[simp] theorem State.modFunc_rpr (f : Func → Func) : (s.modFunc i f).rpr = s.rpr := rfl
@[simp] theorem State.modFunc_svc (f : Func → Func) : (s.modFunc i f).svc = s.svc := rfl

/-! ### modPort -/

theorem State.modPort_port (f : Port → Port) : (s.modPort i f).port j = if j = i then f (s.port i) else s.port j := tget_tmod _ _ _ _ _
@[simp] theorem State.modPort_port_self (f : Port → Port) : (s.modPort i f).port i = f (s.port i) := tget_tmod_self _ _ _ _
theorem State.modPort_port_ne (f : Port → Port) (h : j ≠ i) : (s.modPort i f).port j = s.port j := tget_tmod_ne _ _ _ h
@[simp] theorem State.modPort_co (f : Port → Port) : (s.modPort i f).co j = s.co j := rfl
@[simp] theorem State.modPort_core (f : Port → Port) : (s.modPort i f).core j = s.core j := rfl
@[simp] theorem State.modPort_queue (f : Port → Port) : (s.modPort i f).queue j = s.queue j := rfl
@[simp] theorem State.modPort_ctr (f : Port → Port) : (s.modPort i f).ctr j = s.ctr j := rfl
@[simp] theorem State.modPort_watch (f : Port → Port) : (s.modPort i f).watch j = s.watch j := rfl
@[simp] theorem State.modPort_func (f : Port → Port) : (s.modPort i f).func j = s.func j := rfl
@[simp] theorem State.modPort_chan (f : Port → Port) : (s.modPort i f).chan j = s.chan j := rfl
@[simp] theorem State.modPort_fly (f : Port → Port) : (s.modPort i f).fly j = s.fly j := rfl
@[simp] theorem State.modPort_engine (f : Port → Port) : (s.modPort i f).engine j = s.engine j := rfl
@[simp] theorem State.modPort_farPort (f : Port → Port) : (s.modPort i f).farPort j = s.farPort j := rfl
@[simp] theorem State.modPort_pending (f : Port → Port) : (s.modPort i f).pending = s.pending := rfl
@[simp] theorem State.modPort_nowNs (f : Port → Port) : (s.modPort i f).nowNs = s.nowNs := rfl
@[simp] theorem State.modPort_free (f : Port → Port) : (s.modPort i f).free = s.free := rfl
@[simp] theorem State.modPort_gradeA768 (f : Port → Port) : (s.modPort i f).gradeA768 = s.gradeA768 := rfl
@[simp] theorem State.modPort_opticsF2 (f : Port → Port) : (s.modPort i f).opticsF2 = s.opticsF2 := rfl
@[simp] theorem State.modPort_serial (f : Port → Port) : (s.modPort i f).serial = s.serial := rfl
@[simp] theorem State.modPort_grid (f : Port → Port) : (s.modPort i f).grid = s.grid := rfl
@[simp] theorem State.modPort_boot (f : Port → Port) : (s.modPort i f).boot = s.boot := rfl
@[simp] theorem State.modPort_island (f : Port → Port) : (s.modPort i f).island = s.island := rfl
@[simp] theorem State.modPort_cos (f : Port → Port) : (s.modPort i f).cos = s.cos := rfl
@[simp] theorem State.modPort_funcs (f : Port → Port) : (s.modPort i f).funcs = s.funcs := rfl
@[simp] theorem State.modPort_roles (f : Port → Port) : (s.modPort i f).roles = s.roles := rfl
@[simp] theorem State.modPort_cores (f : Port → Port) : (s.modPort i f).cores = s.cores := rfl
@[simp] theorem State.modPort_dram (f : Port → Port) : (s.modPort i f).dram = s.dram := rfl
@[simp] theorem State.modPort_dramFlips (f : Port → Port) : (s.modPort i f).dramFlips = s.dramFlips := rfl
@[simp] theorem State.modPort_channels (f : Port → Port) : (s.modPort i f).channels = s.channels := rfl
@[simp] theorem State.modPort_flys (f : Port → Port) : (s.modPort i f).flys = s.flys := rfl
@[simp] theorem State.modPort_mesh (f : Port → Port) : (s.modPort i f).mesh = s.mesh := rfl
@[simp] theorem State.modPort_engines (f : Port → Port) : (s.modPort i f).engines = s.engines := rfl
@[simp] theorem State.modPort_hostMem (f : Port → Port) : (s.modPort i f).hostMem = s.hostMem := rfl
@[simp] theorem State.modPort_answers (f : Port → Port) : (s.modPort i f).answers = s.answers := rfl
@[simp] theorem State.modPort_wingsGot (f : Port → Port) : (s.modPort i f).wingsGot = s.wingsGot := rfl
@[simp] theorem State.modPort_wingsOut (f : Port → Port) : (s.modPort i f).wingsOut = s.wingsOut := rfl
@[simp] theorem State.modPort_pakLast (f : Port → Port) : (s.modPort i f).pakLast = s.pakLast := rfl
@[simp] theorem State.modPort_dmaTurn (f : Port → Port) : (s.modPort i f).dmaTurn = s.dmaTurn := rfl
@[simp] theorem State.modPort_incHost (f : Port → Port) : (s.modPort i f).incHost = s.incHost := rfl
@[simp] theorem State.modPort_queues (f : Port → Port) : (s.modPort i f).queues = s.queues := rfl
@[simp] theorem State.modPort_readSlots (f : Port → Port) : (s.modPort i f).readSlots = s.readSlots := rfl
@[simp] theorem State.modPort_frozenChans (f : Port → Port) : (s.modPort i f).frozenChans = s.frozenChans := rfl
@[simp] theorem State.modPort_counters (f : Port → Port) : (s.modPort i f).counters = s.counters := rfl
@[simp] theorem State.modPort_watches (f : Port → Port) : (s.modPort i f).watches = s.watches := rfl
@[simp] theorem State.modPort_incStage (f : Port → Port) : (s.modPort i f).incStage = s.incStage := rfl
@[simp] theorem State.modPort_incDma (f : Port → Port) : (s.modPort i f).incDma = s.incDma := rfl
@[simp] theorem State.modPort_incWings (f : Port → Port) : (s.modPort i f).incWings = s.incWings := rfl
@[simp] theorem State.modPort_cip (f : Port → Port) : (s.modPort i f).cip = s.cip := rfl
@[simp] theorem State.modPort_farPorts (f : Port → Port) : (s.modPort i f).farPorts = s.farPorts := rfl
@[simp] theorem State.modPort_restore (f : Port → Port) : (s.modPort i f).restore = s.restore := rfl
@[simp] theorem State.modPort_sm (f : Port → Port) : (s.modPort i f).sm = s.sm := rfl
@[simp] theorem State.modPort_err (f : Port → Port) : (s.modPort i f).err = s.err := rfl
@[simp] theorem State.modPort_pwr (f : Port → Port) : (s.modPort i f).pwr = s.pwr := rfl
@[simp] theorem State.modPort_rpr (f : Port → Port) : (s.modPort i f).rpr = s.rpr := rfl
@[simp] theorem State.modPort_svc (f : Port → Port) : (s.modPort i f).svc = s.svc := rfl

/-! ### modChan -/

theorem State.modChan_chan (f : Channel → Channel) : (s.modChan i f).chan j = if j = i then f (s.chan i) else s.chan j := tget_tmod _ _ _ _ _
@[simp] theorem State.modChan_chan_self (f : Channel → Channel) : (s.modChan i f).chan i = f (s.chan i) := tget_tmod_self _ _ _ _
theorem State.modChan_chan_ne (f : Channel → Channel) (h : j ≠ i) : (s.modChan i f).chan j = s.chan j := tget_tmod_ne _ _ _ h
@[simp] theorem State.modChan_co (f : Channel → Channel) : (s.modChan i f).co j = s.co j := rfl
@[simp] theorem State.modChan_core (f : Channel → Channel) : (s.modChan i f).core j = s.core j := rfl
@[simp] theorem State.modChan_queue (f : Channel → Channel) : (s.modChan i f).queue j = s.queue j := rfl
@[simp] theorem State.modChan_ctr (f : Channel → Channel) : (s.modChan i f).ctr j = s.ctr j := rfl
@[simp] theorem State.modChan_watch (f : Channel → Channel) : (s.modChan i f).watch j = s.watch j := rfl
@[simp] theorem State.modChan_func (f : Channel → Channel) : (s.modChan i f).func j = s.func j := rfl
@[simp] theorem State.modChan_port (f : Channel → Channel) : (s.modChan i f).port j = s.port j := rfl
@[simp] theorem State.modChan_fly (f : Channel → Channel) : (s.modChan i f).fly j = s.fly j := rfl
@[simp] theorem State.modChan_engine (f : Channel → Channel) : (s.modChan i f).engine j = s.engine j := rfl
@[simp] theorem State.modChan_farPort (f : Channel → Channel) : (s.modChan i f).farPort j = s.farPort j := rfl
@[simp] theorem State.modChan_pending (f : Channel → Channel) : (s.modChan i f).pending = s.pending := rfl
@[simp] theorem State.modChan_nowNs (f : Channel → Channel) : (s.modChan i f).nowNs = s.nowNs := rfl
@[simp] theorem State.modChan_free (f : Channel → Channel) : (s.modChan i f).free = s.free := rfl
@[simp] theorem State.modChan_gradeA768 (f : Channel → Channel) : (s.modChan i f).gradeA768 = s.gradeA768 := rfl
@[simp] theorem State.modChan_opticsF2 (f : Channel → Channel) : (s.modChan i f).opticsF2 = s.opticsF2 := rfl
@[simp] theorem State.modChan_serial (f : Channel → Channel) : (s.modChan i f).serial = s.serial := rfl
@[simp] theorem State.modChan_grid (f : Channel → Channel) : (s.modChan i f).grid = s.grid := rfl
@[simp] theorem State.modChan_boot (f : Channel → Channel) : (s.modChan i f).boot = s.boot := rfl
@[simp] theorem State.modChan_island (f : Channel → Channel) : (s.modChan i f).island = s.island := rfl
@[simp] theorem State.modChan_tor (f : Channel → Channel) : (s.modChan i f).tor = s.tor := rfl
@[simp] theorem State.modChan_cos (f : Channel → Channel) : (s.modChan i f).cos = s.cos := rfl
@[simp] theorem State.modChan_funcs (f : Channel → Channel) : (s.modChan i f).funcs = s.funcs := rfl
@[simp] theorem State.modChan_roles (f : Channel → Channel) : (s.modChan i f).roles = s.roles := rfl
@[simp] theorem State.modChan_cores (f : Channel → Channel) : (s.modChan i f).cores = s.cores := rfl
@[simp] theorem State.modChan_dram (f : Channel → Channel) : (s.modChan i f).dram = s.dram := rfl
@[simp] theorem State.modChan_dramFlips (f : Channel → Channel) : (s.modChan i f).dramFlips = s.dramFlips := rfl
@[simp] theorem State.modChan_flys (f : Channel → Channel) : (s.modChan i f).flys = s.flys := rfl
@[simp] theorem State.modChan_mesh (f : Channel → Channel) : (s.modChan i f).mesh = s.mesh := rfl
@[simp] theorem State.modChan_engines (f : Channel → Channel) : (s.modChan i f).engines = s.engines := rfl
@[simp] theorem State.modChan_hostMem (f : Channel → Channel) : (s.modChan i f).hostMem = s.hostMem := rfl
@[simp] theorem State.modChan_answers (f : Channel → Channel) : (s.modChan i f).answers = s.answers := rfl
@[simp] theorem State.modChan_wingsGot (f : Channel → Channel) : (s.modChan i f).wingsGot = s.wingsGot := rfl
@[simp] theorem State.modChan_wingsOut (f : Channel → Channel) : (s.modChan i f).wingsOut = s.wingsOut := rfl
@[simp] theorem State.modChan_pakLast (f : Channel → Channel) : (s.modChan i f).pakLast = s.pakLast := rfl
@[simp] theorem State.modChan_dmaTurn (f : Channel → Channel) : (s.modChan i f).dmaTurn = s.dmaTurn := rfl
@[simp] theorem State.modChan_incHost (f : Channel → Channel) : (s.modChan i f).incHost = s.incHost := rfl
@[simp] theorem State.modChan_queues (f : Channel → Channel) : (s.modChan i f).queues = s.queues := rfl
@[simp] theorem State.modChan_readSlots (f : Channel → Channel) : (s.modChan i f).readSlots = s.readSlots := rfl
@[simp] theorem State.modChan_frozenChans (f : Channel → Channel) : (s.modChan i f).frozenChans = s.frozenChans := rfl
@[simp] theorem State.modChan_counters (f : Channel → Channel) : (s.modChan i f).counters = s.counters := rfl
@[simp] theorem State.modChan_watches (f : Channel → Channel) : (s.modChan i f).watches = s.watches := rfl
@[simp] theorem State.modChan_incStage (f : Channel → Channel) : (s.modChan i f).incStage = s.incStage := rfl
@[simp] theorem State.modChan_incDma (f : Channel → Channel) : (s.modChan i f).incDma = s.incDma := rfl
@[simp] theorem State.modChan_incWings (f : Channel → Channel) : (s.modChan i f).incWings = s.incWings := rfl
@[simp] theorem State.modChan_cip (f : Channel → Channel) : (s.modChan i f).cip = s.cip := rfl
@[simp] theorem State.modChan_farPorts (f : Channel → Channel) : (s.modChan i f).farPorts = s.farPorts := rfl
@[simp] theorem State.modChan_restore (f : Channel → Channel) : (s.modChan i f).restore = s.restore := rfl
@[simp] theorem State.modChan_sm (f : Channel → Channel) : (s.modChan i f).sm = s.sm := rfl
@[simp] theorem State.modChan_err (f : Channel → Channel) : (s.modChan i f).err = s.err := rfl
@[simp] theorem State.modChan_pwr (f : Channel → Channel) : (s.modChan i f).pwr = s.pwr := rfl
@[simp] theorem State.modChan_rpr (f : Channel → Channel) : (s.modChan i f).rpr = s.rpr := rfl
@[simp] theorem State.modChan_svc (f : Channel → Channel) : (s.modChan i f).svc = s.svc := rfl

/-! ### modFly -/

theorem State.modFly_fly (f : Fly → Fly) : (s.modFly i f).fly j = if j = i then f (s.fly i) else s.fly j := tget_tmod _ _ _ _ _
@[simp] theorem State.modFly_fly_self (f : Fly → Fly) : (s.modFly i f).fly i = f (s.fly i) := tget_tmod_self _ _ _ _
theorem State.modFly_fly_ne (f : Fly → Fly) (h : j ≠ i) : (s.modFly i f).fly j = s.fly j := tget_tmod_ne _ _ _ h
@[simp] theorem State.modFly_co (f : Fly → Fly) : (s.modFly i f).co j = s.co j := rfl
@[simp] theorem State.modFly_core (f : Fly → Fly) : (s.modFly i f).core j = s.core j := rfl
@[simp] theorem State.modFly_queue (f : Fly → Fly) : (s.modFly i f).queue j = s.queue j := rfl
@[simp] theorem State.modFly_ctr (f : Fly → Fly) : (s.modFly i f).ctr j = s.ctr j := rfl
@[simp] theorem State.modFly_watch (f : Fly → Fly) : (s.modFly i f).watch j = s.watch j := rfl
@[simp] theorem State.modFly_func (f : Fly → Fly) : (s.modFly i f).func j = s.func j := rfl
@[simp] theorem State.modFly_port (f : Fly → Fly) : (s.modFly i f).port j = s.port j := rfl
@[simp] theorem State.modFly_chan (f : Fly → Fly) : (s.modFly i f).chan j = s.chan j := rfl
@[simp] theorem State.modFly_engine (f : Fly → Fly) : (s.modFly i f).engine j = s.engine j := rfl
@[simp] theorem State.modFly_farPort (f : Fly → Fly) : (s.modFly i f).farPort j = s.farPort j := rfl
@[simp] theorem State.modFly_pending (f : Fly → Fly) : (s.modFly i f).pending = s.pending := rfl
@[simp] theorem State.modFly_nowNs (f : Fly → Fly) : (s.modFly i f).nowNs = s.nowNs := rfl
@[simp] theorem State.modFly_free (f : Fly → Fly) : (s.modFly i f).free = s.free := rfl
@[simp] theorem State.modFly_gradeA768 (f : Fly → Fly) : (s.modFly i f).gradeA768 = s.gradeA768 := rfl
@[simp] theorem State.modFly_opticsF2 (f : Fly → Fly) : (s.modFly i f).opticsF2 = s.opticsF2 := rfl
@[simp] theorem State.modFly_serial (f : Fly → Fly) : (s.modFly i f).serial = s.serial := rfl
@[simp] theorem State.modFly_grid (f : Fly → Fly) : (s.modFly i f).grid = s.grid := rfl
@[simp] theorem State.modFly_boot (f : Fly → Fly) : (s.modFly i f).boot = s.boot := rfl
@[simp] theorem State.modFly_island (f : Fly → Fly) : (s.modFly i f).island = s.island := rfl
@[simp] theorem State.modFly_tor (f : Fly → Fly) : (s.modFly i f).tor = s.tor := rfl
@[simp] theorem State.modFly_cos (f : Fly → Fly) : (s.modFly i f).cos = s.cos := rfl
@[simp] theorem State.modFly_funcs (f : Fly → Fly) : (s.modFly i f).funcs = s.funcs := rfl
@[simp] theorem State.modFly_roles (f : Fly → Fly) : (s.modFly i f).roles = s.roles := rfl
@[simp] theorem State.modFly_cores (f : Fly → Fly) : (s.modFly i f).cores = s.cores := rfl
@[simp] theorem State.modFly_dram (f : Fly → Fly) : (s.modFly i f).dram = s.dram := rfl
@[simp] theorem State.modFly_dramFlips (f : Fly → Fly) : (s.modFly i f).dramFlips = s.dramFlips := rfl
@[simp] theorem State.modFly_channels (f : Fly → Fly) : (s.modFly i f).channels = s.channels := rfl
@[simp] theorem State.modFly_mesh (f : Fly → Fly) : (s.modFly i f).mesh = s.mesh := rfl
@[simp] theorem State.modFly_engines (f : Fly → Fly) : (s.modFly i f).engines = s.engines := rfl
@[simp] theorem State.modFly_hostMem (f : Fly → Fly) : (s.modFly i f).hostMem = s.hostMem := rfl
@[simp] theorem State.modFly_answers (f : Fly → Fly) : (s.modFly i f).answers = s.answers := rfl
@[simp] theorem State.modFly_wingsGot (f : Fly → Fly) : (s.modFly i f).wingsGot = s.wingsGot := rfl
@[simp] theorem State.modFly_wingsOut (f : Fly → Fly) : (s.modFly i f).wingsOut = s.wingsOut := rfl
@[simp] theorem State.modFly_pakLast (f : Fly → Fly) : (s.modFly i f).pakLast = s.pakLast := rfl
@[simp] theorem State.modFly_dmaTurn (f : Fly → Fly) : (s.modFly i f).dmaTurn = s.dmaTurn := rfl
@[simp] theorem State.modFly_incHost (f : Fly → Fly) : (s.modFly i f).incHost = s.incHost := rfl
@[simp] theorem State.modFly_queues (f : Fly → Fly) : (s.modFly i f).queues = s.queues := rfl
@[simp] theorem State.modFly_readSlots (f : Fly → Fly) : (s.modFly i f).readSlots = s.readSlots := rfl
@[simp] theorem State.modFly_frozenChans (f : Fly → Fly) : (s.modFly i f).frozenChans = s.frozenChans := rfl
@[simp] theorem State.modFly_counters (f : Fly → Fly) : (s.modFly i f).counters = s.counters := rfl
@[simp] theorem State.modFly_watches (f : Fly → Fly) : (s.modFly i f).watches = s.watches := rfl
@[simp] theorem State.modFly_incStage (f : Fly → Fly) : (s.modFly i f).incStage = s.incStage := rfl
@[simp] theorem State.modFly_incDma (f : Fly → Fly) : (s.modFly i f).incDma = s.incDma := rfl
@[simp] theorem State.modFly_incWings (f : Fly → Fly) : (s.modFly i f).incWings = s.incWings := rfl
@[simp] theorem State.modFly_cip (f : Fly → Fly) : (s.modFly i f).cip = s.cip := rfl
@[simp] theorem State.modFly_farPorts (f : Fly → Fly) : (s.modFly i f).farPorts = s.farPorts := rfl
@[simp] theorem State.modFly_restore (f : Fly → Fly) : (s.modFly i f).restore = s.restore := rfl
@[simp] theorem State.modFly_sm (f : Fly → Fly) : (s.modFly i f).sm = s.sm := rfl
@[simp] theorem State.modFly_err (f : Fly → Fly) : (s.modFly i f).err = s.err := rfl
@[simp] theorem State.modFly_pwr (f : Fly → Fly) : (s.modFly i f).pwr = s.pwr := rfl
@[simp] theorem State.modFly_rpr (f : Fly → Fly) : (s.modFly i f).rpr = s.rpr := rfl
@[simp] theorem State.modFly_svc (f : Fly → Fly) : (s.modFly i f).svc = s.svc := rfl

/-! ### modEngine -/

theorem State.modEngine_engine (f : Engine → Engine) : (s.modEngine i f).engine j = if j = i then f (s.engine i) else s.engine j := tget_tmod _ _ _ _ _
@[simp] theorem State.modEngine_engine_self (f : Engine → Engine) : (s.modEngine i f).engine i = f (s.engine i) := tget_tmod_self _ _ _ _
theorem State.modEngine_engine_ne (f : Engine → Engine) (h : j ≠ i) : (s.modEngine i f).engine j = s.engine j := tget_tmod_ne _ _ _ h
@[simp] theorem State.modEngine_co (f : Engine → Engine) : (s.modEngine i f).co j = s.co j := rfl
@[simp] theorem State.modEngine_core (f : Engine → Engine) : (s.modEngine i f).core j = s.core j := rfl
@[simp] theorem State.modEngine_queue (f : Engine → Engine) : (s.modEngine i f).queue j = s.queue j := rfl
@[simp] theorem State.modEngine_ctr (f : Engine → Engine) : (s.modEngine i f).ctr j = s.ctr j := rfl
@[simp] theorem State.modEngine_watch (f : Engine → Engine) : (s.modEngine i f).watch j = s.watch j := rfl
@[simp] theorem State.modEngine_func (f : Engine → Engine) : (s.modEngine i f).func j = s.func j := rfl
@[simp] theorem State.modEngine_port (f : Engine → Engine) : (s.modEngine i f).port j = s.port j := rfl
@[simp] theorem State.modEngine_chan (f : Engine → Engine) : (s.modEngine i f).chan j = s.chan j := rfl
@[simp] theorem State.modEngine_fly (f : Engine → Engine) : (s.modEngine i f).fly j = s.fly j := rfl
@[simp] theorem State.modEngine_farPort (f : Engine → Engine) : (s.modEngine i f).farPort j = s.farPort j := rfl
@[simp] theorem State.modEngine_pending (f : Engine → Engine) : (s.modEngine i f).pending = s.pending := rfl
@[simp] theorem State.modEngine_nowNs (f : Engine → Engine) : (s.modEngine i f).nowNs = s.nowNs := rfl
@[simp] theorem State.modEngine_free (f : Engine → Engine) : (s.modEngine i f).free = s.free := rfl
@[simp] theorem State.modEngine_gradeA768 (f : Engine → Engine) : (s.modEngine i f).gradeA768 = s.gradeA768 := rfl
@[simp] theorem State.modEngine_opticsF2 (f : Engine → Engine) : (s.modEngine i f).opticsF2 = s.opticsF2 := rfl
@[simp] theorem State.modEngine_serial (f : Engine → Engine) : (s.modEngine i f).serial = s.serial := rfl
@[simp] theorem State.modEngine_grid (f : Engine → Engine) : (s.modEngine i f).grid = s.grid := rfl
@[simp] theorem State.modEngine_boot (f : Engine → Engine) : (s.modEngine i f).boot = s.boot := rfl
@[simp] theorem State.modEngine_island (f : Engine → Engine) : (s.modEngine i f).island = s.island := rfl
@[simp] theorem State.modEngine_tor (f : Engine → Engine) : (s.modEngine i f).tor = s.tor := rfl
@[simp] theorem State.modEngine_cos (f : Engine → Engine) : (s.modEngine i f).cos = s.cos := rfl
@[simp] theorem State.modEngine_funcs (f : Engine → Engine) : (s.modEngine i f).funcs = s.funcs := rfl
@[simp] theorem State.modEngine_roles (f : Engine → Engine) : (s.modEngine i f).roles = s.roles := rfl
@[simp] theorem State.modEngine_cores (f : Engine → Engine) : (s.modEngine i f).cores = s.cores := rfl
@[simp] theorem State.modEngine_dram (f : Engine → Engine) : (s.modEngine i f).dram = s.dram := rfl
@[simp] theorem State.modEngine_dramFlips (f : Engine → Engine) : (s.modEngine i f).dramFlips = s.dramFlips := rfl
@[simp] theorem State.modEngine_channels (f : Engine → Engine) : (s.modEngine i f).channels = s.channels := rfl
@[simp] theorem State.modEngine_flys (f : Engine → Engine) : (s.modEngine i f).flys = s.flys := rfl
@[simp] theorem State.modEngine_mesh (f : Engine → Engine) : (s.modEngine i f).mesh = s.mesh := rfl
@[simp] theorem State.modEngine_hostMem (f : Engine → Engine) : (s.modEngine i f).hostMem = s.hostMem := rfl
@[simp] theorem State.modEngine_answers (f : Engine → Engine) : (s.modEngine i f).answers = s.answers := rfl
@[simp] theorem State.modEngine_wingsGot (f : Engine → Engine) : (s.modEngine i f).wingsGot = s.wingsGot := rfl
@[simp] theorem State.modEngine_wingsOut (f : Engine → Engine) : (s.modEngine i f).wingsOut = s.wingsOut := rfl
@[simp] theorem State.modEngine_pakLast (f : Engine → Engine) : (s.modEngine i f).pakLast = s.pakLast := rfl
@[simp] theorem State.modEngine_dmaTurn (f : Engine → Engine) : (s.modEngine i f).dmaTurn = s.dmaTurn := rfl
@[simp] theorem State.modEngine_incHost (f : Engine → Engine) : (s.modEngine i f).incHost = s.incHost := rfl
@[simp] theorem State.modEngine_queues (f : Engine → Engine) : (s.modEngine i f).queues = s.queues := rfl
@[simp] theorem State.modEngine_readSlots (f : Engine → Engine) : (s.modEngine i f).readSlots = s.readSlots := rfl
@[simp] theorem State.modEngine_frozenChans (f : Engine → Engine) : (s.modEngine i f).frozenChans = s.frozenChans := rfl
@[simp] theorem State.modEngine_counters (f : Engine → Engine) : (s.modEngine i f).counters = s.counters := rfl
@[simp] theorem State.modEngine_watches (f : Engine → Engine) : (s.modEngine i f).watches = s.watches := rfl
@[simp] theorem State.modEngine_incStage (f : Engine → Engine) : (s.modEngine i f).incStage = s.incStage := rfl
@[simp] theorem State.modEngine_incDma (f : Engine → Engine) : (s.modEngine i f).incDma = s.incDma := rfl
@[simp] theorem State.modEngine_incWings (f : Engine → Engine) : (s.modEngine i f).incWings = s.incWings := rfl
@[simp] theorem State.modEngine_cip (f : Engine → Engine) : (s.modEngine i f).cip = s.cip := rfl
@[simp] theorem State.modEngine_farPorts (f : Engine → Engine) : (s.modEngine i f).farPorts = s.farPorts := rfl
@[simp] theorem State.modEngine_restore (f : Engine → Engine) : (s.modEngine i f).restore = s.restore := rfl
@[simp] theorem State.modEngine_sm (f : Engine → Engine) : (s.modEngine i f).sm = s.sm := rfl
@[simp] theorem State.modEngine_err (f : Engine → Engine) : (s.modEngine i f).err = s.err := rfl
@[simp] theorem State.modEngine_pwr (f : Engine → Engine) : (s.modEngine i f).pwr = s.pwr := rfl
@[simp] theorem State.modEngine_rpr (f : Engine → Engine) : (s.modEngine i f).rpr = s.rpr := rfl
@[simp] theorem State.modEngine_svc (f : Engine → Engine) : (s.modEngine i f).svc = s.svc := rfl

/-! ### modFarPort -/

theorem State.modFarPort_farPort (f : FarPort → FarPort) : (s.modFarPort i f).farPort j = if j = i then f (s.farPort i) else s.farPort j := tget_tmod _ _ _ _ _
@[simp] theorem State.modFarPort_farPort_self (f : FarPort → FarPort) : (s.modFarPort i f).farPort i = f (s.farPort i) := tget_tmod_self _ _ _ _
theorem State.modFarPort_farPort_ne (f : FarPort → FarPort) (h : j ≠ i) : (s.modFarPort i f).farPort j = s.farPort j := tget_tmod_ne _ _ _ h
@[simp] theorem State.modFarPort_co (f : FarPort → FarPort) : (s.modFarPort i f).co j = s.co j := rfl
@[simp] theorem State.modFarPort_core (f : FarPort → FarPort) : (s.modFarPort i f).core j = s.core j := rfl
@[simp] theorem State.modFarPort_queue (f : FarPort → FarPort) : (s.modFarPort i f).queue j = s.queue j := rfl
@[simp] theorem State.modFarPort_ctr (f : FarPort → FarPort) : (s.modFarPort i f).ctr j = s.ctr j := rfl
@[simp] theorem State.modFarPort_watch (f : FarPort → FarPort) : (s.modFarPort i f).watch j = s.watch j := rfl
@[simp] theorem State.modFarPort_func (f : FarPort → FarPort) : (s.modFarPort i f).func j = s.func j := rfl
@[simp] theorem State.modFarPort_port (f : FarPort → FarPort) : (s.modFarPort i f).port j = s.port j := rfl
@[simp] theorem State.modFarPort_chan (f : FarPort → FarPort) : (s.modFarPort i f).chan j = s.chan j := rfl
@[simp] theorem State.modFarPort_fly (f : FarPort → FarPort) : (s.modFarPort i f).fly j = s.fly j := rfl
@[simp] theorem State.modFarPort_engine (f : FarPort → FarPort) : (s.modFarPort i f).engine j = s.engine j := rfl
@[simp] theorem State.modFarPort_pending (f : FarPort → FarPort) : (s.modFarPort i f).pending = s.pending := rfl
@[simp] theorem State.modFarPort_nowNs (f : FarPort → FarPort) : (s.modFarPort i f).nowNs = s.nowNs := rfl
@[simp] theorem State.modFarPort_free (f : FarPort → FarPort) : (s.modFarPort i f).free = s.free := rfl
@[simp] theorem State.modFarPort_gradeA768 (f : FarPort → FarPort) : (s.modFarPort i f).gradeA768 = s.gradeA768 := rfl
@[simp] theorem State.modFarPort_opticsF2 (f : FarPort → FarPort) : (s.modFarPort i f).opticsF2 = s.opticsF2 := rfl
@[simp] theorem State.modFarPort_serial (f : FarPort → FarPort) : (s.modFarPort i f).serial = s.serial := rfl
@[simp] theorem State.modFarPort_grid (f : FarPort → FarPort) : (s.modFarPort i f).grid = s.grid := rfl
@[simp] theorem State.modFarPort_boot (f : FarPort → FarPort) : (s.modFarPort i f).boot = s.boot := rfl
@[simp] theorem State.modFarPort_island (f : FarPort → FarPort) : (s.modFarPort i f).island = s.island := rfl
@[simp] theorem State.modFarPort_tor (f : FarPort → FarPort) : (s.modFarPort i f).tor = s.tor := rfl
@[simp] theorem State.modFarPort_cos (f : FarPort → FarPort) : (s.modFarPort i f).cos = s.cos := rfl
@[simp] theorem State.modFarPort_funcs (f : FarPort → FarPort) : (s.modFarPort i f).funcs = s.funcs := rfl
@[simp] theorem State.modFarPort_roles (f : FarPort → FarPort) : (s.modFarPort i f).roles = s.roles := rfl
@[simp] theorem State.modFarPort_cores (f : FarPort → FarPort) : (s.modFarPort i f).cores = s.cores := rfl
@[simp] theorem State.modFarPort_dram (f : FarPort → FarPort) : (s.modFarPort i f).dram = s.dram := rfl
@[simp] theorem State.modFarPort_dramFlips (f : FarPort → FarPort) : (s.modFarPort i f).dramFlips = s.dramFlips := rfl
@[simp] theorem State.modFarPort_channels (f : FarPort → FarPort) : (s.modFarPort i f).channels = s.channels := rfl
@[simp] theorem State.modFarPort_flys (f : FarPort → FarPort) : (s.modFarPort i f).flys = s.flys := rfl
@[simp] theorem State.modFarPort_mesh (f : FarPort → FarPort) : (s.modFarPort i f).mesh = s.mesh := rfl
@[simp] theorem State.modFarPort_engines (f : FarPort → FarPort) : (s.modFarPort i f).engines = s.engines := rfl
@[simp] theorem State.modFarPort_hostMem (f : FarPort → FarPort) : (s.modFarPort i f).hostMem = s.hostMem := rfl
@[simp] theorem State.modFarPort_answers (f : FarPort → FarPort) : (s.modFarPort i f).answers = s.answers := rfl
@[simp] theorem State.modFarPort_wingsGot (f : FarPort → FarPort) : (s.modFarPort i f).wingsGot = s.wingsGot := rfl
@[simp] theorem State.modFarPort_wingsOut (f : FarPort → FarPort) : (s.modFarPort i f).wingsOut = s.wingsOut := rfl
@[simp] theorem State.modFarPort_pakLast (f : FarPort → FarPort) : (s.modFarPort i f).pakLast = s.pakLast := rfl
@[simp] theorem State.modFarPort_dmaTurn (f : FarPort → FarPort) : (s.modFarPort i f).dmaTurn = s.dmaTurn := rfl
@[simp] theorem State.modFarPort_incHost (f : FarPort → FarPort) : (s.modFarPort i f).incHost = s.incHost := rfl
@[simp] theorem State.modFarPort_queues (f : FarPort → FarPort) : (s.modFarPort i f).queues = s.queues := rfl
@[simp] theorem State.modFarPort_readSlots (f : FarPort → FarPort) : (s.modFarPort i f).readSlots = s.readSlots := rfl
@[simp] theorem State.modFarPort_frozenChans (f : FarPort → FarPort) : (s.modFarPort i f).frozenChans = s.frozenChans := rfl
@[simp] theorem State.modFarPort_counters (f : FarPort → FarPort) : (s.modFarPort i f).counters = s.counters := rfl
@[simp] theorem State.modFarPort_watches (f : FarPort → FarPort) : (s.modFarPort i f).watches = s.watches := rfl
@[simp] theorem State.modFarPort_incStage (f : FarPort → FarPort) : (s.modFarPort i f).incStage = s.incStage := rfl
@[simp] theorem State.modFarPort_incDma (f : FarPort → FarPort) : (s.modFarPort i f).incDma = s.incDma := rfl
@[simp] theorem State.modFarPort_incWings (f : FarPort → FarPort) : (s.modFarPort i f).incWings = s.incWings := rfl
@[simp] theorem State.modFarPort_cip (f : FarPort → FarPort) : (s.modFarPort i f).cip = s.cip := rfl
@[simp] theorem State.modFarPort_restore (f : FarPort → FarPort) : (s.modFarPort i f).restore = s.restore := rfl
@[simp] theorem State.modFarPort_sm (f : FarPort → FarPort) : (s.modFarPort i f).sm = s.sm := rfl
@[simp] theorem State.modFarPort_err (f : FarPort → FarPort) : (s.modFarPort i f).err = s.err := rfl
@[simp] theorem State.modFarPort_pwr (f : FarPort → FarPort) : (s.modFarPort i f).pwr = s.pwr := rfl
@[simp] theorem State.modFarPort_rpr (f : FarPort → FarPort) : (s.modFarPort i f).rpr = s.rpr := rfl
@[simp] theorem State.modFarPort_svc (f : FarPort → FarPort) : (s.modFarPort i f).svc = s.svc := rfl

/-! ### modSeq -/

theorem State.modSeq_co (f : Seq → Seq) : (s.modSeq i f).co j = if j = i then { s.co i with seq := f (s.co i).seq } else s.co j := s.modCo_co i j _
@[simp] theorem State.modSeq_co_self (f : Seq → Seq) : (s.modSeq i f).co i = { s.co i with seq := f (s.co i).seq } := s.modCo_co_self i _
theorem State.modSeq_co_ne (f : Seq → Seq) (h : j ≠ i) : (s.modSeq i f).co j = s.co j := s.modCo_co_ne i j _ h
@[simp] theorem State.modSeq_core (f : Seq → Seq) : (s.modSeq i f).core j = s.core j := rfl
@[simp] theorem State.modSeq_queue (f : Seq → Seq) : (s.modSeq i f).queue j = s.queue j := rfl
@[simp] theorem State.modSeq_ctr (f : Seq → Seq) : (s.modSeq i f).ctr j = s.ctr j := rfl
@[simp] theorem State.modSeq_watch (f : Seq → Seq) : (s.modSeq i f).watch j = s.watch j := rfl
@[simp] theorem State.modSeq_func (f : Seq → Seq) : (s.modSeq i f).func j = s.func j := rfl
@[simp] theorem State.modSeq_port (f : Seq → Seq) : (s.modSeq i f).port j = s.port j := rfl
@[simp] theorem State.modSeq_chan (f : Seq → Seq) : (s.modSeq i f).chan j = s.chan j := rfl
@[simp] theorem State.modSeq_fly (f : Seq → Seq) : (s.modSeq i f).fly j = s.fly j := rfl
@[simp] theorem State.modSeq_engine (f : Seq → Seq) : (s.modSeq i f).engine j = s.engine j := rfl
@[simp] theorem State.modSeq_farPort (f : Seq → Seq) : (s.modSeq i f).farPort j = s.farPort j := rfl
@[simp] theorem State.modSeq_pending (f : Seq → Seq) : (s.modSeq i f).pending = s.pending := rfl
@[simp] theorem State.modSeq_nowNs (f : Seq → Seq) : (s.modSeq i f).nowNs = s.nowNs := rfl
@[simp] theorem State.modSeq_free (f : Seq → Seq) : (s.modSeq i f).free = s.free := rfl
@[simp] theorem State.modSeq_gradeA768 (f : Seq → Seq) : (s.modSeq i f).gradeA768 = s.gradeA768 := rfl
@[simp] theorem State.modSeq_opticsF2 (f : Seq → Seq) : (s.modSeq i f).opticsF2 = s.opticsF2 := rfl
@[simp] theorem State.modSeq_serial (f : Seq → Seq) : (s.modSeq i f).serial = s.serial := rfl
@[simp] theorem State.modSeq_grid (f : Seq → Seq) : (s.modSeq i f).grid = s.grid := rfl
@[simp] theorem State.modSeq_boot (f : Seq → Seq) : (s.modSeq i f).boot = s.boot := rfl
@[simp] theorem State.modSeq_island (f : Seq → Seq) : (s.modSeq i f).island = s.island := rfl
@[simp] theorem State.modSeq_tor (f : Seq → Seq) : (s.modSeq i f).tor = s.tor := rfl
@[simp] theorem State.modSeq_funcs (f : Seq → Seq) : (s.modSeq i f).funcs = s.funcs := rfl
@[simp] theorem State.modSeq_roles (f : Seq → Seq) : (s.modSeq i f).roles = s.roles := rfl
@[simp] theorem State.modSeq_cores (f : Seq → Seq) : (s.modSeq i f).cores = s.cores := rfl
@[simp] theorem State.modSeq_dram (f : Seq → Seq) : (s.modSeq i f).dram = s.dram := rfl
@[simp] theorem State.modSeq_dramFlips (f : Seq → Seq) : (s.modSeq i f).dramFlips = s.dramFlips := rfl
@[simp] theorem State.modSeq_channels (f : Seq → Seq) : (s.modSeq i f).channels = s.channels := rfl
@[simp] theorem State.modSeq_flys (f : Seq → Seq) : (s.modSeq i f).flys = s.flys := rfl
@[simp] theorem State.modSeq_mesh (f : Seq → Seq) : (s.modSeq i f).mesh = s.mesh := rfl
@[simp] theorem State.modSeq_engines (f : Seq → Seq) : (s.modSeq i f).engines = s.engines := rfl
@[simp] theorem State.modSeq_hostMem (f : Seq → Seq) : (s.modSeq i f).hostMem = s.hostMem := rfl
@[simp] theorem State.modSeq_answers (f : Seq → Seq) : (s.modSeq i f).answers = s.answers := rfl
@[simp] theorem State.modSeq_wingsGot (f : Seq → Seq) : (s.modSeq i f).wingsGot = s.wingsGot := rfl
@[simp] theorem State.modSeq_wingsOut (f : Seq → Seq) : (s.modSeq i f).wingsOut = s.wingsOut := rfl
@[simp] theorem State.modSeq_pakLast (f : Seq → Seq) : (s.modSeq i f).pakLast = s.pakLast := rfl
@[simp] theorem State.modSeq_dmaTurn (f : Seq → Seq) : (s.modSeq i f).dmaTurn = s.dmaTurn := rfl
@[simp] theorem State.modSeq_incHost (f : Seq → Seq) : (s.modSeq i f).incHost = s.incHost := rfl
@[simp] theorem State.modSeq_queues (f : Seq → Seq) : (s.modSeq i f).queues = s.queues := rfl
@[simp] theorem State.modSeq_readSlots (f : Seq → Seq) : (s.modSeq i f).readSlots = s.readSlots := rfl
@[simp] theorem State.modSeq_frozenChans (f : Seq → Seq) : (s.modSeq i f).frozenChans = s.frozenChans := rfl
@[simp] theorem State.modSeq_counters (f : Seq → Seq) : (s.modSeq i f).counters = s.counters := rfl
@[simp] theorem State.modSeq_watches (f : Seq → Seq) : (s.modSeq i f).watches = s.watches := rfl
@[simp] theorem State.modSeq_incStage (f : Seq → Seq) : (s.modSeq i f).incStage = s.incStage := rfl
@[simp] theorem State.modSeq_incDma (f : Seq → Seq) : (s.modSeq i f).incDma = s.incDma := rfl
@[simp] theorem State.modSeq_incWings (f : Seq → Seq) : (s.modSeq i f).incWings = s.incWings := rfl
@[simp] theorem State.modSeq_cip (f : Seq → Seq) : (s.modSeq i f).cip = s.cip := rfl
@[simp] theorem State.modSeq_farPorts (f : Seq → Seq) : (s.modSeq i f).farPorts = s.farPorts := rfl
@[simp] theorem State.modSeq_restore (f : Seq → Seq) : (s.modSeq i f).restore = s.restore := rfl
@[simp] theorem State.modSeq_sm (f : Seq → Seq) : (s.modSeq i f).sm = s.sm := rfl
@[simp] theorem State.modSeq_err (f : Seq → Seq) : (s.modSeq i f).err = s.err := rfl
@[simp] theorem State.modSeq_pwr (f : Seq → Seq) : (s.modSeq i f).pwr = s.pwr := rfl
@[simp] theorem State.modSeq_rpr (f : Seq → Seq) : (s.modSeq i f).rpr = s.rpr := rfl
@[simp] theorem State.modSeq_svc (f : Seq → Seq) : (s.modSeq i f).svc = s.svc := rfl

/-! ### modUpd -/

theorem State.modUpd_co (f : Upd → Upd) : (s.modUpd i f).co j = if j = i then { s.co i with upd := f (s.co i).upd } else s.co j := s.modCo_co i j _
@[simp] theorem State.modUpd_co_self (f : Upd → Upd) : (s.modUpd i f).co i = { s.co i with upd := f (s.co i).upd } := s.modCo_co_self i _
theorem State.modUpd_co_ne (f : Upd → Upd) (h : j ≠ i) : (s.modUpd i f).co j = s.co j := s.modCo_co_ne i j _ h
@[simp] theorem State.modUpd_core (f : Upd → Upd) : (s.modUpd i f).core j = s.core j := rfl
@[simp] theorem State.modUpd_queue (f : Upd → Upd) : (s.modUpd i f).queue j = s.queue j := rfl
@[simp] theorem State.modUpd_ctr (f : Upd → Upd) : (s.modUpd i f).ctr j = s.ctr j := rfl
@[simp] theorem State.modUpd_watch (f : Upd → Upd) : (s.modUpd i f).watch j = s.watch j := rfl
@[simp] theorem State.modUpd_func (f : Upd → Upd) : (s.modUpd i f).func j = s.func j := rfl
@[simp] theorem State.modUpd_port (f : Upd → Upd) : (s.modUpd i f).port j = s.port j := rfl
@[simp] theorem State.modUpd_chan (f : Upd → Upd) : (s.modUpd i f).chan j = s.chan j := rfl
@[simp] theorem State.modUpd_fly (f : Upd → Upd) : (s.modUpd i f).fly j = s.fly j := rfl
@[simp] theorem State.modUpd_engine (f : Upd → Upd) : (s.modUpd i f).engine j = s.engine j := rfl
@[simp] theorem State.modUpd_farPort (f : Upd → Upd) : (s.modUpd i f).farPort j = s.farPort j := rfl
@[simp] theorem State.modUpd_pending (f : Upd → Upd) : (s.modUpd i f).pending = s.pending := rfl
@[simp] theorem State.modUpd_nowNs (f : Upd → Upd) : (s.modUpd i f).nowNs = s.nowNs := rfl
@[simp] theorem State.modUpd_free (f : Upd → Upd) : (s.modUpd i f).free = s.free := rfl
@[simp] theorem State.modUpd_gradeA768 (f : Upd → Upd) : (s.modUpd i f).gradeA768 = s.gradeA768 := rfl
@[simp] theorem State.modUpd_opticsF2 (f : Upd → Upd) : (s.modUpd i f).opticsF2 = s.opticsF2 := rfl
@[simp] theorem State.modUpd_serial (f : Upd → Upd) : (s.modUpd i f).serial = s.serial := rfl
@[simp] theorem State.modUpd_grid (f : Upd → Upd) : (s.modUpd i f).grid = s.grid := rfl
@[simp] theorem State.modUpd_boot (f : Upd → Upd) : (s.modUpd i f).boot = s.boot := rfl
@[simp] theorem State.modUpd_island (f : Upd → Upd) : (s.modUpd i f).island = s.island := rfl
@[simp] theorem State.modUpd_tor (f : Upd → Upd) : (s.modUpd i f).tor = s.tor := rfl
@[simp] theorem State.modUpd_funcs (f : Upd → Upd) : (s.modUpd i f).funcs = s.funcs := rfl
@[simp] theorem State.modUpd_roles (f : Upd → Upd) : (s.modUpd i f).roles = s.roles := rfl
@[simp] theorem State.modUpd_cores (f : Upd → Upd) : (s.modUpd i f).cores = s.cores := rfl
@[simp] theorem State.modUpd_dram (f : Upd → Upd) : (s.modUpd i f).dram = s.dram := rfl
@[simp] theorem State.modUpd_dramFlips (f : Upd → Upd) : (s.modUpd i f).dramFlips = s.dramFlips := rfl
@[simp] theorem State.modUpd_channels (f : Upd → Upd) : (s.modUpd i f).channels = s.channels := rfl
@[simp] theorem State.modUpd_flys (f : Upd → Upd) : (s.modUpd i f).flys = s.flys := rfl
@[simp] theorem State.modUpd_mesh (f : Upd → Upd) : (s.modUpd i f).mesh = s.mesh := rfl
@[simp] theorem State.modUpd_engines (f : Upd → Upd) : (s.modUpd i f).engines = s.engines := rfl
@[simp] theorem State.modUpd_hostMem (f : Upd → Upd) : (s.modUpd i f).hostMem = s.hostMem := rfl
@[simp] theorem State.modUpd_answers (f : Upd → Upd) : (s.modUpd i f).answers = s.answers := rfl
@[simp] theorem State.modUpd_wingsGot (f : Upd → Upd) : (s.modUpd i f).wingsGot = s.wingsGot := rfl
@[simp] theorem State.modUpd_wingsOut (f : Upd → Upd) : (s.modUpd i f).wingsOut = s.wingsOut := rfl
@[simp] theorem State.modUpd_pakLast (f : Upd → Upd) : (s.modUpd i f).pakLast = s.pakLast := rfl
@[simp] theorem State.modUpd_dmaTurn (f : Upd → Upd) : (s.modUpd i f).dmaTurn = s.dmaTurn := rfl
@[simp] theorem State.modUpd_incHost (f : Upd → Upd) : (s.modUpd i f).incHost = s.incHost := rfl
@[simp] theorem State.modUpd_queues (f : Upd → Upd) : (s.modUpd i f).queues = s.queues := rfl
@[simp] theorem State.modUpd_readSlots (f : Upd → Upd) : (s.modUpd i f).readSlots = s.readSlots := rfl
@[simp] theorem State.modUpd_frozenChans (f : Upd → Upd) : (s.modUpd i f).frozenChans = s.frozenChans := rfl
@[simp] theorem State.modUpd_counters (f : Upd → Upd) : (s.modUpd i f).counters = s.counters := rfl
@[simp] theorem State.modUpd_watches (f : Upd → Upd) : (s.modUpd i f).watches = s.watches := rfl
@[simp] theorem State.modUpd_incStage (f : Upd → Upd) : (s.modUpd i f).incStage = s.incStage := rfl
@[simp] theorem State.modUpd_incDma (f : Upd → Upd) : (s.modUpd i f).incDma = s.incDma := rfl
@[simp] theorem State.modUpd_incWings (f : Upd → Upd) : (s.modUpd i f).incWings = s.incWings := rfl
@[simp] theorem State.modUpd_cip (f : Upd → Upd) : (s.modUpd i f).cip = s.cip := rfl
@[simp] theorem State.modUpd_farPorts (f : Upd → Upd) : (s.modUpd i f).farPorts = s.farPorts := rfl
@[simp] theorem State.modUpd_restore (f : Upd → Upd) : (s.modUpd i f).restore = s.restore := rfl
@[simp] theorem State.modUpd_sm (f : Upd → Upd) : (s.modUpd i f).sm = s.sm := rfl
@[simp] theorem State.modUpd_err (f : Upd → Upd) : (s.modUpd i f).err = s.err := rfl
@[simp] theorem State.modUpd_pwr (f : Upd → Upd) : (s.modUpd i f).pwr = s.pwr := rfl
@[simp] theorem State.modUpd_rpr (f : Upd → Upd) : (s.modUpd i f).rpr = s.rpr := rfl
@[simp] theorem State.modUpd_svc (f : Upd → Upd) : (s.modUpd i f).svc = s.svc := rfl

/-! ### modFar -/

theorem State.modFar_co (f : Far → Far) : (s.modFar i f).co j = if j = i then { s.co i with far := f (s.co i).far } else s.co j := s.modCo_co i j _
@[simp] theorem State.modFar_co_self (f : Far → Far) : (s.modFar i f).co i = { s.co i with far := f (s.co i).far } := s.modCo_co_self i _
theorem State.modFar_co_ne (f : Far → Far) (h : j ≠ i) : (s.modFar i f).co j = s.co j := s.modCo_co_ne i j _ h
@[simp] theorem State.modFar_core (f : Far → Far) : (s.modFar i f).core j = s.core j := rfl
@[simp] theorem State.modFar_queue (f : Far → Far) : (s.modFar i f).queue j = s.queue j := rfl
@[simp] theorem State.modFar_ctr (f : Far → Far) : (s.modFar i f).ctr j = s.ctr j := rfl
@[simp] theorem State.modFar_watch (f : Far → Far) : (s.modFar i f).watch j = s.watch j := rfl
@[simp] theorem State.modFar_func (f : Far → Far) : (s.modFar i f).func j = s.func j := rfl
@[simp] theorem State.modFar_port (f : Far → Far) : (s.modFar i f).port j = s.port j := rfl
@[simp] theorem State.modFar_chan (f : Far → Far) : (s.modFar i f).chan j = s.chan j := rfl
@[simp] theorem State.modFar_fly (f : Far → Far) : (s.modFar i f).fly j = s.fly j := rfl
@[simp] theorem State.modFar_engine (f : Far → Far) : (s.modFar i f).engine j = s.engine j := rfl
@[simp] theorem State.modFar_farPort (f : Far → Far) : (s.modFar i f).farPort j = s.farPort j := rfl
@[simp] theorem State.modFar_pending (f : Far → Far) : (s.modFar i f).pending = s.pending := rfl
@[simp] theorem State.modFar_nowNs (f : Far → Far) : (s.modFar i f).nowNs = s.nowNs := rfl
@[simp] theorem State.modFar_free (f : Far → Far) : (s.modFar i f).free = s.free := rfl
@[simp] theorem State.modFar_gradeA768 (f : Far → Far) : (s.modFar i f).gradeA768 = s.gradeA768 := rfl
@[simp] theorem State.modFar_opticsF2 (f : Far → Far) : (s.modFar i f).opticsF2 = s.opticsF2 := rfl
@[simp] theorem State.modFar_serial (f : Far → Far) : (s.modFar i f).serial = s.serial := rfl
@[simp] theorem State.modFar_grid (f : Far → Far) : (s.modFar i f).grid = s.grid := rfl
@[simp] theorem State.modFar_boot (f : Far → Far) : (s.modFar i f).boot = s.boot := rfl
@[simp] theorem State.modFar_island (f : Far → Far) : (s.modFar i f).island = s.island := rfl
@[simp] theorem State.modFar_tor (f : Far → Far) : (s.modFar i f).tor = s.tor := rfl
@[simp] theorem State.modFar_funcs (f : Far → Far) : (s.modFar i f).funcs = s.funcs := rfl
@[simp] theorem State.modFar_roles (f : Far → Far) : (s.modFar i f).roles = s.roles := rfl
@[simp] theorem State.modFar_cores (f : Far → Far) : (s.modFar i f).cores = s.cores := rfl
@[simp] theorem State.modFar_dram (f : Far → Far) : (s.modFar i f).dram = s.dram := rfl
@[simp] theorem State.modFar_dramFlips (f : Far → Far) : (s.modFar i f).dramFlips = s.dramFlips := rfl
@[simp] theorem State.modFar_channels (f : Far → Far) : (s.modFar i f).channels = s.channels := rfl
@[simp] theorem State.modFar_flys (f : Far → Far) : (s.modFar i f).flys = s.flys := rfl
@[simp] theorem State.modFar_mesh (f : Far → Far) : (s.modFar i f).mesh = s.mesh := rfl
@[simp] theorem State.modFar_engines (f : Far → Far) : (s.modFar i f).engines = s.engines := rfl
@[simp] theorem State.modFar_hostMem (f : Far → Far) : (s.modFar i f).hostMem = s.hostMem := rfl
@[simp] theorem State.modFar_answers (f : Far → Far) : (s.modFar i f).answers = s.answers := rfl
@[simp] theorem State.modFar_wingsGot (f : Far → Far) : (s.modFar i f).wingsGot = s.wingsGot := rfl
@[simp] theorem State.modFar_wingsOut (f : Far → Far) : (s.modFar i f).wingsOut = s.wingsOut := rfl
@[simp] theorem State.modFar_pakLast (f : Far → Far) : (s.modFar i f).pakLast = s.pakLast := rfl
@[simp] theorem State.modFar_dmaTurn (f : Far → Far) : (s.modFar i f).dmaTurn = s.dmaTurn := rfl
@[simp] theorem State.modFar_incHost (f : Far → Far) : (s.modFar i f).incHost = s.incHost := rfl
@[simp] theorem State.modFar_queues (f : Far → Far) : (s.modFar i f).queues = s.queues := rfl
@[simp] theorem State.modFar_readSlots (f : Far → Far) : (s.modFar i f).readSlots = s.readSlots := rfl
@[simp] theorem State.modFar_frozenChans (f : Far → Far) : (s.modFar i f).frozenChans = s.frozenChans := rfl
@[simp] theorem State.modFar_counters (f : Far → Far) : (s.modFar i f).counters = s.counters := rfl
@[simp] theorem State.modFar_watches (f : Far → Far) : (s.modFar i f).watches = s.watches := rfl
@[simp] theorem State.modFar_incStage (f : Far → Far) : (s.modFar i f).incStage = s.incStage := rfl
@[simp] theorem State.modFar_incDma (f : Far → Far) : (s.modFar i f).incDma = s.incDma := rfl
@[simp] theorem State.modFar_incWings (f : Far → Far) : (s.modFar i f).incWings = s.incWings := rfl
@[simp] theorem State.modFar_cip (f : Far → Far) : (s.modFar i f).cip = s.cip := rfl
@[simp] theorem State.modFar_farPorts (f : Far → Far) : (s.modFar i f).farPorts = s.farPorts := rfl
@[simp] theorem State.modFar_restore (f : Far → Far) : (s.modFar i f).restore = s.restore := rfl
@[simp] theorem State.modFar_sm (f : Far → Far) : (s.modFar i f).sm = s.sm := rfl
@[simp] theorem State.modFar_err (f : Far → Far) : (s.modFar i f).err = s.err := rfl
@[simp] theorem State.modFar_pwr (f : Far → Far) : (s.modFar i f).pwr = s.pwr := rfl
@[simp] theorem State.modFar_rpr (f : Far → Far) : (s.modFar i f).rpr = s.rpr := rfl
@[simp] theorem State.modFar_svc (f : Far → Far) : (s.modFar i f).svc = s.svc := rfl

/-! ### modCol -/

theorem State.modCol_co (f : Col → Col) : (s.modCol i f).co j = if j = i then { s.co i with col := f (s.co i).col } else s.co j := s.modCo_co i j _
@[simp] theorem State.modCol_co_self (f : Col → Col) : (s.modCol i f).co i = { s.co i with col := f (s.co i).col } := s.modCo_co_self i _
theorem State.modCol_co_ne (f : Col → Col) (h : j ≠ i) : (s.modCol i f).co j = s.co j := s.modCo_co_ne i j _ h
@[simp] theorem State.modCol_core (f : Col → Col) : (s.modCol i f).core j = s.core j := rfl
@[simp] theorem State.modCol_queue (f : Col → Col) : (s.modCol i f).queue j = s.queue j := rfl
@[simp] theorem State.modCol_ctr (f : Col → Col) : (s.modCol i f).ctr j = s.ctr j := rfl
@[simp] theorem State.modCol_watch (f : Col → Col) : (s.modCol i f).watch j = s.watch j := rfl
@[simp] theorem State.modCol_func (f : Col → Col) : (s.modCol i f).func j = s.func j := rfl
@[simp] theorem State.modCol_port (f : Col → Col) : (s.modCol i f).port j = s.port j := rfl
@[simp] theorem State.modCol_chan (f : Col → Col) : (s.modCol i f).chan j = s.chan j := rfl
@[simp] theorem State.modCol_fly (f : Col → Col) : (s.modCol i f).fly j = s.fly j := rfl
@[simp] theorem State.modCol_engine (f : Col → Col) : (s.modCol i f).engine j = s.engine j := rfl
@[simp] theorem State.modCol_farPort (f : Col → Col) : (s.modCol i f).farPort j = s.farPort j := rfl
@[simp] theorem State.modCol_pending (f : Col → Col) : (s.modCol i f).pending = s.pending := rfl
@[simp] theorem State.modCol_nowNs (f : Col → Col) : (s.modCol i f).nowNs = s.nowNs := rfl
@[simp] theorem State.modCol_free (f : Col → Col) : (s.modCol i f).free = s.free := rfl
@[simp] theorem State.modCol_gradeA768 (f : Col → Col) : (s.modCol i f).gradeA768 = s.gradeA768 := rfl
@[simp] theorem State.modCol_opticsF2 (f : Col → Col) : (s.modCol i f).opticsF2 = s.opticsF2 := rfl
@[simp] theorem State.modCol_serial (f : Col → Col) : (s.modCol i f).serial = s.serial := rfl
@[simp] theorem State.modCol_grid (f : Col → Col) : (s.modCol i f).grid = s.grid := rfl
@[simp] theorem State.modCol_boot (f : Col → Col) : (s.modCol i f).boot = s.boot := rfl
@[simp] theorem State.modCol_island (f : Col → Col) : (s.modCol i f).island = s.island := rfl
@[simp] theorem State.modCol_tor (f : Col → Col) : (s.modCol i f).tor = s.tor := rfl
@[simp] theorem State.modCol_funcs (f : Col → Col) : (s.modCol i f).funcs = s.funcs := rfl
@[simp] theorem State.modCol_roles (f : Col → Col) : (s.modCol i f).roles = s.roles := rfl
@[simp] theorem State.modCol_cores (f : Col → Col) : (s.modCol i f).cores = s.cores := rfl
@[simp] theorem State.modCol_dram (f : Col → Col) : (s.modCol i f).dram = s.dram := rfl
@[simp] theorem State.modCol_dramFlips (f : Col → Col) : (s.modCol i f).dramFlips = s.dramFlips := rfl
@[simp] theorem State.modCol_channels (f : Col → Col) : (s.modCol i f).channels = s.channels := rfl
@[simp] theorem State.modCol_flys (f : Col → Col) : (s.modCol i f).flys = s.flys := rfl
@[simp] theorem State.modCol_mesh (f : Col → Col) : (s.modCol i f).mesh = s.mesh := rfl
@[simp] theorem State.modCol_engines (f : Col → Col) : (s.modCol i f).engines = s.engines := rfl
@[simp] theorem State.modCol_hostMem (f : Col → Col) : (s.modCol i f).hostMem = s.hostMem := rfl
@[simp] theorem State.modCol_answers (f : Col → Col) : (s.modCol i f).answers = s.answers := rfl
@[simp] theorem State.modCol_wingsGot (f : Col → Col) : (s.modCol i f).wingsGot = s.wingsGot := rfl
@[simp] theorem State.modCol_wingsOut (f : Col → Col) : (s.modCol i f).wingsOut = s.wingsOut := rfl
@[simp] theorem State.modCol_pakLast (f : Col → Col) : (s.modCol i f).pakLast = s.pakLast := rfl
@[simp] theorem State.modCol_dmaTurn (f : Col → Col) : (s.modCol i f).dmaTurn = s.dmaTurn := rfl
@[simp] theorem State.modCol_incHost (f : Col → Col) : (s.modCol i f).incHost = s.incHost := rfl
@[simp] theorem State.modCol_queues (f : Col → Col) : (s.modCol i f).queues = s.queues := rfl
@[simp] theorem State.modCol_readSlots (f : Col → Col) : (s.modCol i f).readSlots = s.readSlots := rfl
@[simp] theorem State.modCol_frozenChans (f : Col → Col) : (s.modCol i f).frozenChans = s.frozenChans := rfl
@[simp] theorem State.modCol_counters (f : Col → Col) : (s.modCol i f).counters = s.counters := rfl
@[simp] theorem State.modCol_watches (f : Col → Col) : (s.modCol i f).watches = s.watches := rfl
@[simp] theorem State.modCol_incStage (f : Col → Col) : (s.modCol i f).incStage = s.incStage := rfl
@[simp] theorem State.modCol_incDma (f : Col → Col) : (s.modCol i f).incDma = s.incDma := rfl
@[simp] theorem State.modCol_incWings (f : Col → Col) : (s.modCol i f).incWings = s.incWings := rfl
@[simp] theorem State.modCol_cip (f : Col → Col) : (s.modCol i f).cip = s.cip := rfl
@[simp] theorem State.modCol_farPorts (f : Col → Col) : (s.modCol i f).farPorts = s.farPorts := rfl
@[simp] theorem State.modCol_restore (f : Col → Col) : (s.modCol i f).restore = s.restore := rfl
@[simp] theorem State.modCol_sm (f : Col → Col) : (s.modCol i f).sm = s.sm := rfl
@[simp] theorem State.modCol_err (f : Col → Col) : (s.modCol i f).err = s.err := rfl
@[simp] theorem State.modCol_pwr (f : Col → Col) : (s.modCol i f).pwr = s.pwr := rfl
@[simp] theorem State.modCol_rpr (f : Col → Col) : (s.modCol i f).rpr = s.rpr := rfl
@[simp] theorem State.modCol_svc (f : Col → Col) : (s.modCol i f).svc = s.svc := rfl

/-! ### modPak -/

theorem State.modPak_co (f : Pak → Pak) : (s.modPak i f).co j = if j = i then { s.co i with pak := f (s.co i).pak } else s.co j := s.modCo_co i j _
@[simp] theorem State.modPak_co_self (f : Pak → Pak) : (s.modPak i f).co i = { s.co i with pak := f (s.co i).pak } := s.modCo_co_self i _
theorem State.modPak_co_ne (f : Pak → Pak) (h : j ≠ i) : (s.modPak i f).co j = s.co j := s.modCo_co_ne i j _ h
@[simp] theorem State.modPak_core (f : Pak → Pak) : (s.modPak i f).core j = s.core j := rfl
@[simp] theorem State.modPak_queue (f : Pak → Pak) : (s.modPak i f).queue j = s.queue j := rfl
@[simp] theorem State.modPak_ctr (f : Pak → Pak) : (s.modPak i f).ctr j = s.ctr j := rfl
@[simp] theorem State.modPak_watch (f : Pak → Pak) : (s.modPak i f).watch j = s.watch j := rfl
@[simp] theorem State.modPak_func (f : Pak → Pak) : (s.modPak i f).func j = s.func j := rfl
@[simp] theorem State.modPak_port (f : Pak → Pak) : (s.modPak i f).port j = s.port j := rfl
@[simp] theorem State.modPak_chan (f : Pak → Pak) : (s.modPak i f).chan j = s.chan j := rfl
@[simp] theorem State.modPak_fly (f : Pak → Pak) : (s.modPak i f).fly j = s.fly j := rfl
@[simp] theorem State.modPak_engine (f : Pak → Pak) : (s.modPak i f).engine j = s.engine j := rfl
@[simp] theorem State.modPak_farPort (f : Pak → Pak) : (s.modPak i f).farPort j = s.farPort j := rfl
@[simp] theorem State.modPak_pending (f : Pak → Pak) : (s.modPak i f).pending = s.pending := rfl
@[simp] theorem State.modPak_nowNs (f : Pak → Pak) : (s.modPak i f).nowNs = s.nowNs := rfl
@[simp] theorem State.modPak_free (f : Pak → Pak) : (s.modPak i f).free = s.free := rfl
@[simp] theorem State.modPak_gradeA768 (f : Pak → Pak) : (s.modPak i f).gradeA768 = s.gradeA768 := rfl
@[simp] theorem State.modPak_opticsF2 (f : Pak → Pak) : (s.modPak i f).opticsF2 = s.opticsF2 := rfl
@[simp] theorem State.modPak_serial (f : Pak → Pak) : (s.modPak i f).serial = s.serial := rfl
@[simp] theorem State.modPak_grid (f : Pak → Pak) : (s.modPak i f).grid = s.grid := rfl
@[simp] theorem State.modPak_boot (f : Pak → Pak) : (s.modPak i f).boot = s.boot := rfl
@[simp] theorem State.modPak_island (f : Pak → Pak) : (s.modPak i f).island = s.island := rfl
@[simp] theorem State.modPak_tor (f : Pak → Pak) : (s.modPak i f).tor = s.tor := rfl
@[simp] theorem State.modPak_funcs (f : Pak → Pak) : (s.modPak i f).funcs = s.funcs := rfl
@[simp] theorem State.modPak_roles (f : Pak → Pak) : (s.modPak i f).roles = s.roles := rfl
@[simp] theorem State.modPak_cores (f : Pak → Pak) : (s.modPak i f).cores = s.cores := rfl
@[simp] theorem State.modPak_dram (f : Pak → Pak) : (s.modPak i f).dram = s.dram := rfl
@[simp] theorem State.modPak_dramFlips (f : Pak → Pak) : (s.modPak i f).dramFlips = s.dramFlips := rfl
@[simp] theorem State.modPak_channels (f : Pak → Pak) : (s.modPak i f).channels = s.channels := rfl
@[simp] theorem State.modPak_flys (f : Pak → Pak) : (s.modPak i f).flys = s.flys := rfl
@[simp] theorem State.modPak_mesh (f : Pak → Pak) : (s.modPak i f).mesh = s.mesh := rfl
@[simp] theorem State.modPak_engines (f : Pak → Pak) : (s.modPak i f).engines = s.engines := rfl
@[simp] theorem State.modPak_hostMem (f : Pak → Pak) : (s.modPak i f).hostMem = s.hostMem := rfl
@[simp] theorem State.modPak_answers (f : Pak → Pak) : (s.modPak i f).answers = s.answers := rfl
@[simp] theorem State.modPak_wingsGot (f : Pak → Pak) : (s.modPak i f).wingsGot = s.wingsGot := rfl
@[simp] theorem State.modPak_wingsOut (f : Pak → Pak) : (s.modPak i f).wingsOut = s.wingsOut := rfl
@[simp] theorem State.modPak_pakLast (f : Pak → Pak) : (s.modPak i f).pakLast = s.pakLast := rfl
@[simp] theorem State.modPak_dmaTurn (f : Pak → Pak) : (s.modPak i f).dmaTurn = s.dmaTurn := rfl
@[simp] theorem State.modPak_incHost (f : Pak → Pak) : (s.modPak i f).incHost = s.incHost := rfl
@[simp] theorem State.modPak_queues (f : Pak → Pak) : (s.modPak i f).queues = s.queues := rfl
@[simp] theorem State.modPak_readSlots (f : Pak → Pak) : (s.modPak i f).readSlots = s.readSlots := rfl
@[simp] theorem State.modPak_frozenChans (f : Pak → Pak) : (s.modPak i f).frozenChans = s.frozenChans := rfl
@[simp] theorem State.modPak_counters (f : Pak → Pak) : (s.modPak i f).counters = s.counters := rfl
@[simp] theorem State.modPak_watches (f : Pak → Pak) : (s.modPak i f).watches = s.watches := rfl
@[simp] theorem State.modPak_incStage (f : Pak → Pak) : (s.modPak i f).incStage = s.incStage := rfl
@[simp] theorem State.modPak_incDma (f : Pak → Pak) : (s.modPak i f).incDma = s.incDma := rfl
@[simp] theorem State.modPak_incWings (f : Pak → Pak) : (s.modPak i f).incWings = s.incWings := rfl
@[simp] theorem State.modPak_cip (f : Pak → Pak) : (s.modPak i f).cip = s.cip := rfl
@[simp] theorem State.modPak_farPorts (f : Pak → Pak) : (s.modPak i f).farPorts = s.farPorts := rfl
@[simp] theorem State.modPak_restore (f : Pak → Pak) : (s.modPak i f).restore = s.restore := rfl
@[simp] theorem State.modPak_sm (f : Pak → Pak) : (s.modPak i f).sm = s.sm := rfl
@[simp] theorem State.modPak_err (f : Pak → Pak) : (s.modPak i f).err = s.err := rfl
@[simp] theorem State.modPak_pwr (f : Pak → Pak) : (s.modPak i f).pwr = s.pwr := rfl
@[simp] theorem State.modPak_rpr (f : Pak → Pak) : (s.modPak i f).rpr = s.rpr := rfl
@[simp] theorem State.modPak_svc (f : Pak → Pak) : (s.modPak i f).svc = s.svc := rfl

/-! ### dramWrite -/

@[simp] theorem State.dramWrite_co (a : Nat) (bs : List Byte) : (s.dramWrite a bs).co j = s.co j := rfl
@[simp] theorem State.dramWrite_core (a : Nat) (bs : List Byte) : (s.dramWrite a bs).core j = s.core j := rfl
@[simp] theorem State.dramWrite_queue (a : Nat) (bs : List Byte) : (s.dramWrite a bs).queue j = s.queue j := rfl
@[simp] theorem State.dramWrite_ctr (a : Nat) (bs : List Byte) : (s.dramWrite a bs).ctr j = s.ctr j := rfl
@[simp] theorem State.dramWrite_watch (a : Nat) (bs : List Byte) : (s.dramWrite a bs).watch j = s.watch j := rfl
@[simp] theorem State.dramWrite_func (a : Nat) (bs : List Byte) : (s.dramWrite a bs).func j = s.func j := rfl
@[simp] theorem State.dramWrite_port (a : Nat) (bs : List Byte) : (s.dramWrite a bs).port j = s.port j := rfl
@[simp] theorem State.dramWrite_chan (a : Nat) (bs : List Byte) : (s.dramWrite a bs).chan j = s.chan j := rfl
@[simp] theorem State.dramWrite_fly (a : Nat) (bs : List Byte) : (s.dramWrite a bs).fly j = s.fly j := rfl
@[simp] theorem State.dramWrite_engine (a : Nat) (bs : List Byte) : (s.dramWrite a bs).engine j = s.engine j := rfl
@[simp] theorem State.dramWrite_farPort (a : Nat) (bs : List Byte) : (s.dramWrite a bs).farPort j = s.farPort j := rfl
@[simp] theorem State.dramWrite_pending (a : Nat) (bs : List Byte) : (s.dramWrite a bs).pending = s.pending := rfl
@[simp] theorem State.dramWrite_nowNs (a : Nat) (bs : List Byte) : (s.dramWrite a bs).nowNs = s.nowNs := rfl
@[simp] theorem State.dramWrite_free (a : Nat) (bs : List Byte) : (s.dramWrite a bs).free = s.free := rfl
@[simp] theorem State.dramWrite_gradeA768 (a : Nat) (bs : List Byte) : (s.dramWrite a bs).gradeA768 = s.gradeA768 := rfl
@[simp] theorem State.dramWrite_opticsF2 (a : Nat) (bs : List Byte) : (s.dramWrite a bs).opticsF2 = s.opticsF2 := rfl
@[simp] theorem State.dramWrite_serial (a : Nat) (bs : List Byte) : (s.dramWrite a bs).serial = s.serial := rfl
@[simp] theorem State.dramWrite_grid (a : Nat) (bs : List Byte) : (s.dramWrite a bs).grid = s.grid := rfl
@[simp] theorem State.dramWrite_boot (a : Nat) (bs : List Byte) : (s.dramWrite a bs).boot = s.boot := rfl
@[simp] theorem State.dramWrite_island (a : Nat) (bs : List Byte) : (s.dramWrite a bs).island = s.island := rfl
@[simp] theorem State.dramWrite_tor (a : Nat) (bs : List Byte) : (s.dramWrite a bs).tor = s.tor := rfl
@[simp] theorem State.dramWrite_cos (a : Nat) (bs : List Byte) : (s.dramWrite a bs).cos = s.cos := rfl
@[simp] theorem State.dramWrite_funcs (a : Nat) (bs : List Byte) : (s.dramWrite a bs).funcs = s.funcs := rfl
@[simp] theorem State.dramWrite_roles (a : Nat) (bs : List Byte) : (s.dramWrite a bs).roles = s.roles := rfl
@[simp] theorem State.dramWrite_cores (a : Nat) (bs : List Byte) : (s.dramWrite a bs).cores = s.cores := rfl
@[simp] theorem State.dramWrite_channels (a : Nat) (bs : List Byte) : (s.dramWrite a bs).channels = s.channels := rfl
@[simp] theorem State.dramWrite_flys (a : Nat) (bs : List Byte) : (s.dramWrite a bs).flys = s.flys := rfl
@[simp] theorem State.dramWrite_mesh (a : Nat) (bs : List Byte) : (s.dramWrite a bs).mesh = s.mesh := rfl
@[simp] theorem State.dramWrite_engines (a : Nat) (bs : List Byte) : (s.dramWrite a bs).engines = s.engines := rfl
@[simp] theorem State.dramWrite_hostMem (a : Nat) (bs : List Byte) : (s.dramWrite a bs).hostMem = s.hostMem := rfl
@[simp] theorem State.dramWrite_answers (a : Nat) (bs : List Byte) : (s.dramWrite a bs).answers = s.answers := rfl
@[simp] theorem State.dramWrite_wingsGot (a : Nat) (bs : List Byte) : (s.dramWrite a bs).wingsGot = s.wingsGot := rfl
@[simp] theorem State.dramWrite_wingsOut (a : Nat) (bs : List Byte) : (s.dramWrite a bs).wingsOut = s.wingsOut := rfl
@[simp] theorem State.dramWrite_pakLast (a : Nat) (bs : List Byte) : (s.dramWrite a bs).pakLast = s.pakLast := rfl
@[simp] theorem State.dramWrite_dmaTurn (a : Nat) (bs : List Byte) : (s.dramWrite a bs).dmaTurn = s.dmaTurn := rfl
@[simp] theorem State.dramWrite_incHost (a : Nat) (bs : List Byte) : (s.dramWrite a bs).incHost = s.incHost := rfl
@[simp] theorem State.dramWrite_queues (a : Nat) (bs : List Byte) : (s.dramWrite a bs).queues = s.queues := rfl
@[simp] theorem State.dramWrite_readSlots (a : Nat) (bs : List Byte) : (s.dramWrite a bs).readSlots = s.readSlots := rfl
@[simp] theorem State.dramWrite_frozenChans (a : Nat) (bs : List Byte) : (s.dramWrite a bs).frozenChans = s.frozenChans := rfl
@[simp] theorem State.dramWrite_counters (a : Nat) (bs : List Byte) : (s.dramWrite a bs).counters = s.counters := rfl
@[simp] theorem State.dramWrite_watches (a : Nat) (bs : List Byte) : (s.dramWrite a bs).watches = s.watches := rfl
@[simp] theorem State.dramWrite_incStage (a : Nat) (bs : List Byte) : (s.dramWrite a bs).incStage = s.incStage := rfl
@[simp] theorem State.dramWrite_incDma (a : Nat) (bs : List Byte) : (s.dramWrite a bs).incDma = s.incDma := rfl
@[simp] theorem State.dramWrite_incWings (a : Nat) (bs : List Byte) : (s.dramWrite a bs).incWings = s.incWings := rfl
@[simp] theorem State.dramWrite_cip (a : Nat) (bs : List Byte) : (s.dramWrite a bs).cip = s.cip := rfl
@[simp] theorem State.dramWrite_farPorts (a : Nat) (bs : List Byte) : (s.dramWrite a bs).farPorts = s.farPorts := rfl
@[simp] theorem State.dramWrite_restore (a : Nat) (bs : List Byte) : (s.dramWrite a bs).restore = s.restore := rfl
@[simp] theorem State.dramWrite_sm (a : Nat) (bs : List Byte) : (s.dramWrite a bs).sm = s.sm := rfl
@[simp] theorem State.dramWrite_err (a : Nat) (bs : List Byte) : (s.dramWrite a bs).err = s.err := rfl
@[simp] theorem State.dramWrite_pwr (a : Nat) (bs : List Byte) : (s.dramWrite a bs).pwr = s.pwr := rfl
@[simp] theorem State.dramWrite_rpr (a : Nat) (bs : List Byte) : (s.dramWrite a bs).rpr = s.rpr := rfl
@[simp] theorem State.dramWrite_svc (a : Nat) (bs : List Byte) : (s.dramWrite a bs).svc = s.svc := rfl

/-! ### send -/

@[simp] theorem State.send_co (p : Nat) (f : Frame) : (s.send p f).co j = s.co j := rfl
@[simp] theorem State.send_core (p : Nat) (f : Frame) : (s.send p f).core j = s.core j := rfl
@[simp] theorem State.send_queue (p : Nat) (f : Frame) : (s.send p f).queue j = s.queue j := rfl
@[simp] theorem State.send_ctr (p : Nat) (f : Frame) : (s.send p f).ctr j = s.ctr j := rfl
@[simp] theorem State.send_watch (p : Nat) (f : Frame) : (s.send p f).watch j = s.watch j := rfl
@[simp] theorem State.send_func (p : Nat) (f : Frame) : (s.send p f).func j = s.func j := rfl
@[simp] theorem State.send_port (p : Nat) (f : Frame) : (s.send p f).port j = s.port j := rfl
@[simp] theorem State.send_chan (p : Nat) (f : Frame) : (s.send p f).chan j = s.chan j := rfl
@[simp] theorem State.send_fly (p : Nat) (f : Frame) : (s.send p f).fly j = s.fly j := rfl
@[simp] theorem State.send_engine (p : Nat) (f : Frame) : (s.send p f).engine j = s.engine j := rfl
@[simp] theorem State.send_farPort (p : Nat) (f : Frame) : (s.send p f).farPort j = s.farPort j := rfl
@[simp] theorem State.send_pending (p : Nat) (f : Frame) : (s.send p f).pending = s.pending := rfl
@[simp] theorem State.send_nowNs (p : Nat) (f : Frame) : (s.send p f).nowNs = s.nowNs := rfl
@[simp] theorem State.send_free (p : Nat) (f : Frame) : (s.send p f).free = s.free := rfl
@[simp] theorem State.send_gradeA768 (p : Nat) (f : Frame) : (s.send p f).gradeA768 = s.gradeA768 := rfl
@[simp] theorem State.send_opticsF2 (p : Nat) (f : Frame) : (s.send p f).opticsF2 = s.opticsF2 := rfl
@[simp] theorem State.send_serial (p : Nat) (f : Frame) : (s.send p f).serial = s.serial := rfl
@[simp] theorem State.send_grid (p : Nat) (f : Frame) : (s.send p f).grid = s.grid := rfl
@[simp] theorem State.send_boot (p : Nat) (f : Frame) : (s.send p f).boot = s.boot := rfl
@[simp] theorem State.send_island (p : Nat) (f : Frame) : (s.send p f).island = s.island := rfl
@[simp] theorem State.send_cos (p : Nat) (f : Frame) : (s.send p f).cos = s.cos := rfl
@[simp] theorem State.send_funcs (p : Nat) (f : Frame) : (s.send p f).funcs = s.funcs := rfl
@[simp] theorem State.send_roles (p : Nat) (f : Frame) : (s.send p f).roles = s.roles := rfl
@[simp] theorem State.send_cores (p : Nat) (f : Frame) : (s.send p f).cores = s.cores := rfl
@[simp] theorem State.send_dram (p : Nat) (f : Frame) : (s.send p f).dram = s.dram := rfl
@[simp] theorem State.send_dramFlips (p : Nat) (f : Frame) : (s.send p f).dramFlips = s.dramFlips := rfl
@[simp] theorem State.send_channels (p : Nat) (f : Frame) : (s.send p f).channels = s.channels := rfl
@[simp] theorem State.send_flys (p : Nat) (f : Frame) : (s.send p f).flys = s.flys := rfl
@[simp] theorem State.send_mesh (p : Nat) (f : Frame) : (s.send p f).mesh = s.mesh := rfl
@[simp] theorem State.send_engines (p : Nat) (f : Frame) : (s.send p f).engines = s.engines := rfl
@[simp] theorem State.send_hostMem (p : Nat) (f : Frame) : (s.send p f).hostMem = s.hostMem := rfl
@[simp] theorem State.send_answers (p : Nat) (f : Frame) : (s.send p f).answers = s.answers := rfl
@[simp] theorem State.send_wingsGot (p : Nat) (f : Frame) : (s.send p f).wingsGot = s.wingsGot := rfl
@[simp] theorem State.send_wingsOut (p : Nat) (f : Frame) : (s.send p f).wingsOut = s.wingsOut := rfl
@[simp] theorem State.send_pakLast (p : Nat) (f : Frame) : (s.send p f).pakLast = s.pakLast := rfl
@[simp] theorem State.send_dmaTurn (p : Nat) (f : Frame) : (s.send p f).dmaTurn = s.dmaTurn := rfl
@[simp] theorem State.send_incHost (p : Nat) (f : Frame) : (s.send p f).incHost = s.incHost := rfl
@[simp] theorem State.send_queues (p : Nat) (f : Frame) : (s.send p f).queues = s.queues := rfl
@[simp] theorem State.send_readSlots (p : Nat) (f : Frame) : (s.send p f).readSlots = s.readSlots := rfl
@[simp] theorem State.send_frozenChans (p : Nat) (f : Frame) : (s.send p f).frozenChans = s.frozenChans := rfl
@[simp] theorem State.send_counters (p : Nat) (f : Frame) : (s.send p f).counters = s.counters := rfl
@[simp] theorem State.send_watches (p : Nat) (f : Frame) : (s.send p f).watches = s.watches := rfl
@[simp] theorem State.send_incStage (p : Nat) (f : Frame) : (s.send p f).incStage = s.incStage := rfl
@[simp] theorem State.send_incDma (p : Nat) (f : Frame) : (s.send p f).incDma = s.incDma := rfl
@[simp] theorem State.send_incWings (p : Nat) (f : Frame) : (s.send p f).incWings = s.incWings := rfl
@[simp] theorem State.send_cip (p : Nat) (f : Frame) : (s.send p f).cip = s.cip := rfl
@[simp] theorem State.send_farPorts (p : Nat) (f : Frame) : (s.send p f).farPorts = s.farPorts := rfl
@[simp] theorem State.send_restore (p : Nat) (f : Frame) : (s.send p f).restore = s.restore := rfl
@[simp] theorem State.send_sm (p : Nat) (f : Frame) : (s.send p f).sm = s.sm := rfl
@[simp] theorem State.send_err (p : Nat) (f : Frame) : (s.send p f).err = s.err := rfl
@[simp] theorem State.send_pwr (p : Nat) (f : Frame) : (s.send p f).pwr = s.pwr := rfl
@[simp] theorem State.send_rpr (p : Nat) (f : Frame) : (s.send p f).rpr = s.rpr := rfl
@[simp] theorem State.send_svc (p : Nat) (f : Frame) : (s.send p f).svc = s.svc := rfl

/-! ### stagePost -/

@[simp] theorem State.stagePost_co (k c : Nat) (g : BitVec 8) (n : Nat) : (s.stagePost k c g n).co j = s.co j := rfl
@[simp] theorem State.stagePost_core (k c : Nat) (g : BitVec 8) (n : Nat) : (s.stagePost k c g n).core j = s.core j := rfl
@[simp] theorem State.stagePost_queue (k c : Nat) (g : BitVec 8) (n : Nat) : (s.stagePost k c g n).queue j = s.queue j := rfl
@[simp] theorem State.stagePost_ctr (k c : Nat) (g : BitVec 8) (n : Nat) : (s.stagePost k c g n).ctr j = s.ctr j := rfl
@[simp] theorem State.stagePost_watch (k c : Nat) (g : BitVec 8) (n : Nat) : (s.stagePost k c g n).watch j = s.watch j := rfl
@[simp] theorem State.stagePost_func (k c : Nat) (g : BitVec 8) (n : Nat) : (s.stagePost k c g n).func j = s.func j := rfl
@[simp] theorem State.stagePost_port (k c : Nat) (g : BitVec 8) (n : Nat) : (s.stagePost k c g n).port j = s.port j := rfl
@[simp] theorem State.stagePost_chan (k c : Nat) (g : BitVec 8) (n : Nat) : (s.stagePost k c g n).chan j = s.chan j := rfl
@[simp] theorem State.stagePost_fly (k c : Nat) (g : BitVec 8) (n : Nat) : (s.stagePost k c g n).fly j = s.fly j := rfl
@[simp] theorem State.stagePost_engine (k c : Nat) (g : BitVec 8) (n : Nat) : (s.stagePost k c g n).engine j = s.engine j := rfl
@[simp] theorem State.stagePost_farPort (k c : Nat) (g : BitVec 8) (n : Nat) : (s.stagePost k c g n).farPort j = s.farPort j := rfl
@[simp] theorem State.stagePost_pending (k c : Nat) (g : BitVec 8) (n : Nat) : (s.stagePost k c g n).pending = s.pending := rfl
@[simp] theorem State.stagePost_nowNs (k c : Nat) (g : BitVec 8) (n : Nat) : (s.stagePost k c g n).nowNs = s.nowNs := rfl
@[simp] theorem State.stagePost_free (k c : Nat) (g : BitVec 8) (n : Nat) : (s.stagePost k c g n).free = s.free := rfl
@[simp] theorem State.stagePost_gradeA768 (k c : Nat) (g : BitVec 8) (n : Nat) : (s.stagePost k c g n).gradeA768 = s.gradeA768 := rfl
@[simp] theorem State.stagePost_opticsF2 (k c : Nat) (g : BitVec 8) (n : Nat) : (s.stagePost k c g n).opticsF2 = s.opticsF2 := rfl
@[simp] theorem State.stagePost_serial (k c : Nat) (g : BitVec 8) (n : Nat) : (s.stagePost k c g n).serial = s.serial := rfl
@[simp] theorem State.stagePost_grid (k c : Nat) (g : BitVec 8) (n : Nat) : (s.stagePost k c g n).grid = s.grid := rfl
@[simp] theorem State.stagePost_boot (k c : Nat) (g : BitVec 8) (n : Nat) : (s.stagePost k c g n).boot = s.boot := rfl
@[simp] theorem State.stagePost_island (k c : Nat) (g : BitVec 8) (n : Nat) : (s.stagePost k c g n).island = s.island := rfl
@[simp] theorem State.stagePost_tor (k c : Nat) (g : BitVec 8) (n : Nat) : (s.stagePost k c g n).tor = s.tor := rfl
@[simp] theorem State.stagePost_cos (k c : Nat) (g : BitVec 8) (n : Nat) : (s.stagePost k c g n).cos = s.cos := rfl
@[simp] theorem State.stagePost_funcs (k c : Nat) (g : BitVec 8) (n : Nat) : (s.stagePost k c g n).funcs = s.funcs := rfl
@[simp] theorem State.stagePost_roles (k c : Nat) (g : BitVec 8) (n : Nat) : (s.stagePost k c g n).roles = s.roles := rfl
@[simp] theorem State.stagePost_cores (k c : Nat) (g : BitVec 8) (n : Nat) : (s.stagePost k c g n).cores = s.cores := rfl
@[simp] theorem State.stagePost_dram (k c : Nat) (g : BitVec 8) (n : Nat) : (s.stagePost k c g n).dram = s.dram := rfl
@[simp] theorem State.stagePost_dramFlips (k c : Nat) (g : BitVec 8) (n : Nat) : (s.stagePost k c g n).dramFlips = s.dramFlips := rfl
@[simp] theorem State.stagePost_channels (k c : Nat) (g : BitVec 8) (n : Nat) : (s.stagePost k c g n).channels = s.channels := rfl
@[simp] theorem State.stagePost_flys (k c : Nat) (g : BitVec 8) (n : Nat) : (s.stagePost k c g n).flys = s.flys := rfl
@[simp] theorem State.stagePost_mesh (k c : Nat) (g : BitVec 8) (n : Nat) : (s.stagePost k c g n).mesh = s.mesh := rfl
@[simp] theorem State.stagePost_engines (k c : Nat) (g : BitVec 8) (n : Nat) : (s.stagePost k c g n).engines = s.engines := rfl
@[simp] theorem State.stagePost_hostMem (k c : Nat) (g : BitVec 8) (n : Nat) : (s.stagePost k c g n).hostMem = s.hostMem := rfl
@[simp] theorem State.stagePost_answers (k c : Nat) (g : BitVec 8) (n : Nat) : (s.stagePost k c g n).answers = s.answers := rfl
@[simp] theorem State.stagePost_wingsGot (k c : Nat) (g : BitVec 8) (n : Nat) : (s.stagePost k c g n).wingsGot = s.wingsGot := rfl
@[simp] theorem State.stagePost_wingsOut (k c : Nat) (g : BitVec 8) (n : Nat) : (s.stagePost k c g n).wingsOut = s.wingsOut := rfl
@[simp] theorem State.stagePost_pakLast (k c : Nat) (g : BitVec 8) (n : Nat) : (s.stagePost k c g n).pakLast = s.pakLast := rfl
@[simp] theorem State.stagePost_dmaTurn (k c : Nat) (g : BitVec 8) (n : Nat) : (s.stagePost k c g n).dmaTurn = s.dmaTurn := rfl
@[simp] theorem State.stagePost_incHost (k c : Nat) (g : BitVec 8) (n : Nat) : (s.stagePost k c g n).incHost = s.incHost := rfl
@[simp] theorem State.stagePost_queues (k c : Nat) (g : BitVec 8) (n : Nat) : (s.stagePost k c g n).queues = s.queues := rfl
@[simp] theorem State.stagePost_readSlots (k c : Nat) (g : BitVec 8) (n : Nat) : (s.stagePost k c g n).readSlots = s.readSlots := rfl
@[simp] theorem State.stagePost_frozenChans (k c : Nat) (g : BitVec 8) (n : Nat) : (s.stagePost k c g n).frozenChans = s.frozenChans := rfl
@[simp] theorem State.stagePost_counters (k c : Nat) (g : BitVec 8) (n : Nat) : (s.stagePost k c g n).counters = s.counters := rfl
@[simp] theorem State.stagePost_watches (k c : Nat) (g : BitVec 8) (n : Nat) : (s.stagePost k c g n).watches = s.watches := rfl
@[simp] theorem State.stagePost_incDma (k c : Nat) (g : BitVec 8) (n : Nat) : (s.stagePost k c g n).incDma = s.incDma := rfl
@[simp] theorem State.stagePost_incWings (k c : Nat) (g : BitVec 8) (n : Nat) : (s.stagePost k c g n).incWings = s.incWings := rfl
@[simp] theorem State.stagePost_cip (k c : Nat) (g : BitVec 8) (n : Nat) : (s.stagePost k c g n).cip = s.cip := rfl
@[simp] theorem State.stagePost_farPorts (k c : Nat) (g : BitVec 8) (n : Nat) : (s.stagePost k c g n).farPorts = s.farPorts := rfl
@[simp] theorem State.stagePost_restore (k c : Nat) (g : BitVec 8) (n : Nat) : (s.stagePost k c g n).restore = s.restore := rfl
@[simp] theorem State.stagePost_sm (k c : Nat) (g : BitVec 8) (n : Nat) : (s.stagePost k c g n).sm = s.sm := rfl
@[simp] theorem State.stagePost_err (k c : Nat) (g : BitVec 8) (n : Nat) : (s.stagePost k c g n).err = s.err := rfl
@[simp] theorem State.stagePost_pwr (k c : Nat) (g : BitVec 8) (n : Nat) : (s.stagePost k c g n).pwr = s.pwr := rfl
@[simp] theorem State.stagePost_rpr (k c : Nat) (g : BitVec 8) (n : Nat) : (s.stagePost k c g n).rpr = s.rpr := rfl
@[simp] theorem State.stagePost_svc (k c : Nat) (g : BitVec 8) (n : Nat) : (s.stagePost k c g n).svc = s.svc := rfl

/-! ### wingsPost -/

@[simp] theorem State.wingsPost_co (k h c : Nat) (g : BitVec 8) (n : Nat) : (s.wingsPost k h c g n).co j = s.co j := rfl
@[simp] theorem State.wingsPost_core (k h c : Nat) (g : BitVec 8) (n : Nat) : (s.wingsPost k h c g n).core j = s.core j := rfl
@[simp] theorem State.wingsPost_queue (k h c : Nat) (g : BitVec 8) (n : Nat) : (s.wingsPost k h c g n).queue j = s.queue j := rfl
@[simp] theorem State.wingsPost_ctr (k h c : Nat) (g : BitVec 8) (n : Nat) : (s.wingsPost k h c g n).ctr j = s.ctr j := rfl
@[simp] theorem State.wingsPost_watch (k h c : Nat) (g : BitVec 8) (n : Nat) : (s.wingsPost k h c g n).watch j = s.watch j := rfl
@[simp] theorem State.wingsPost_func (k h c : Nat) (g : BitVec 8) (n : Nat) : (s.wingsPost k h c g n).func j = s.func j := rfl
@[simp] theorem State.wingsPost_port (k h c : Nat) (g : BitVec 8) (n : Nat) : (s.wingsPost k h c g n).port j = s.port j := rfl
@[simp] theorem State.wingsPost_chan (k h c : Nat) (g : BitVec 8) (n : Nat) : (s.wingsPost k h c g n).chan j = s.chan j := rfl
@[simp] theorem State.wingsPost_fly (k h c : Nat) (g : BitVec 8) (n : Nat) : (s.wingsPost k h c g n).fly j = s.fly j := rfl
@[simp] theorem State.wingsPost_engine (k h c : Nat) (g : BitVec 8) (n : Nat) : (s.wingsPost k h c g n).engine j = s.engine j := rfl
@[simp] theorem State.wingsPost_farPort (k h c : Nat) (g : BitVec 8) (n : Nat) : (s.wingsPost k h c g n).farPort j = s.farPort j := rfl
@[simp] theorem State.wingsPost_pending (k h c : Nat) (g : BitVec 8) (n : Nat) : (s.wingsPost k h c g n).pending = s.pending := rfl
@[simp] theorem State.wingsPost_nowNs (k h c : Nat) (g : BitVec 8) (n : Nat) : (s.wingsPost k h c g n).nowNs = s.nowNs := rfl
@[simp] theorem State.wingsPost_free (k h c : Nat) (g : BitVec 8) (n : Nat) : (s.wingsPost k h c g n).free = s.free := rfl
@[simp] theorem State.wingsPost_gradeA768 (k h c : Nat) (g : BitVec 8) (n : Nat) : (s.wingsPost k h c g n).gradeA768 = s.gradeA768 := rfl
@[simp] theorem State.wingsPost_opticsF2 (k h c : Nat) (g : BitVec 8) (n : Nat) : (s.wingsPost k h c g n).opticsF2 = s.opticsF2 := rfl
@[simp] theorem State.wingsPost_serial (k h c : Nat) (g : BitVec 8) (n : Nat) : (s.wingsPost k h c g n).serial = s.serial := rfl
@[simp] theorem State.wingsPost_grid (k h c : Nat) (g : BitVec 8) (n : Nat) : (s.wingsPost k h c g n).grid = s.grid := rfl
@[simp] theorem State.wingsPost_boot (k h c : Nat) (g : BitVec 8) (n : Nat) : (s.wingsPost k h c g n).boot = s.boot := rfl
@[simp] theorem State.wingsPost_island (k h c : Nat) (g : BitVec 8) (n : Nat) : (s.wingsPost k h c g n).island = s.island := rfl
@[simp] theorem State.wingsPost_tor (k h c : Nat) (g : BitVec 8) (n : Nat) : (s.wingsPost k h c g n).tor = s.tor := rfl
@[simp] theorem State.wingsPost_cos (k h c : Nat) (g : BitVec 8) (n : Nat) : (s.wingsPost k h c g n).cos = s.cos := rfl
@[simp] theorem State.wingsPost_funcs (k h c : Nat) (g : BitVec 8) (n : Nat) : (s.wingsPost k h c g n).funcs = s.funcs := rfl
@[simp] theorem State.wingsPost_roles (k h c : Nat) (g : BitVec 8) (n : Nat) : (s.wingsPost k h c g n).roles = s.roles := rfl
@[simp] theorem State.wingsPost_cores (k h c : Nat) (g : BitVec 8) (n : Nat) : (s.wingsPost k h c g n).cores = s.cores := rfl
@[simp] theorem State.wingsPost_dram (k h c : Nat) (g : BitVec 8) (n : Nat) : (s.wingsPost k h c g n).dram = s.dram := rfl
@[simp] theorem State.wingsPost_dramFlips (k h c : Nat) (g : BitVec 8) (n : Nat) : (s.wingsPost k h c g n).dramFlips = s.dramFlips := rfl
@[simp] theorem State.wingsPost_channels (k h c : Nat) (g : BitVec 8) (n : Nat) : (s.wingsPost k h c g n).channels = s.channels := rfl
@[simp] theorem State.wingsPost_flys (k h c : Nat) (g : BitVec 8) (n : Nat) : (s.wingsPost k h c g n).flys = s.flys := rfl
@[simp] theorem State.wingsPost_mesh (k h c : Nat) (g : BitVec 8) (n : Nat) : (s.wingsPost k h c g n).mesh = s.mesh := rfl
@[simp] theorem State.wingsPost_engines (k h c : Nat) (g : BitVec 8) (n : Nat) : (s.wingsPost k h c g n).engines = s.engines := rfl
@[simp] theorem State.wingsPost_hostMem (k h c : Nat) (g : BitVec 8) (n : Nat) : (s.wingsPost k h c g n).hostMem = s.hostMem := rfl
@[simp] theorem State.wingsPost_answers (k h c : Nat) (g : BitVec 8) (n : Nat) : (s.wingsPost k h c g n).answers = s.answers := rfl
@[simp] theorem State.wingsPost_wingsGot (k h c : Nat) (g : BitVec 8) (n : Nat) : (s.wingsPost k h c g n).wingsGot = s.wingsGot := rfl
@[simp] theorem State.wingsPost_wingsOut (k h c : Nat) (g : BitVec 8) (n : Nat) : (s.wingsPost k h c g n).wingsOut = s.wingsOut := rfl
@[simp] theorem State.wingsPost_pakLast (k h c : Nat) (g : BitVec 8) (n : Nat) : (s.wingsPost k h c g n).pakLast = s.pakLast := rfl
@[simp] theorem State.wingsPost_dmaTurn (k h c : Nat) (g : BitVec 8) (n : Nat) : (s.wingsPost k h c g n).dmaTurn = s.dmaTurn := rfl
@[simp] theorem State.wingsPost_incHost (k h c : Nat) (g : BitVec 8) (n : Nat) : (s.wingsPost k h c g n).incHost = s.incHost := rfl
@[simp] theorem State.wingsPost_queues (k h c : Nat) (g : BitVec 8) (n : Nat) : (s.wingsPost k h c g n).queues = s.queues := rfl
@[simp] theorem State.wingsPost_readSlots (k h c : Nat) (g : BitVec 8) (n : Nat) : (s.wingsPost k h c g n).readSlots = s.readSlots := rfl
@[simp] theorem State.wingsPost_frozenChans (k h c : Nat) (g : BitVec 8) (n : Nat) : (s.wingsPost k h c g n).frozenChans = s.frozenChans := rfl
@[simp] theorem State.wingsPost_counters (k h c : Nat) (g : BitVec 8) (n : Nat) : (s.wingsPost k h c g n).counters = s.counters := rfl
@[simp] theorem State.wingsPost_watches (k h c : Nat) (g : BitVec 8) (n : Nat) : (s.wingsPost k h c g n).watches = s.watches := rfl
@[simp] theorem State.wingsPost_incStage (k h c : Nat) (g : BitVec 8) (n : Nat) : (s.wingsPost k h c g n).incStage = s.incStage := rfl
@[simp] theorem State.wingsPost_incDma (k h c : Nat) (g : BitVec 8) (n : Nat) : (s.wingsPost k h c g n).incDma = s.incDma := rfl
@[simp] theorem State.wingsPost_cip (k h c : Nat) (g : BitVec 8) (n : Nat) : (s.wingsPost k h c g n).cip = s.cip := rfl
@[simp] theorem State.wingsPost_farPorts (k h c : Nat) (g : BitVec 8) (n : Nat) : (s.wingsPost k h c g n).farPorts = s.farPorts := rfl
@[simp] theorem State.wingsPost_restore (k h c : Nat) (g : BitVec 8) (n : Nat) : (s.wingsPost k h c g n).restore = s.restore := rfl
@[simp] theorem State.wingsPost_sm (k h c : Nat) (g : BitVec 8) (n : Nat) : (s.wingsPost k h c g n).sm = s.sm := rfl
@[simp] theorem State.wingsPost_err (k h c : Nat) (g : BitVec 8) (n : Nat) : (s.wingsPost k h c g n).err = s.err := rfl
@[simp] theorem State.wingsPost_pwr (k h c : Nat) (g : BitVec 8) (n : Nat) : (s.wingsPost k h c g n).pwr = s.pwr := rfl
@[simp] theorem State.wingsPost_rpr (k h c : Nat) (g : BitVec 8) (n : Nat) : (s.wingsPost k h c g n).rpr = s.rpr := rfl
@[simp] theorem State.wingsPost_svc (k h c : Nat) (g : BitVec 8) (n : Nat) : (s.wingsPost k h c g n).svc = s.svc := rfl

end Sys2Proof.Machine
end

