-- ==== Sys2Proof/Laws/Logs.lean ====
section
/-!
SUPPORT. What writing a ring entry (R379) and a record of the error logger (R422 to R428) can change: queues, the
memories their rings lie in, interrupt lines, the logger and the alert pin, and nothing else.
-/

namespace Sys2Proof.Machine

/-- `t` is `s` but for queues, the memories their rings lie in and interrupt lines. -/
def State.RingsOnly (s t : State) : Prop :=
  t = { s with hostMem := t.hostMem, dram := t.dram, dramFlips := t.dramFlips, queues := t.queues, funcs := t.funcs }

/-- `t` is `s` but for that, the error logger and the service side's alert. -/
def State.LogsOnly (s t : State) : Prop :=
  t = { s with hostMem := t.hostMem, dram := t.dram, dramFlips := t.dramFlips, queues := t.queues, funcs := t.funcs, err := t.err, svc := t.svc }

variable {s t u : State}

theorem State.RingsOnly.eq (h : s.RingsOnly t) : t = { s with hostMem := t.hostMem, dram := t.dram, dramFlips := t.dramFlips, queues := t.queues, funcs := t.funcs } := h
theorem State.LogsOnly.eq (h : s.LogsOnly t) : t = { s with hostMem := t.hostMem, dram := t.dram, dramFlips := t.dramFlips, queues := t.queues, funcs := t.funcs, err := t.err, svc := t.svc } := h
theorem State.RingsOnly.refl (s : State) : s.RingsOnly s := rfl
theorem State.LogsOnly.refl (s : State) : s.LogsOnly s := rfl

theorem State.RingsOnly.trans (h : s.RingsOnly t) (k : t.RingsOnly u) : s.RingsOnly u :=
  Eq.trans k (congrArg (fun x : State => { x with hostMem := u.hostMem, dram := u.dram, dramFlips := u.dramFlips, queues := u.queues, funcs := u.funcs }) h.eq)

theorem State.LogsOnly.trans (h : s.LogsOnly t) (k : t.LogsOnly u) : s.LogsOnly u :=
  Eq.trans k (congrArg (fun x : State => { x with hostMem := u.hostMem, dram := u.dram, dramFlips := u.dramFlips, queues := u.queues, funcs := u.funcs, err := u.err, svc := u.svc }) h.eq)

theorem State.RingsOnly.logs (h : s.RingsOnly t) : s.LogsOnly t :=
  Eq.trans rfl (congrArg (fun x : State => { x with err := t.err, svc := t.svc }) h.eq)

theorem State.RingsOnly.pending (h : s.RingsOnly t) : t.pending = s.pending := Eq.trans (congrArg State.pending h.eq) rfl
theorem State.RingsOnly.nowNs (h : s.RingsOnly t) : t.nowNs = s.nowNs := Eq.trans (congrArg State.nowNs h.eq) rfl
theorem State.RingsOnly.free (h : s.RingsOnly t) : t.free = s.free := Eq.trans (congrArg State.free h.eq) rfl
theorem State.RingsOnly.gradeA768 (h : s.RingsOnly t) : t.gradeA768 = s.gradeA768 := Eq.trans (congrArg State.gradeA768 h.eq) rfl
theorem State.RingsOnly.opticsF2 (h : s.RingsOnly t) : t.opticsF2 = s.opticsF2 := Eq.trans (congrArg State.opticsF2 h.eq) rfl
theorem State.RingsOnly.serial (h : s.RingsOnly t) : t.serial = s.serial := Eq.trans (congrArg State.serial h.eq) rfl
theorem State.RingsOnly.grid (h : s.RingsOnly t) : t.grid = s.grid := Eq.trans (congrArg State.grid h.eq) rfl
theorem State.RingsOnly.boot (h : s.RingsOnly t) : t.boot = s.boot := Eq.trans (congrArg State.boot h.eq) rfl
theorem State.RingsOnly.island (h : s.RingsOnly t) : t.island = s.island := Eq.trans (congrArg State.island h.eq) rfl
theorem State.RingsOnly.tor (h : s.RingsOnly t) : t.tor = s.tor := Eq.trans (congrArg State.tor h.eq) rfl
theorem State.RingsOnly.cos (h : s.RingsOnly t) : t.cos = s.cos := Eq.trans (congrArg State.cos h.eq) rfl
theorem State.RingsOnly.roles (h : s.RingsOnly t) : t.roles = s.roles := Eq.trans (congrArg State.roles h.eq) rfl
theorem State.RingsOnly.cores (h : s.RingsOnly t) : t.cores = s.cores := Eq.trans (congrArg State.cores h.eq) rfl
theorem State.RingsOnly.channels (h : s.RingsOnly t) : t.channels = s.channels := Eq.trans (congrArg State.channels h.eq) rfl
theorem State.RingsOnly.flys (h : s.RingsOnly t) : t.flys = s.flys := Eq.trans (congrArg State.flys h.eq) rfl
theorem State.RingsOnly.mesh (h : s.RingsOnly t) : t.mesh = s.mesh := Eq.trans (congrArg State.mesh h.eq) rfl
theorem State.RingsOnly.engines (h : s.RingsOnly t) : t.engines = s.engines := Eq.trans (congrArg State.engines h.eq) rfl
theorem State.RingsOnly.answers (h : s.RingsOnly t) : t.answers = s.answers := Eq.trans (congrArg State.answers h.eq) rfl
theorem State.RingsOnly.wingsGot (h : s.RingsOnly t) : t.wingsGot = s.wingsGot := Eq.trans (congrArg State.wingsGot h.eq) rfl
theorem State.RingsOnly.wingsOut (h : s.RingsOnly t) : t.wingsOut = s.wingsOut := Eq.trans (congrArg State.wingsOut h.eq) rfl
theorem State.RingsOnly.pakLast (h : s.RingsOnly t) : t.pakLast = s.pakLast := Eq.trans (congrArg State.pakLast h.eq) rfl
theorem State.RingsOnly.dmaTurn (h : s.RingsOnly t) : t.dmaTurn = s.dmaTurn := Eq.trans (congrArg State.dmaTurn h.eq) rfl
theorem State.RingsOnly.incHost (h : s.RingsOnly t) : t.incHost = s.incHost := Eq.trans (congrArg State.incHost h.eq) rfl
theorem State.RingsOnly.readSlots (h : s.RingsOnly t) : t.readSlots = s.readSlots := Eq.trans (congrArg State.readSlots h.eq) rfl
theorem State.RingsOnly.frozenChans (h : s.RingsOnly t) : t.frozenChans = s.frozenChans := Eq.trans (congrArg State.frozenChans h.eq) rfl
theorem State.RingsOnly.counters (h : s.RingsOnly t) : t.counters = s.counters := Eq.trans (congrArg State.counters h.eq) rfl
theorem State.RingsOnly.watches (h : s.RingsOnly t) : t.watches = s.watches := Eq.trans (congrArg State.watches h.eq) rfl
theorem State.RingsOnly.incStage (h : s.RingsOnly t) : t.incStage = s.incStage := Eq.trans (congrArg State.incStage h.eq) rfl
theorem State.RingsOnly.incDma (h : s.RingsOnly t) : t.incDma = s.incDma := Eq.trans (congrArg State.incDma h.eq) rfl
theorem State.RingsOnly.incWings (h : s.RingsOnly t) : t.incWings = s.incWings := Eq.trans (congrArg State.incWings h.eq) rfl
theorem State.RingsOnly.cip (h : s.RingsOnly t) : t.cip = s.cip := Eq.trans (congrArg State.cip h.eq) rfl
theorem State.RingsOnly.farPorts (h : s.RingsOnly t) : t.farPorts = s.farPorts := Eq.trans (congrArg State.farPorts h.eq) rfl
theorem State.RingsOnly.restore (h : s.RingsOnly t) : t.restore = s.restore := Eq.trans (congrArg State.restore h.eq) rfl
theorem State.RingsOnly.sm (h : s.RingsOnly t) : t.sm = s.sm := Eq.trans (congrArg State.sm h.eq) rfl
theorem State.RingsOnly.err (h : s.RingsOnly t) : t.err = s.err := Eq.trans (congrArg State.err h.eq) rfl
theorem State.RingsOnly.pwr (h : s.RingsOnly t) : t.pwr = s.pwr := Eq.trans (congrArg State.pwr h.eq) rfl
theorem State.RingsOnly.rpr (h : s.RingsOnly t) : t.rpr = s.rpr := Eq.trans (congrArg State.rpr h.eq) rfl
theorem State.RingsOnly.svc (h : s.RingsOnly t) : t.svc = s.svc := Eq.trans (congrArg State.svc h.eq) rfl
theorem State.RingsOnly.co (h : s.RingsOnly t) (i : Nat) : t.co i = s.co i := Eq.trans (congrArg (fun x => State.co x i) h.eq) rfl
theorem State.RingsOnly.core (h : s.RingsOnly t) (i : Nat) : t.core i = s.core i := Eq.trans (congrArg (fun x => State.core x i) h.eq) rfl
theorem State.RingsOnly.ctr (h : s.RingsOnly t) (i : Nat) : t.ctr i = s.ctr i := Eq.trans (congrArg (fun x => State.ctr x i) h.eq) rfl
theorem State.RingsOnly.watch (h : s.RingsOnly t) (i : Nat) : t.watch i = s.watch i := Eq.trans (congrArg (fun x => State.watch x i) h.eq) rfl
theorem State.RingsOnly.port (h : s.RingsOnly t) (i : Nat) : t.port i = s.port i := Eq.trans (congrArg (fun x => State.port x i) h.eq) rfl
theorem State.RingsOnly.chan (h : s.RingsOnly t) (i : Nat) : t.chan i = s.chan i := Eq.trans (congrArg (fun x => State.chan x i) h.eq) rfl
theorem State.RingsOnly.fly (h : s.RingsOnly t) (i : Nat) : t.fly i = s.fly i := Eq.trans (congrArg (fun x => State.fly x i) h.eq) rfl
theorem State.RingsOnly.engine (h : s.RingsOnly t) (i : Nat) : t.engine i = s.engine i := Eq.trans (congrArg (fun x => State.engine x i) h.eq) rfl
theorem State.RingsOnly.farPort (h : s.RingsOnly t) (i : Nat) : t.farPort i = s.farPort i := Eq.trans (congrArg (fun x => State.farPort x i) h.eq) rfl

theorem State.LogsOnly.pending (h : s.LogsOnly t) : t.pending = s.pending := Eq.trans (congrArg State.pending h.eq) rfl
theorem State.LogsOnly.nowNs (h : s.LogsOnly t) : t.nowNs = s.nowNs := Eq.trans (congrArg State.nowNs h.eq) rfl
theorem State.LogsOnly.free (h : s.LogsOnly t) : t.free = s.free := Eq.trans (congrArg State.free h.eq) rfl
theorem State.LogsOnly.gradeA768 (h : s.LogsOnly t) : t.gradeA768 = s.gradeA768 := Eq.trans (congrArg State.gradeA768 h.eq) rfl
theorem State.LogsOnly.opticsF2 (h : s.LogsOnly t) : t.opticsF2 = s.opticsF2 := Eq.trans (congrArg State.opticsF2 h.eq) rfl
theorem State.LogsOnly.serial (h : s.LogsOnly t) : t.serial = s.serial := Eq.trans (congrArg State.serial h.eq) rfl
theorem State.LogsOnly.grid (h : s.LogsOnly t) : t.grid = s.grid := Eq.trans (congrArg State.grid h.eq) rfl
theorem State.LogsOnly.boot (h : s.LogsOnly t) : t.boot = s.boot := Eq.trans (congrArg State.boot h.eq) rfl
theorem State.LogsOnly.island (h : s.LogsOnly t) : t.island = s.island := Eq.trans (congrArg State.island h.eq) rfl
theorem State.LogsOnly.tor (h : s.LogsOnly t) : t.tor = s.tor := Eq.trans (congrArg State.tor h.eq) rfl
theorem State.LogsOnly.cos (h : s.LogsOnly t) : t.cos = s.cos := Eq.trans (congrArg State.cos h.eq) rfl
theorem State.LogsOnly.roles (h : s.LogsOnly t) : t.roles = s.roles := Eq.trans (congrArg State.roles h.eq) rfl
theorem State.LogsOnly.cores (h : s.LogsOnly t) : t.cores = s.cores := Eq.trans (congrArg State.cores h.eq) rfl
theorem State.LogsOnly.channels (h : s.LogsOnly t) : t.channels = s.channels := Eq.trans (congrArg State.channels h.eq) rfl
theorem State.LogsOnly.flys (h : s.LogsOnly t) : t.flys = s.flys := Eq.trans (congrArg State.flys h.eq) rfl
theorem State.LogsOnly.mesh (h : s.LogsOnly t) : t.mesh = s.mesh := Eq.trans (congrArg State.mesh h.eq) rfl
theorem State.LogsOnly.engines (h : s.LogsOnly t) : t.engines = s.engines := Eq.trans (congrArg State.engines h.eq) rfl
theorem State.LogsOnly.answers (h : s.LogsOnly t) : t.answers = s.answers := Eq.trans (congrArg State.answers h.eq) rfl
theorem State.LogsOnly.wingsGot (h : s.LogsOnly t) : t.wingsGot = s.wingsGot := Eq.trans (congrArg State.wingsGot h.eq) rfl
theorem State.LogsOnly.wingsOut (h : s.LogsOnly t) : t.wingsOut = s.wingsOut := Eq.trans (congrArg State.wingsOut h.eq) rfl
theorem State.LogsOnly.pakLast (h : s.LogsOnly t) : t.pakLast = s.pakLast := Eq.trans (congrArg State.pakLast h.eq) rfl
theorem State.LogsOnly.dmaTurn (h : s.LogsOnly t) : t.dmaTurn = s.dmaTurn := Eq.trans (congrArg State.dmaTurn h.eq) rfl
theorem State.LogsOnly.incHost (h : s.LogsOnly t) : t.incHost = s.incHost := Eq.trans (congrArg State.incHost h.eq) rfl
theorem State.LogsOnly.readSlots (h : s.LogsOnly t) : t.readSlots = s.readSlots := Eq.trans (congrArg State.readSlots h.eq) rfl
theorem State.LogsOnly.frozenChans (h : s.LogsOnly t) : t.frozenChans = s.frozenChans := Eq.trans (congrArg State.frozenChans h.eq) rfl
theorem State.LogsOnly.counters (h : s.LogsOnly t) : t.counters = s.counters := Eq.trans (congrArg State.counters h.eq) rfl
theorem State.LogsOnly.watches (h : s.LogsOnly t) : t.watches = s.watches := Eq.trans (congrArg State.watches h.eq) rfl
theorem State.LogsOnly.incStage (h : s.LogsOnly t) : t.incStage = s.incStage := Eq.trans (congrArg State.incStage h.eq) rfl
theorem State.LogsOnly.incDma (h : s.LogsOnly t) : t.incDma = s.incDma := Eq.trans (congrArg State.incDma h.eq) rfl
theorem State.LogsOnly.incWings (h : s.LogsOnly t) : t.incWings = s.incWings := Eq.trans (congrArg State.incWings h.eq) rfl
theorem State.LogsOnly.cip (h : s.LogsOnly t) : t.cip = s.cip := Eq.trans (congrArg State.cip h.eq) rfl
theorem State.LogsOnly.farPorts (h : s.LogsOnly t) : t.farPorts = s.farPorts := Eq.trans (congrArg State.farPorts h.eq) rfl
theorem State.LogsOnly.restore (h : s.LogsOnly t) : t.restore = s.restore := Eq.trans (congrArg State.restore h.eq) rfl
theorem State.LogsOnly.sm (h : s.LogsOnly t) : t.sm = s.sm := Eq.trans (congrArg State.sm h.eq) rfl
theorem State.LogsOnly.pwr (h : s.LogsOnly t) : t.pwr = s.pwr := Eq.trans (congrArg State.pwr h.eq) rfl
theorem State.LogsOnly.rpr (h : s.LogsOnly t) : t.rpr = s.rpr := Eq.trans (congrArg State.rpr h.eq) rfl
theorem State.LogsOnly.co (h : s.LogsOnly t) (i : Nat) : t.co i = s.co i := Eq.trans (congrArg (fun x => State.co x i) h.eq) rfl
theorem State.LogsOnly.core (h : s.LogsOnly t) (i : Nat) : t.core i = s.core i := Eq.trans (congrArg (fun x => State.core x i) h.eq) rfl
theorem State.LogsOnly.ctr (h : s.LogsOnly t) (i : Nat) : t.ctr i = s.ctr i := Eq.trans (congrArg (fun x => State.ctr x i) h.eq) rfl
theorem State.LogsOnly.watch (h : s.LogsOnly t) (i : Nat) : t.watch i = s.watch i := Eq.trans (congrArg (fun x => State.watch x i) h.eq) rfl
theorem State.LogsOnly.port (h : s.LogsOnly t) (i : Nat) : t.port i = s.port i := Eq.trans (congrArg (fun x => State.port x i) h.eq) rfl
theorem State.LogsOnly.chan (h : s.LogsOnly t) (i : Nat) : t.chan i = s.chan i := Eq.trans (congrArg (fun x => State.chan x i) h.eq) rfl
theorem State.LogsOnly.fly (h : s.LogsOnly t) (i : Nat) : t.fly i = s.fly i := Eq.trans (congrArg (fun x => State.fly x i) h.eq) rfl
theorem State.LogsOnly.engine (h : s.LogsOnly t) (i : Nat) : t.engine i = s.engine i := Eq.trans (congrArg (fun x => State.engine x i) h.eq) rfl
theorem State.LogsOnly.farPort (h : s.LogsOnly t) (i : Nat) : t.farPort i = s.farPort i := Eq.trans (congrArg (fun x => State.farPort x i) h.eq) rfl

/-- A fold of steps that each change only this changes only this. -/
theorem State.LogsOnly.foldl {α : Type} (l : List α) (f : State → α → State) (h : ∀ (s : State) a, s.LogsOnly (f s a)) (s : State) :
    s.LogsOnly (l.foldl f s) := by
  induction l generalizing s with
  | nil => rfl
  | cons a l ih => exact (h s a).trans (ih _)

/-! ### Rings -/

theorem State.ringWrite_rings (s : State) (loc : Bool) (a : Nat) (bs : List Byte) : s.RingsOnly (s.ringWrite loc a bs) := by
  unfold State.ringWrite; split <;> rfl

theorem State.produce_rings (s : State) (q : Nat) (bs : List Byte) : s.RingsOnly (s.produce q bs) := by
  unfold State.produce
  have h := s.ringWrite_rings
  dsimp only
  split
  · exact (h _ _ _).trans rfl
  · exact (h _ _ _).trans rfl

theorem State.post_rings (s : State) (q : Nat) (bs : List Byte) (src : Option Nat) : s.RingsOnly (s.post q bs src) := by
  unfold State.post
  dsimp only
  repeat' split
  · exact s.produce_rings q bs
  · rfl
  · rfl

/-! ### The error logger -/

theorem State.mirror_logs (s : State) (r : ErrRec) : s.LogsOnly (s.mirror r) :=
  State.LogsOnly.foldl _ _ (fun s x => by
    dsimp only
    repeat' split
    · rfl
    · exact (s.post_rings _ _ _).logs
    · rfl) s

theorem State.writeRing_logs (s : State) (r : ErrRec) : s.LogsOnly (s.writeRing r) :=
  State.LogsOnly.trans (t := { s with err := _ }) rfl (State.mirror_logs _ r)

theorem State.logNow_logs (s : State) (r : ErrRec) : s.LogsOnly (s.logNow r) := by
  unfold State.logNow
  repeat' split
  · exact (s.writeRing_logs r).trans rfl
  · rfl
  · rfl
  · rfl
  · rfl

theorem State.closeGroup_logs (s : State) (g : ErrGroup) (n : Word) : s.LogsOnly (s.closeGroup g n) := by
  unfold State.closeGroup
  dsimp only
  repeat' split
  · rfl
  · exact State.LogsOnly.trans (t := { s with err := _ }) rfl (State.mirror_logs _ _)
  · exact s.writeRing_logs _

theorem State.raise_logs (s : State) (r : ErrRec) : s.LogsOnly (s.raise r) := by
  unfold State.raise
  dsimp only
  repeat' split
  · exact State.logNow_logs _ _
  · rfl
  · exact State.LogsOnly.trans (State.closeGroup_logs _ _ _) (State.LogsOnly.trans (t := { State.closeGroup _ _ _ with err := _ }) rfl (State.logNow_logs _ _))
  · exact State.LogsOnly.trans (t := { s with err := _ }) rfl (State.logNow_logs _ _)

theorem State.log_logs (s : State) (kind index : Nat) (cls : BitVec 2) (k : Nat) (code : BitVec 16) (detail : List (Nat × Nat)) :
    s.LogsOnly (s.log kind index cls k code detail) := s.raise_logs _

/-! ### Every part that they leave alone -/

@[simp] theorem State.produce_pending (s : State) (q : Nat) (bs : List Byte) : (s.produce q bs).pending = s.pending := (s.produce_rings q bs).pending
@[simp] theorem State.produce_nowNs (s : State) (q : Nat) (bs : List Byte) : (s.produce q bs).nowNs = s.nowNs := (s.produce_rings q bs).nowNs
@[simp] theorem State.produce_free (s : State) (q : Nat) (bs : List Byte) : (s.produce q bs).free = s.free := (s.produce_rings q bs).free
@[simp] theorem State.produce_gradeA768 (s : State) (q : Nat) (bs : List Byte) : (s.produce q bs).gradeA768 = s.gradeA768 := (s.produce_rings q bs).gradeA768
@[simp] theorem State.produce_opticsF2 (s : State) (q : Nat) (bs : List Byte) : (s.produce q bs).opticsF2 = s.opticsF2 := (s.produce_rings q bs).opticsF2
@[simp] theorem State.produce_serial (s : State) (q : Nat) (bs : List Byte) : (s.produce q bs).serial = s.serial := (s.produce_rings q bs).serial
@[simp] theorem State.produce_grid (s : State) (q : Nat) (bs : List Byte) : (s.produce q bs).grid = s.grid := (s.produce_rings q bs).grid
@[simp] theorem State.produce_boot (s : State) (q : Nat) (bs : List Byte) : (s.produce q bs).boot = s.boot := (s.produce_rings q bs).boot
@[simp] theorem State.produce_island (s : State) (q : Nat) (bs : List Byte) : (s.produce q bs).island = s.island := (s.produce_rings q bs).island
@[simp] theorem State.produce_tor (s : State) (q : Nat) (bs : List Byte) : (s.produce q bs).tor = s.tor := (s.produce_rings q bs).tor
@[simp] theorem State.produce_cos (s : State) (q : Nat) (bs : List Byte) : (s.produce q bs).cos = s.cos := (s.produce_rings q bs).cos
@[simp] theorem State.produce_roles (s : State) (q : Nat) (bs : List Byte) : (s.produce q bs).roles = s.roles := (s.produce_rings q bs).roles
@[simp] theorem State.produce_cores (s : State) (q : Nat) (bs : List Byte) : (s.produce q bs).cores = s.cores := (s.produce_rings q bs).cores
@[simp] theorem State.produce_channels (s : State) (q : Nat) (bs : List Byte) : (s.produce q bs).channels = s.channels := (s.produce_rings q bs).channels
@[simp] theorem State.produce_flys (s : State) (q : Nat) (bs : List Byte) : (s.produce q bs).flys = s.flys := (s.produce_rings q bs).flys
@[simp] theorem State.produce_mesh (s : State) (q : Nat) (bs : List Byte) : (s.produce q bs).mesh = s.mesh := (s.produce_rings q bs).mesh
@[simp] theorem State.produce_engines (s : State) (q : Nat) (bs : List Byte) : (s.produce q bs).engines = s.engines := (s.produce_rings q bs).engines
@[simp] theorem State.produce_answers (s : State) (q : Nat) (bs : List Byte) : (s.produce q bs).answers = s.answers := (s.produce_rings q bs).answers
@[simp] theorem State.produce_wingsGot (s : State) (q : Nat) (bs : List Byte) : (s.produce q bs).wingsGot = s.wingsGot := (s.produce_rings q bs).wingsGot
@[simp] theorem State.produce_wingsOut (s : State) (q : Nat) (bs : List Byte) : (s.produce q bs).wingsOut = s.wingsOut := (s.produce_rings q bs).wingsOut
@[simp] theorem State.produce_pakLast (s : State) (q : Nat) (bs : List Byte) : (s.produce q bs).pakLast = s.pakLast := (s.produce_rings q bs).pakLast
@[simp] theorem State.produce_dmaTurn (s : State) (q : Nat) (bs : List Byte) : (s.produce q bs).dmaTurn = s.dmaTurn := (s.produce_rings q bs).dmaTurn
@[simp] theorem State.produce_incHost (s : State) (q : Nat) (bs : List Byte) : (s.produce q bs).incHost = s.incHost := (s.produce_rings q bs).incHost
@[simp] theorem State.produce_readSlots (s : State) (q : Nat) (bs : List Byte) : (s.produce q bs).readSlots = s.readSlots := (s.produce_rings q bs).readSlots
@[simp] theorem State.produce_frozenChans (s : State) (q : Nat) (bs : List Byte) : (s.produce q bs).frozenChans = s.frozenChans := (s.produce_rings q bs).frozenChans
@[simp] theorem State.produce_counters (s : State) (q : Nat) (bs : List Byte) : (s.produce q bs).counters = s.counters := (s.produce_rings q bs).counters
@[simp] theorem State.produce_watches (s : State) (q : Nat) (bs : List Byte) : (s.produce q bs).watches = s.watches := (s.produce_rings q bs).watches
@[simp] theorem State.produce_incStage (s : State) (q : Nat) (bs : List Byte) : (s.produce q bs).incStage = s.incStage := (s.produce_rings q bs).incStage
@[simp] theorem State.produce_incDma (s : State) (q : Nat) (bs : List Byte) : (s.produce q bs).incDma = s.incDma := (s.produce_rings q bs).incDma
@[simp] theorem State.produce_incWings (s : State) (q : Nat) (bs : List Byte) : (s.produce q bs).incWings = s.incWings := (s.produce_rings q bs).incWings
@[simp] theorem State.produce_cip (s : State) (q : Nat) (bs : List Byte) : (s.produce q bs).cip = s.cip := (s.produce_rings q bs).cip
@[simp] theorem State.produce_farPorts (s : State) (q : Nat) (bs : List Byte) : (s.produce q bs).farPorts = s.farPorts := (s.produce_rings q bs).farPorts
@[simp] theorem State.produce_restore (s : State) (q : Nat) (bs : List Byte) : (s.produce q bs).restore = s.restore := (s.produce_rings q bs).restore
@[simp] theorem State.produce_sm (s : State) (q : Nat) (bs : List Byte) : (s.produce q bs).sm = s.sm := (s.produce_rings q bs).sm
@[simp] theorem State.produce_err (s : State) (q : Nat) (bs : List Byte) : (s.produce q bs).err = s.err := (s.produce_rings q bs).err
@[simp] theorem State.produce_pwr (s : State) (q : Nat) (bs : List Byte) : (s.produce q bs).pwr = s.pwr := (s.produce_rings q bs).pwr
@[simp] theorem State.produce_rpr (s : State) (q : Nat) (bs : List Byte) : (s.produce q bs).rpr = s.rpr := (s.produce_rings q bs).rpr
@[simp] theorem State.produce_svc (s : State) (q : Nat) (bs : List Byte) : (s.produce q bs).svc = s.svc := (s.produce_rings q bs).svc
@[simp] theorem State.produce_co (s : State) (q : Nat) (bs : List Byte) (i : Nat) : (s.produce q bs).co i = s.co i := (s.produce_rings q bs).co i
@[simp] theorem State.produce_core (s : State) (q : Nat) (bs : List Byte) (i : Nat) : (s.produce q bs).core i = s.core i := (s.produce_rings q bs).core i
@[simp] theorem State.produce_ctr (s : State) (q : Nat) (bs : List Byte) (i : Nat) : (s.produce q bs).ctr i = s.ctr i := (s.produce_rings q bs).ctr i
@[simp] theorem State.produce_watch (s : State) (q : Nat) (bs : List Byte) (i : Nat) : (s.produce q bs).watch i = s.watch i := (s.produce_rings q bs).watch i
@[simp] theorem State.produce_port (s : State) (q : Nat) (bs : List Byte) (i : Nat) : (s.produce q bs).port i = s.port i := (s.produce_rings q bs).port i
@[simp] theorem State.produce_chan (s : State) (q : Nat) (bs : List Byte) (i : Nat) : (s.produce q bs).chan i = s.chan i := (s.produce_rings q bs).chan i
@[simp] theorem State.produce_fly (s : State) (q : Nat) (bs : List Byte) (i : Nat) : (s.produce q bs).fly i = s.fly i := (s.produce_rings q bs).fly i
@[simp] theorem State.produce_engine (s : State) (q : Nat) (bs : List Byte) (i : Nat) : (s.produce q bs).engine i = s.engine i := (s.produce_rings q bs).engine i
@[simp] theorem State.produce_farPort (s : State) (q : Nat) (bs : List Byte) (i : Nat) : (s.produce q bs).farPort i = s.farPort i := (s.produce_rings q bs).farPort i

@[simp] theorem State.post_pending (s : State) (q : Nat) (bs : List Byte) (src : Option Nat) : (s.post q bs src).pending = s.pending := (s.post_rings q bs src).pending
@[simp] theorem State.post_nowNs (s : State) (q : Nat) (bs : List Byte) (src : Option Nat) : (s.post q bs src).nowNs = s.nowNs := (s.post_rings q bs src).nowNs
@[simp] theorem State.post_free (s : State) (q : Nat) (bs : List Byte) (src : Option Nat) : (s.post q bs src).free = s.free := (s.post_rings q bs src).free
@[simp] theorem State.post_gradeA768 (s : State) (q : Nat) (bs : List Byte) (src : Option Nat) : (s.post q bs src).gradeA768 = s.gradeA768 := (s.post_rings q bs src).gradeA768
@[simp] theorem State.post_opticsF2 (s : State) (q : Nat) (bs : List Byte) (src : Option Nat) : (s.post q bs src).opticsF2 = s.opticsF2 := (s.post_rings q bs src).opticsF2
@[simp] theorem State.post_serial (s : State) (q : Nat) (bs : List Byte) (src : Option Nat) : (s.post q bs src).serial = s.serial := (s.post_rings q bs src).serial
@[simp] theorem State.post_grid (s : State) (q : Nat) (bs : List Byte) (src : Option Nat) : (s.post q bs src).grid = s.grid := (s.post_rings q bs src).grid
@[simp] theorem State.post_boot (s : State) (q : Nat) (bs : List Byte) (src : Option Nat) : (s.post q bs src).boot = s.boot := (s.post_rings q bs src).boot
@[simp] theorem State.post_island (s : State) (q : Nat) (bs : List Byte) (src : Option Nat) : (s.post q bs src).island = s.island := (s.post_rings q bs src).island
@[simp] theorem State.post_tor (s : State) (q : Nat) (bs : List Byte) (src : Option Nat) : (s.post q bs src).tor = s.tor := (s.post_rings q bs src).tor
@[simp] theorem State.post_cos (s : State) (q : Nat) (bs : List Byte) (src : Option Nat) : (s.post q bs src).cos = s.cos := (s.post_rings q bs src).cos
@[simp] theorem State.post_roles (s : State) (q : Nat) (bs : List Byte) (src : Option Nat) : (s.post q bs src).roles = s.roles := (s.post_rings q bs src).roles
@[simp] theorem State.post_cores (s : State) (q : Nat) (bs : List Byte) (src : Option Nat) : (s.post q bs src).cores = s.cores := (s.post_rings q bs src).cores
@[simp] theorem State.post_channels (s : State) (q : Nat) (bs : List Byte) (src : Option Nat) : (s.post q bs src).channels = s.channels := (s.post_rings q bs src).channels
@[simp] theorem State.post_flys (s : State) (q : Nat) (bs : List Byte) (src : Option Nat) : (s.post q bs src).flys = s.flys := (s.post_rings q bs src).flys
@[simp] theorem State.post_mesh (s : State) (q : Nat) (bs : List Byte) (src : Option Nat) : (s.post q bs src).mesh = s.mesh := (s.post_rings q bs src).mesh
@[simp] theorem State.post_engines (s : State) (q : Nat) (bs : List Byte) (src : Option Nat) : (s.post q bs src).engines = s.engines := (s.post_rings q bs src).engines
@[simp] theorem State.post_answers (s : State) (q : Nat) (bs : List Byte) (src : Option Nat) : (s.post q bs src).answers = s.answers := (s.post_rings q bs src).answers
@[simp] theorem State.post_wingsGot (s : State) (q : Nat) (bs : List Byte) (src : Option Nat) : (s.post q bs src).wingsGot = s.wingsGot := (s.post_rings q bs src).wingsGot
@[simp] theorem State.post_wingsOut (s : State) (q : Nat) (bs : List Byte) (src : Option Nat) : (s.post q bs src).wingsOut = s.wingsOut := (s.post_rings q bs src).wingsOut
@[simp] theorem State.post_pakLast (s : State) (q : Nat) (bs : List Byte) (src : Option Nat) : (s.post q bs src).pakLast = s.pakLast := (s.post_rings q bs src).pakLast
@[simp] theorem State.post_dmaTurn (s : State) (q : Nat) (bs : List Byte) (src : Option Nat) : (s.post q bs src).dmaTurn = s.dmaTurn := (s.post_rings q bs src).dmaTurn
@[simp] theorem State.post_incHost (s : State) (q : Nat) (bs : List Byte) (src : Option Nat) : (s.post q bs src).incHost = s.incHost := (s.post_rings q bs src).incHost
@[simp] theorem State.post_readSlots (s : State) (q : Nat) (bs : List Byte) (src : Option Nat) : (s.post q bs src).readSlots = s.readSlots := (s.post_rings q bs src).readSlots
@[simp] theorem State.post_frozenChans (s : State) (q : Nat) (bs : List Byte) (src : Option Nat) : (s.post q bs src).frozenChans = s.frozenChans := (s.post_rings q bs src).frozenChans
@[simp] theorem State.post_counters (s : State) (q : Nat) (bs : List Byte) (src : Option Nat) : (s.post q bs src).counters = s.counters := (s.post_rings q bs src).counters
@[simp] theorem State.post_watches (s : State) (q : Nat) (bs : List Byte) (src : Option Nat) : (s.post q bs src).watches = s.watches := (s.post_rings q bs src).watches
@[simp] theorem State.post_incStage (s : State) (q : Nat) (bs : List Byte) (src : Option Nat) : (s.post q bs src).incStage = s.incStage := (s.post_rings q bs src).incStage
@[simp] theorem State.post_incDma (s : State) (q : Nat) (bs : List Byte) (src : Option Nat) : (s.post q bs src).incDma = s.incDma := (s.post_rings q bs src).incDma
@[simp] theorem State.post_incWings (s : State) (q : Nat) (bs : List Byte) (src : Option Nat) : (s.post q bs src).incWings = s.incWings := (s.post_rings q bs src).incWings
@[simp] theorem State.post_cip (s : State) (q : Nat) (bs : List Byte) (src : Option Nat) : (s.post q bs src).cip = s.cip := (s.post_rings q bs src).cip
@[simp] theorem State.post_farPorts (s : State) (q : Nat) (bs : List Byte) (src : Option Nat) : (s.post q bs src).farPorts = s.farPorts := (s.post_rings q bs src).farPorts
@[simp] theorem State.post_restore (s : State) (q : Nat) (bs : List Byte) (src : Option Nat) : (s.post q bs src).restore = s.restore := (s.post_rings q bs src).restore
@[simp] theorem State.post_sm (s : State) (q : Nat) (bs : List Byte) (src : Option Nat) : (s.post q bs src).sm = s.sm := (s.post_rings q bs src).sm
@[simp] theorem State.post_err (s : State) (q : Nat) (bs : List Byte) (src : Option Nat) : (s.post q bs src).err = s.err := (s.post_rings q bs src).err
@[simp] theorem State.post_pwr (s : State) (q : Nat) (bs : List Byte) (src : Option Nat) : (s.post q bs src).pwr = s.pwr := (s.post_rings q bs src).pwr
@[simp] theorem State.post_rpr (s : State) (q : Nat) (bs : List Byte) (src : Option Nat) : (s.post q bs src).rpr = s.rpr := (s.post_rings q bs src).rpr
@[simp] theorem State.post_svc (s : State) (q : Nat) (bs : List Byte) (src : Option Nat) : (s.post q bs src).svc = s.svc := (s.post_rings q bs src).svc
@[simp] theorem State.post_co (s : State) (q : Nat) (bs : List Byte) (src : Option Nat) (i : Nat) : (s.post q bs src).co i = s.co i := (s.post_rings q bs src).co i
@[simp] theorem State.post_core (s : State) (q : Nat) (bs : List Byte) (src : Option Nat) (i : Nat) : (s.post q bs src).core i = s.core i := (s.post_rings q bs src).core i
@[simp] theorem State.post_ctr (s : State) (q : Nat) (bs : List Byte) (src : Option Nat) (i : Nat) : (s.post q bs src).ctr i = s.ctr i := (s.post_rings q bs src).ctr i
@[simp] theorem State.post_watch (s : State) (q : Nat) (bs : List Byte) (src : Option Nat) (i : Nat) : (s.post q bs src).watch i = s.watch i := (s.post_rings q bs src).watch i
@[simp] theorem State.post_port (s : State) (q : Nat) (bs : List Byte) (src : Option Nat) (i : Nat) : (s.post q bs src).port i = s.port i := (s.post_rings q bs src).port i
@[simp] theorem State.post_chan (s : State) (q : Nat) (bs : List Byte) (src : Option Nat) (i : Nat) : (s.post q bs src).chan i = s.chan i := (s.post_rings q bs src).chan i
@[simp] theorem State.post_fly (s : State) (q : Nat) (bs : List Byte) (src : Option Nat) (i : Nat) : (s.post q bs src).fly i = s.fly i := (s.post_rings q bs src).fly i
@[simp] theorem State.post_engine (s : State) (q : Nat) (bs : List Byte) (src : Option Nat) (i : Nat) : (s.post q bs src).engine i = s.engine i := (s.post_rings q bs src).engine i
@[simp] theorem State.post_farPort (s : State) (q : Nat) (bs : List Byte) (src : Option Nat) (i : Nat) : (s.post q bs src).farPort i = s.farPort i := (s.post_rings q bs src).farPort i


@[simp] theorem State.raise_pending (s : State) (r : ErrRec) : (s.raise r).pending = s.pending := (s.raise_logs r).pending
@[simp] theorem State.raise_nowNs (s : State) (r : ErrRec) : (s.raise r).nowNs = s.nowNs := (s.raise_logs r).nowNs
@[simp] theorem State.raise_free (s : State) (r : ErrRec) : (s.raise r).free = s.free := (s.raise_logs r).free
@[simp] theorem State.raise_gradeA768 (s : State) (r : ErrRec) : (s.raise r).gradeA768 = s.gradeA768 := (s.raise_logs r).gradeA768
@[simp] theorem State.raise_opticsF2 (s : State) (r : ErrRec) : (s.raise r).opticsF2 = s.opticsF2 := (s.raise_logs r).opticsF2
@[simp] theorem State.raise_serial (s : State) (r : ErrRec) : (s.raise r).serial = s.serial := (s.raise_logs r).serial
@[simp] theorem State.raise_grid (s : State) (r : ErrRec) : (s.raise r).grid = s.grid := (s.raise_logs r).grid
@[simp] theorem State.raise_boot (s : State) (r : ErrRec) : (s.raise r).boot = s.boot := (s.raise_logs r).boot
@[simp] theorem State.raise_island (s : State) (r : ErrRec) : (s.raise r).island = s.island := (s.raise_logs r).island
@[simp] theorem State.raise_tor (s : State) (r : ErrRec) : (s.raise r).tor = s.tor := (s.raise_logs r).tor
@[simp] theorem State.raise_cos (s : State) (r : ErrRec) : (s.raise r).cos = s.cos := (s.raise_logs r).cos
@[simp] theorem State.raise_roles (s : State) (r : ErrRec) : (s.raise r).roles = s.roles := (s.raise_logs r).roles
@[simp] theorem State.raise_cores (s : State) (r : ErrRec) : (s.raise r).cores = s.cores := (s.raise_logs r).cores
@[simp] theorem State.raise_channels (s : State) (r : ErrRec) : (s.raise r).channels = s.channels := (s.raise_logs r).channels
@[simp] theorem State.raise_flys (s : State) (r : ErrRec) : (s.raise r).flys = s.flys := (s.raise_logs r).flys
@[simp] theorem State.raise_mesh (s : State) (r : ErrRec) : (s.raise r).mesh = s.mesh := (s.raise_logs r).mesh
@[simp] theorem State.raise_engines (s : State) (r : ErrRec) : (s.raise r).engines = s.engines := (s.raise_logs r).engines
@[simp] theorem State.raise_answers (s : State) (r : ErrRec) : (s.raise r).answers = s.answers := (s.raise_logs r).answers
@[simp] theorem State.raise_wingsGot (s : State) (r : ErrRec) : (s.raise r).wingsGot = s.wingsGot := (s.raise_logs r).wingsGot
@[simp] theorem State.raise_wingsOut (s : State) (r : ErrRec) : (s.raise r).wingsOut = s.wingsOut := (s.raise_logs r).wingsOut
@[simp] theorem State.raise_pakLast (s : State) (r : ErrRec) : (s.raise r).pakLast = s.pakLast := (s.raise_logs r).pakLast
@[simp] theorem State.raise_dmaTurn (s : State) (r : ErrRec) : (s.raise r).dmaTurn = s.dmaTurn := (s.raise_logs r).dmaTurn
@[simp] theorem State.raise_incHost (s : State) (r : ErrRec) : (s.raise r).incHost = s.incHost := (s.raise_logs r).incHost
@[simp] theorem State.raise_readSlots (s : State) (r : ErrRec) : (s.raise r).readSlots = s.readSlots := (s.raise_logs r).readSlots
@[simp] theorem State.raise_frozenChans (s : State) (r : ErrRec) : (s.raise r).frozenChans = s.frozenChans := (s.raise_logs r).frozenChans
@[simp] theorem State.raise_counters (s : State) (r : ErrRec) : (s.raise r).counters = s.counters := (s.raise_logs r).counters
@[simp] theorem State.raise_watches (s : State) (r : ErrRec) : (s.raise r).watches = s.watches := (s.raise_logs r).watches
@[simp] theorem State.raise_incStage (s : State) (r : ErrRec) : (s.raise r).incStage = s.incStage := (s.raise_logs r).incStage
@[simp] theorem State.raise_incDma (s : State) (r : ErrRec) : (s.raise r).incDma = s.incDma := (s.raise_logs r).incDma
@[simp] theorem State.raise_incWings (s : State) (r : ErrRec) : (s.raise r).incWings = s.incWings := (s.raise_logs r).incWings
@[simp] theorem State.raise_cip (s : State) (r : ErrRec) : (s.raise r).cip = s.cip := (s.raise_logs r).cip
@[simp] theorem State.raise_farPorts (s : State) (r : ErrRec) : (s.raise r).farPorts = s.farPorts := (s.raise_logs r).farPorts
@[simp] theorem State.raise_restore (s : State) (r : ErrRec) : (s.raise r).restore = s.restore := (s.raise_logs r).restore
@[simp] theorem State.raise_sm (s : State) (r : ErrRec) : (s.raise r).sm = s.sm := (s.raise_logs r).sm
@[simp] theorem State.raise_pwr (s : State) (r : ErrRec) : (s.raise r).pwr = s.pwr := (s.raise_logs r).pwr
@[simp] theorem State.raise_rpr (s : State) (r : ErrRec) : (s.raise r).rpr = s.rpr := (s.raise_logs r).rpr
@[simp] theorem State.raise_co (s : State) (r : ErrRec) (i : Nat) : (s.raise r).co i = s.co i := (s.raise_logs r).co i
@[simp] theorem State.raise_core (s : State) (r : ErrRec) (i : Nat) : (s.raise r).core i = s.core i := (s.raise_logs r).core i
@[simp] theorem State.raise_ctr (s : State) (r : ErrRec) (i : Nat) : (s.raise r).ctr i = s.ctr i := (s.raise_logs r).ctr i
@[simp] theorem State.raise_watch (s : State) (r : ErrRec) (i : Nat) : (s.raise r).watch i = s.watch i := (s.raise_logs r).watch i
@[simp] theorem State.raise_port (s : State) (r : ErrRec) (i : Nat) : (s.raise r).port i = s.port i := (s.raise_logs r).port i
@[simp] theorem State.raise_chan (s : State) (r : ErrRec) (i : Nat) : (s.raise r).chan i = s.chan i := (s.raise_logs r).chan i
@[simp] theorem State.raise_fly (s : State) (r : ErrRec) (i : Nat) : (s.raise r).fly i = s.fly i := (s.raise_logs r).fly i
@[simp] theorem State.raise_engine (s : State) (r : ErrRec) (i : Nat) : (s.raise r).engine i = s.engine i := (s.raise_logs r).engine i
@[simp] theorem State.raise_farPort (s : State) (r : ErrRec) (i : Nat) : (s.raise r).farPort i = s.farPort i := (s.raise_logs r).farPort i

@[simp] theorem State.log_pending (s : State) (kind index : Nat) (cls : BitVec 2) (k : Nat) (code : BitVec 16) (d : List (Nat × Nat)) : (s.log kind index cls k code d).pending = s.pending := (s.log_logs kind index cls k code d).pending
@[simp] theorem State.log_nowNs (s : State) (kind index : Nat) (cls : BitVec 2) (k : Nat) (code : BitVec 16) (d : List (Nat × Nat)) : (s.log kind index cls k code d).nowNs = s.nowNs := (s.log_logs kind index cls k code d).nowNs
@[simp] theorem State.log_free (s : State) (kind index : Nat) (cls : BitVec 2) (k : Nat) (code : BitVec 16) (d : List (Nat × Nat)) : (s.log kind index cls k code d).free = s.free := (s.log_logs kind index cls k code d).free
@[simp] theorem State.log_gradeA768 (s : State) (kind index : Nat) (cls : BitVec 2) (k : Nat) (code : BitVec 16) (d : List (Nat × Nat)) : (s.log kind index cls k code d).gradeA768 = s.gradeA768 := (s.log_logs kind index cls k code d).gradeA768
@[simp] theorem State.log_opticsF2 (s : State) (kind index : Nat) (cls : BitVec 2) (k : Nat) (code : BitVec 16) (d : List (Nat × Nat)) : (s.log kind index cls k code d).opticsF2 = s.opticsF2 := (s.log_logs kind index cls k code d).opticsF2
@[simp] theorem State.log_serial (s : State) (kind index : Nat) (cls : BitVec 2) (k : Nat) (code : BitVec 16) (d : List (Nat × Nat)) : (s.log kind index cls k code d).serial = s.serial := (s.log_logs kind index cls k code d).serial
@[simp] theorem State.log_grid (s : State) (kind index : Nat) (cls : BitVec 2) (k : Nat) (code : BitVec 16) (d : List (Nat × Nat)) : (s.log kind index cls k code d).grid = s.grid := (s.log_logs kind index cls k code d).grid
@[simp] theorem State.log_boot (s : State) (kind index : Nat) (cls : BitVec 2) (k : Nat) (code : BitVec 16) (d : List (Nat × Nat)) : (s.log kind index cls k code d).boot = s.boot := (s.log_logs kind index cls k code d).boot
@[simp] theorem State.log_island (s : State) (kind index : Nat) (cls : BitVec 2) (k : Nat) (code : BitVec 16) (d : List (Nat × Nat)) : (s.log kind index cls k code d).island = s.island := (s.log_logs kind index cls k code d).island
@[simp] theorem State.log_tor (s : State) (kind index : Nat) (cls : BitVec 2) (k : Nat) (code : BitVec 16) (d : List (Nat × Nat)) : (s.log kind index cls k code d).tor = s.tor := (s.log_logs kind index cls k code d).tor
@[simp] theorem State.log_cos (s : State) (kind index : Nat) (cls : BitVec 2) (k : Nat) (code : BitVec 16) (d : List (Nat × Nat)) : (s.log kind index cls k code d).cos = s.cos := (s.log_logs kind index cls k code d).cos
@[simp] theorem State.log_roles (s : State) (kind index : Nat) (cls : BitVec 2) (k : Nat) (code : BitVec 16) (d : List (Nat × Nat)) : (s.log kind index cls k code d).roles = s.roles := (s.log_logs kind index cls k code d).roles
@[simp] theorem State.log_cores (s : State) (kind index : Nat) (cls : BitVec 2) (k : Nat) (code : BitVec 16) (d : List (Nat × Nat)) : (s.log kind index cls k code d).cores = s.cores := (s.log_logs kind index cls k code d).cores
@[simp] theorem State.log_channels (s : State) (kind index : Nat) (cls : BitVec 2) (k : Nat) (code : BitVec 16) (d : List (Nat × Nat)) : (s.log kind index cls k code d).channels = s.channels := (s.log_logs kind index cls k code d).channels
@[simp] theorem State.log_flys (s : State) (kind index : Nat) (cls : BitVec 2) (k : Nat) (code : BitVec 16) (d : List (Nat × Nat)) : (s.log kind index cls k code d).flys = s.flys := (s.log_logs kind index cls k code d).flys
@[simp] theorem State.log_mesh (s : State) (kind index : Nat) (cls : BitVec 2) (k : Nat) (code : BitVec 16) (d : List (Nat × Nat)) : (s.log kind index cls k code d).mesh = s.mesh := (s.log_logs kind index cls k code d).mesh
@[simp] theorem State.log_engines (s : State) (kind index : Nat) (cls : BitVec 2) (k : Nat) (code : BitVec 16) (d : List (Nat × Nat)) : (s.log kind index cls k code d).engines = s.engines := (s.log_logs kind index cls k code d).engines
@[simp] theorem State.log_answers (s : State) (kind index : Nat) (cls : BitVec 2) (k : Nat) (code : BitVec 16) (d : List (Nat × Nat)) : (s.log kind index cls k code d).answers = s.answers := (s.log_logs kind index cls k code d).answers
@[simp] theorem State.log_wingsGot (s : State) (kind index : Nat) (cls : BitVec 2) (k : Nat) (code : BitVec 16) (d : List (Nat × Nat)) : (s.log kind index cls k code d).wingsGot = s.wingsGot := (s.log_logs kind index cls k code d).wingsGot
@[simp] theorem State.log_wingsOut (s : State) (kind index : Nat) (cls : BitVec 2) (k : Nat) (code : BitVec 16) (d : List (Nat × Nat)) : (s.log kind index cls k code d).wingsOut = s.wingsOut := (s.log_logs kind index cls k code d).wingsOut
@[simp] theorem State.log_pakLast (s : State) (kind index : Nat) (cls : BitVec 2) (k : Nat) (code : BitVec 16) (d : List (Nat × Nat)) : (s.log kind index cls k code d).pakLast = s.pakLast := (s.log_logs kind index cls k code d).pakLast
@[simp] theorem State.log_dmaTurn (s : State) (kind index : Nat) (cls : BitVec 2) (k : Nat) (code : BitVec 16) (d : List (Nat × Nat)) : (s.log kind index cls k code d).dmaTurn = s.dmaTurn := (s.log_logs kind index cls k code d).dmaTurn
@[simp] theorem State.log_incHost (s : State) (kind index : Nat) (cls : BitVec 2) (k : Nat) (code : BitVec 16) (d : List (Nat × Nat)) : (s.log kind index cls k code d).incHost = s.incHost := (s.log_logs kind index cls k code d).incHost
@[simp] theorem State.log_readSlots (s : State) (kind index : Nat) (cls : BitVec 2) (k : Nat) (code : BitVec 16) (d : List (Nat × Nat)) : (s.log kind index cls k code d).readSlots = s.readSlots := (s.log_logs kind index cls k code d).readSlots
@[simp] theorem State.log_frozenChans (s : State) (kind index : Nat) (cls : BitVec 2) (k : Nat) (code : BitVec 16) (d : List (Nat × Nat)) : (s.log kind index cls k code d).frozenChans = s.frozenChans := (s.log_logs kind index cls k code d).frozenChans
@[simp] theorem State.log_counters (s : State) (kind index : Nat) (cls : BitVec 2) (k : Nat) (code : BitVec 16) (d : List (Nat × Nat)) : (s.log kind index cls k code d).counters = s.counters := (s.log_logs kind index cls k code d).counters
@[simp] theorem State.log_watches (s : State) (kind index : Nat) (cls : BitVec 2) (k : Nat) (code : BitVec 16) (d : List (Nat × Nat)) : (s.log kind index cls k code d).watches = s.watches := (s.log_logs kind index cls k code d).watches
@[simp] theorem State.log_incStage (s : State) (kind index : Nat) (cls : BitVec 2) (k : Nat) (code : BitVec 16) (d : List (Nat × Nat)) : (s.log kind index cls k code d).incStage = s.incStage := (s.log_logs kind index cls k code d).incStage
@[simp] theorem State.log_incDma (s : State) (kind index : Nat) (cls : BitVec 2) (k : Nat) (code : BitVec 16) (d : List (Nat × Nat)) : (s.log kind index cls k code d).incDma = s.incDma := (s.log_logs kind index cls k code d).incDma
@[simp] theorem State.log_incWings (s : State) (kind index : Nat) (cls : BitVec 2) (k : Nat) (code : BitVec 16) (d : List (Nat × Nat)) : (s.log kind index cls k code d).incWings = s.incWings := (s.log_logs kind index cls k code d).incWings
@[simp] theorem State.log_cip (s : State) (kind index : Nat) (cls : BitVec 2) (k : Nat) (code : BitVec 16) (d : List (Nat × Nat)) : (s.log kind index cls k code d).cip = s.cip := (s.log_logs kind index cls k code d).cip
@[simp] theorem State.log_farPorts (s : State) (kind index : Nat) (cls : BitVec 2) (k : Nat) (code : BitVec 16) (d : List (Nat × Nat)) : (s.log kind index cls k code d).farPorts = s.farPorts := (s.log_logs kind index cls k code d).farPorts
@[simp] theorem State.log_restore (s : State) (kind index : Nat) (cls : BitVec 2) (k : Nat) (code : BitVec 16) (d : List (Nat × Nat)) : (s.log kind index cls k code d).restore = s.restore := (s.log_logs kind index cls k code d).restore
@[simp] theorem State.log_sm (s : State) (kind index : Nat) (cls : BitVec 2) (k : Nat) (code : BitVec 16) (d : List (Nat × Nat)) : (s.log kind index cls k code d).sm = s.sm := (s.log_logs kind index cls k code d).sm
@[simp] theorem State.log_pwr (s : State) (kind index : Nat) (cls : BitVec 2) (k : Nat) (code : BitVec 16) (d : List (Nat × Nat)) : (s.log kind index cls k code d).pwr = s.pwr := (s.log_logs kind index cls k code d).pwr
@[simp] theorem State.log_rpr (s : State) (kind index : Nat) (cls : BitVec 2) (k : Nat) (code : BitVec 16) (d : List (Nat × Nat)) : (s.log kind index cls k code d).rpr = s.rpr := (s.log_logs kind index cls k code d).rpr
@[simp] theorem State.log_co (s : State) (kind index : Nat) (cls : BitVec 2) (k : Nat) (code : BitVec 16) (d : List (Nat × Nat)) (i : Nat) : (s.log kind index cls k code d).co i = s.co i := (s.log_logs kind index cls k code d).co i
@[simp] theorem State.log_core (s : State) (kind index : Nat) (cls : BitVec 2) (k : Nat) (code : BitVec 16) (d : List (Nat × Nat)) (i : Nat) : (s.log kind index cls k code d).core i = s.core i := (s.log_logs kind index cls k code d).core i
@[simp] theorem State.log_ctr (s : State) (kind index : Nat) (cls : BitVec 2) (k : Nat) (code : BitVec 16) (d : List (Nat × Nat)) (i : Nat) : (s.log kind index cls k code d).ctr i = s.ctr i := (s.log_logs kind index cls k code d).ctr i
@[simp] theorem State.log_watch (s : State) (kind index : Nat) (cls : BitVec 2) (k : Nat) (code : BitVec 16) (d : List (Nat × Nat)) (i : Nat) : (s.log kind index cls k code d).watch i = s.watch i := (s.log_logs kind index cls k code d).watch i
@[simp] theorem State.log_port (s : State) (kind index : Nat) (cls : BitVec 2) (k : Nat) (code : BitVec 16) (d : List (Nat × Nat)) (i : Nat) : (s.log kind index cls k code d).port i = s.port i := (s.log_logs kind index cls k code d).port i
@[simp] theorem State.log_chan (s : State) (kind index : Nat) (cls : BitVec 2) (k : Nat) (code : BitVec 16) (d : List (Nat × Nat)) (i : Nat) : (s.log kind index cls k code d).chan i = s.chan i := (s.log_logs kind index cls k code d).chan i
@[simp] theorem State.log_fly (s : State) (kind index : Nat) (cls : BitVec 2) (k : Nat) (code : BitVec 16) (d : List (Nat × Nat)) (i : Nat) : (s.log kind index cls k code d).fly i = s.fly i := (s.log_logs kind index cls k code d).fly i
@[simp] theorem State.log_engine (s : State) (kind index : Nat) (cls : BitVec 2) (k : Nat) (code : BitVec 16) (d : List (Nat × Nat)) (i : Nat) : (s.log kind index cls k code d).engine i = s.engine i := (s.log_logs kind index cls k code d).engine i
@[simp] theorem State.log_farPort (s : State) (kind index : Nat) (cls : BitVec 2) (k : Nat) (code : BitVec 16) (d : List (Nat × Nat)) (i : Nat) : (s.log kind index cls k code d).farPort i = s.farPort i := (s.log_logs kind index cls k code d).farPort i

/-! ### DRAM -/

/-- An entry is written at once into host memory only, so that DRAM keeps its bytes (R378, R379). -/
@[simp] theorem State.post_dram (s : State) (q : Nat) (bs : List Byte) (src : Option Nat) : (s.post q bs src).dram = s.dram := by
  unfold State.post; dsimp only
  split
  · split
    · rename_i h
      have hl : (s.queue q).loc = false := by
        unfold Queue.takes at h; revert h; cases (s.queue q).loc <;> simp
      unfold State.produce; dsimp only; rw [hl]; unfold State.ringWrite; simp only [Bool.false_eq_true, if_false]
      split <;> rfl
    · rfl
  · rfl

theorem State.mirror_dram (s : State) (r : ErrRec) : (s.mirror r).dram = s.dram := by
  unfold State.mirror
  suffices h : ∀ (l : List (Nat × Queue)) (t : State), (l.foldl (fun s x =>
    if x.2.enable ∧ x.2.typ = 5 ∧ (s.queueCo x.1 = 0 ∨ s.queueCo x.1 = r.company) then
      if (s.queue x.1).depth ≤ (s.queue x.1).count + (s.queue x.1).waiting.length then
        { s with err := { s.err with mirrorDrops := s.err.mirrorDrops + 1 } }
      else s.post x.1 (errBytes r) none
    else s) t).dram = t.dram by exact h s.queues s
  intro l
  induction l with
  | nil => intro t; rfl
  | cons x l ih => intro t; rw [List.foldl_cons, ih]; split <;> (try split) <;> simp

@[simp] theorem State.raise_dram (s : State) (r : ErrRec) : (s.raise r).dram = s.dram := by
  have hw : ∀ (t : State) r, (t.writeRing r).dram = t.dram := fun t r => State.mirror_dram _ r
  have hn : ∀ (t : State) r, (t.logNow r).dram = t.dram := by
    intro t r; unfold State.logNow; split
    · exact hw t r
    · split
      · rfl
      · split <;> rfl
  have hc : ∀ (t : State) g n, (t.closeGroup g n).dram = t.dram := by
    intro t g n; unfold State.closeGroup; split
    · rfl
    · dsimp only; split
      · exact State.mirror_dram _ _
      · exact hw _ _
  unfold State.raise; dsimp only
  split
  · exact hn _ _
  · split
    · split
      · rfl
      · rw [hn]; exact hc _ _ _
    · exact hn _ _

@[simp] theorem State.log_dram (s : State) (kind index : Nat) (cls : BitVec 2) (k : Nat) (code : BitVec 16) (d : List (Nat × Nat)) :
    (s.log kind index cls k code d).dram = s.dram := s.raise_dram _

end Sys2Proof.Machine
end

