-- ==== Sys2Proof/Laws/Serve.lean ====
section
/-!
SUPPORT. What the service of a host command does (R383 to R388, R406, R413, R418): one lemma for each way it can end.
-/

namespace Sys2Proof.Machine

/-- A change of the journal leaves every other part alone. -/
@[simp] theorem State.modEntry_co (s : State) (j : Journal) (f : Journal → Journal) (k : Nat) : (s.modEntry j f).co k = s.co k := rfl
@[simp] theorem State.modEntry_queue (s : State) (j : Journal) (f : Journal → Journal) (q : Nat) : (s.modEntry j f).queue q = s.queue q := rfl
@[simp] theorem State.modEntry_queueCo (s : State) (j : Journal) (f : Journal → Journal) (q : Nat) : (s.modEntry j f).queueCo q = s.queueCo q := rfl
@[simp] theorem State.modEntry_pending (s : State) (j : Journal) (f : Journal → Journal) : (s.modEntry j f).pending = s.pending := rfl
@[simp] theorem State.begin_co (s : State) (j : Journal) (k : Nat) : (s.begin_ j).co k = s.co k := rfl
@[simp] theorem State.begin_queue (s : State) (j : Journal) (q : Nat) : (s.begin_ j).queue q = s.queue q := rfl
@[simp] theorem State.begin_queueCo (s : State) (j : Journal) (q : Nat) : (s.begin_ j).queueCo q = s.queueCo q := rfl
@[simp] theorem State.begin_pending (s : State) (j : Journal) : (s.begin_ j).pending = s.pending := rfl

/-- The entry whose turn it is is the command's own. -/
theorem State.turnOf_pkt {s : State} {h : Pkt} {op : BitVec 16} {fields : List (Nat × Nat)} {j : Journal}
    (ht : s.turnOf h op fields = some j) : j.pkt = h ∧ j.opcode = op := by
  unfold State.turnOf at ht
  split at ht
  · have := (Option.filter_eq_some_iff.mp ht).2
    simp only [Bool.and_eq_true, decide_eq_true_eq] at this
    exact ⟨this.1.1, this.1.2⟩
  · cases ht

/-- A command whose turn has not come is fetched and no more. -/
theorem State.serve_not_turn {s : State} {h : Pkt} {op : BitVec 16} {fields : List (Nat × Nat)}
    (ht : (s.fetch h.queue).turnOf h op fields = none) (house : Bool) (st : Staging) (body : State → Nat → Answer) :
    s.serve h op fields house st body = s.fetch h.queue := by
  simp [State.serve, ht]

/-- What a served command ends in, given its body's answer: a journal entry that waits, or its reply; its queue goes on. -/
def State.finish (j : Journal) (a : Answer) : State :=
  (if a.waits then a.state.modEntry j (fun y => { y with state := a.journal, status := a.status, detail := a.detail, result := a.result })
    else a.state.reply j a.status a.detail a.retry (a.txn.getD j.txn) a.result).fetch j.pkt.queue

/-- What holds when a command is served in full. -/
theorem State.serving_spec {s c : State} {h : Pkt} {op : BitVec 16} {fields : List (Nat × Nat)} {house : Bool} {st : Staging} {j : Journal}
    (hs : s.servingAs h op fields house st = some (j, c)) :
    (s.fetch h.queue).turnOf h op fields = some j ∧ c = (s.fetch h.queue).begin_ j ∧ c.precheck j (fieldBits fields) house st = none ∧ j.pkt = h := by
  simp only [State.servingAs, Option.bind_eq_some_iff] at hs
  obtain ⟨i, ht, hi⟩ := hs
  split at hi
  · rename_i hc
    cases hi
    exact ⟨ht, rfl, hc, (State.turnOf_pkt ht).1⟩
  · cases hi

/-- A command that is served in full runs its body with its entry in the journal. -/
theorem State.serve_full {s c : State} {h : Pkt} {op : BitVec 16} {fields : List (Nat × Nat)} {house : Bool} {st : Staging} {j : Journal}
    (hs : s.servingAs h op fields house st = some (j, c)) (body : State → Nat → Answer) :
    s.serve h op fields house st body = State.finish j (body c (c.queueCo h.queue)) := by
  obtain ⟨ht, rfl, hc, rfl⟩ := State.serving_spec hs
  simp only [State.serve, ht, State.runCommand, hc, State.finish]

/-- An answer that is a status alone is the reply with that status. -/
theorem State.finish_reply (t : State) (j : Journal) (status : Byte) (result : List Byte) :
    State.finish j { state := t, status := status, result := result } = t.answered j status result := rfl

/-- An answer that waits leaves its command in the journal. -/
theorem State.finish_waits (t : State) (j : Journal) (status : Byte) (result : List Byte) :
    State.finish j { state := t, status := status, result := result, waits := true } = t.journalled j status result := rfl

/-- A staged command that passes its checks joins the open transaction, with DONE. -/
theorem State.serve_staged {s c : State} {h : Pkt} {op : BitVec 16} {fields : List (Nat × Nat)} {house : Bool} {st : Staging} {j : Journal}
    (hs : s.servingAs h op fields house st = some (j, c)) (ht : h.txn ≠ 0)
    (i : Instr) (chk : State → Nat → Option (Byte × Nat)) (app : State → Nat → State) (hc : chk c (c.queueCo h.queue) = none) :
    s.serve h op fields house st (stageOr h i chk app) = (c.stagedInto (c.queueCo h.queue) i).answered j 0 [] := by
  rw [State.serve_full hs]; simp only [stageOr, hc, if_neg ht]; rfl

/-- A command outside a transaction that passes its checks takes effect at once, with DONE. -/
theorem State.serve_direct {s c : State} {h : Pkt} {op : BitVec 16} {fields : List (Nat × Nat)} {house : Bool} {st : Staging} {j : Journal}
    (hs : s.servingAs h op fields house st = some (j, c)) (ht : h.txn = 0)
    (i : Instr) (chk : State → Nat → Option (Byte × Nat)) (app : State → Nat → State) (hc : chk c (c.queueCo h.queue) = none) :
    s.serve h op fields house st (stageOr h i chk app) = (app c (c.queueCo h.queue)).answered j 0 [] := by
  rw [State.serve_full hs]; simp only [stageOr, hc, if_pos ht]; rfl

/-- A company event of an existing company takes effect. -/
theorem onCompany_lt {k : Nat} (h : k < 16) (s : State) (f : State → State) : onCompany k s f = .next (f s) := if_pos h

end Sys2Proof.Machine
end

