-- ==== Sys2Proof/Laws/Keeps.lean ====
section
/-!
SUPPORT. What the operations that every family shares keep: the fused values, the queue of waiting commands, canonical memories, the
length of the command list, and the bounds of the error log. `State.Keeps s t` says it of a change from `s` to `t`; it composes, and
each shared operation has one lemma.
-/

namespace Sys2Proof.Machine

/-- The error log's pointers lie in their regions (R425, R427). -/
def ErrState.Bounded (e : ErrState) : Prop := e.next < 4032 ∧ e.pinned ≤ 1024 ∧ e.buffer.length ≤ 256

/-- What every shared operation keeps. -/
structure State.Keeps (s t : State) : Prop where
  fuses : t.fuses = s.fuses
  pending : t.pending = s.pending
  memories : s.memoriesWf → t.memoriesWf
  journal : s.sm.journal.length ≤ 1024 → t.sm.journal.length ≤ 1024
  errors : s.err.Bounded → t.err.Bounded

variable {s t u : State}

theorem State.Keeps.refl (s : State) : s.Keeps s := ⟨rfl, rfl, id, id, id⟩

theorem State.Keeps.trans (h : s.Keeps t) (k : t.Keeps u) : s.Keeps u :=
  ⟨k.fuses.trans h.fuses, k.pending.trans h.pending, fun x => k.memories (h.memories x), fun x => k.journal (h.journal x),
   fun x => k.errors (h.errors x)⟩

/-- A change that keeps what the invariant speaks of keeps the invariant. -/
theorem State.Keeps.inv (h : s.Keeps t) (hs : s.Inv) : t.Inv :=
  ⟨h.memories hs.1, h.journal hs.2.1, (h.errors hs.2.2).1, (h.errors hs.2.2).2.1, (h.errors hs.2.2).2.2⟩

/-- A change of other parts alone. -/
theorem State.Keeps.other (hf : t.fuses = s.fuses) (hp : t.pending = s.pending) (hd : t.dram = s.dram) (hh : t.hostMem = s.hostMem)
    (hj : t.sm.journal = s.sm.journal) (he : t.err = s.err) : s.Keeps t :=
  ⟨hf, hp, fun h => by unfold State.memoriesWf at *; rw [hd, hh]; exact h, fun h => by rw [hj]; exact h, fun h => by rw [he]; exact h⟩

/-- A change of the error log alone that keeps its bounds. -/
theorem State.Keeps.err (s : State) (e : ErrState) (h : s.err.Bounded → e.Bounded) : s.Keeps { s with err := e } :=
  ⟨rfl, rfl, id, id, h⟩

theorem State.Keeps.foldl {α : Type} (l : List α) (f : State → α → State) (h : ∀ (s : State) a, s.Keeps (f s a)) (s : State) :
    s.Keeps (l.foldl f s) := by
  induction l generalizing s with
  | nil => exact .refl s
  | cons a l ih => exact (h s a).trans (ih _)

/-! ### Parts -/

section
variable (s : State) (i : Nat)
theorem State.modCo_keeps (f : Co → Co) : s.Keeps (s.modCo i f) := .other rfl rfl rfl rfl rfl rfl
theorem State.modCore_keeps (f : Core → Core) : s.Keeps (s.modCore i f) := .other rfl rfl rfl rfl rfl rfl
theorem State.modQueue_keeps (f : Queue → Queue) : s.Keeps (s.modQueue i f) := .other rfl rfl rfl rfl rfl rfl
theorem State.modCtr_keeps (f : Counter → Counter) : s.Keeps (s.modCtr i f) := .other rfl rfl rfl rfl rfl rfl
theorem State.modWatch_keeps (f : Watch → Watch) : s.Keeps (s.modWatch i f) := .other rfl rfl rfl rfl rfl rfl
theorem State.modFunc_keeps (f : Func → Func) : s.Keeps (s.modFunc i f) := .other rfl rfl rfl rfl rfl rfl
theorem State.modPort_keeps (f : Port → Port) : s.Keeps (s.modPort i f) := .other rfl rfl rfl rfl rfl rfl
theorem State.modChan_keeps (f : Channel → Channel) : s.Keeps (s.modChan i f) := .other rfl rfl rfl rfl rfl rfl
theorem State.modFly_keeps (f : Fly → Fly) : s.Keeps (s.modFly i f) := .other rfl rfl rfl rfl rfl rfl
theorem State.modEngine_keeps (f : Engine → Engine) : s.Keeps (s.modEngine i f) := .other rfl rfl rfl rfl rfl rfl
theorem State.modFarPort_keeps (f : FarPort → FarPort) : s.Keeps (s.modFarPort i f) := .other rfl rfl rfl rfl rfl rfl
theorem State.modSeq_keeps (f : Seq → Seq) : s.Keeps (s.modSeq i f) := .other rfl rfl rfl rfl rfl rfl
theorem State.modUpd_keeps (f : Upd → Upd) : s.Keeps (s.modUpd i f) := .other rfl rfl rfl rfl rfl rfl
theorem State.modFar_keeps (f : Far → Far) : s.Keeps (s.modFar i f) := .other rfl rfl rfl rfl rfl rfl
theorem State.modCol_keeps (f : Col → Col) : s.Keeps (s.modCol i f) := .other rfl rfl rfl rfl rfl rfl
theorem State.modPak_keeps (f : Pak → Pak) : s.Keeps (s.modPak i f) := .other rfl rfl rfl rfl rfl rfl
theorem State.send_keeps (f : Frame) : s.Keeps (s.send i f) := .other rfl rfl rfl rfl rfl rfl
theorem State.draw_keeps : s.Keeps s.draw.2 := .other rfl rfl rfl rfl rfl rfl
theorem State.stagePost_keeps (k : Nat) (g : BitVec 8) (n : Nat) : s.Keeps (s.stagePost i k g n) := .other rfl rfl rfl rfl rfl rfl
theorem State.wingsPost_keeps (k c : Nat) (g : BitVec 8) (n : Nat) : s.Keeps (s.wingsPost i k c g n) := .other rfl rfl rfl rfl rfl rfl
theorem State.addFaults_keeps (n : Nat) : s.Keeps (s.addFaults i n) := .other rfl rfl rfl rfl rfl rfl
end

/-! ### Memories and rings -/

theorem State.dramWrite_keeps (s : State) (a : Nat) (bs : List Byte) : s.Keeps (s.dramWrite a bs) :=
  ⟨rfl, rfl, fun h => ⟨Memory.wf_mwrite bs _ a h.1, h.2⟩, id, id⟩

theorem State.ringWrite_keeps (s : State) (loc : Bool) (a : Nat) (bs : List Byte) : s.Keeps (s.ringWrite loc a bs) := by
  unfold State.ringWrite; split
  · exact s.dramWrite_keeps a bs
  · exact ⟨rfl, rfl, fun h => ⟨h.1, Memory.wf_mwrite bs _ a h.2⟩, id, id⟩

theorem State.produce_keeps (s : State) (q : Nat) (bs : List Byte) : s.Keeps (s.produce q bs) := by
  unfold State.produce
  dsimp only
  split
  · exact ((s.ringWrite_keeps _ _ _).trans (State.modQueue_keeps _ _ _)).trans (State.modFunc_keeps _ _ _)
  · exact (s.ringWrite_keeps _ _ _).trans (State.modQueue_keeps _ _ _)

theorem State.post_keeps (s : State) (q : Nat) (bs : List Byte) (src : Option Nat) : s.Keeps (s.post q bs src) := by
  unfold State.post
  dsimp only
  repeat' split
  · exact s.produce_keeps q bs
  · exact s.modQueue_keeps _ _
  · exact .refl s

/-! ### The error logger -/

theorem State.mirror_keeps (s : State) (r : ErrRec) : s.Keeps (s.mirror r) :=
  State.Keeps.foldl _ _ (fun s x => by
    dsimp only
    repeat' split
    · exact .err s _ id
    · exact s.post_keeps _ _ _
    · exact .refl s) s

theorem State.writeRing_keeps (s : State) (r : ErrRec) : s.Keeps (s.writeRing r) := by
  unfold State.writeRing
  refine (State.Keeps.err s _ ?_).trans (State.mirror_keeps _ r)
  rintro ⟨h, -, k⟩
  refine ⟨?_, Nat.min_le_left _ _, k⟩
  dsimp only
  split <;> omega

theorem ErrState.fatalSlot_bounded (e : ErrState) (r : ErrRec) (h : e.Bounded) : (e.fatalSlot r).Bounded := by
  unfold ErrState.fatalSlot
  dsimp only
  split
  · exact h
  · split <;> exact h

theorem State.logNow_keeps (s : State) (r : ErrRec) : s.Keeps (s.logNow r) := by
  unfold State.logNow
  split
  · exact (s.writeRing_keeps r).trans ⟨rfl, rfl, id, id, fun h => ErrState.fatalSlot_bounded _ r h⟩
  · split
    · rename_i h
      exact .err s _ (fun k => ⟨k.1, k.2.1, by simp only [List.length_append, List.length_singleton]; omega⟩)
    · split <;> exact .err s _ id

theorem State.closeGroup_keeps (s : State) (g : ErrGroup) (n : Word) : s.Keeps (s.closeGroup g n) := by
  unfold State.closeGroup
  dsimp only
  repeat' split
  · exact .refl s
  · refine State.Keeps.trans ?_ (State.mirror_keeps _ _)
    exact .err s _ id
  · exact s.writeRing_keeps _

theorem State.raise_keeps (s : State) (r : ErrRec) : s.Keeps (s.raise r) := by
  unfold State.raise
  dsimp only
  repeat' split
  · exact State.logNow_keeps _ _
  · exact .err _ _ id
  · refine State.Keeps.trans ?_ (State.logNow_keeps _ _)
    rename_i g _ _
    exact (State.closeGroup_keeps _ g g.repeats).trans (.err _ _ id)
  · refine State.Keeps.trans ?_ (State.logNow_keeps _ _)
    exact .err _ _ id

theorem State.log_keeps (s : State) (kind index : Nat) (cls : BitVec 2) (k : Nat) (code : BitVec 16) (d : List (Nat × Nat)) :
    s.Keeps (s.log kind index cls k code d) := s.raise_keeps _

theorem State.violation_keeps (s : State) (k cause : Nat) (m : Master) (d : List (Nat × Nat)) : s.Keeps (s.violation k cause m d) := by
  unfold State.violation
  have h := s.raise_keeps { source := srcOf 8 0, cls := 2, company := k, code := 0x0003#16, house := decide (k = 0),
                            detail := [(4, k), (8, cause), (18, m.number)] ++ d }
  cases m with
  | function f =>
    have g := fun (l : Table Queue) => h.trans (State.Keeps.foldl l
      (fun (s : State) x => if s.queueCo x.1 = k then s.modQueue x.1 (fun q => { q with cause := BitVec.ofNat 8 cause }) else s)
      (fun s x => by split <;> first | exact s.modQueue_keeps _ _ | exact .refl s) _)
    dsimp only
    split
    · exact g _
    · exact (g _).trans (State.modFunc_keeps _ _ _)
  | queue q => exact h.trans (State.modQueue_keeps _ _ _)
  | channel c => dsimp only; split <;> first | exact h | exact h.trans (.other rfl rfl rfl rfl rfl rfl)

/-! ### Holds, watches and counters -/

theorem State.meetHold_keeps (s : State) (k : Nat) (h : HoldEntry) : s.Keeps (s.meetHold k h) :=
  (s.modSeq_keeps k _).trans (State.Keeps.foldl _ _ (fun s p => by split <;> first | exact s.send_keeps _ _ | exact .refl s) _)

theorem State.evalHold_keeps (s : State) (k : Nat) : s.Keeps (s.evalHold k) := by
  unfold State.evalHold
  dsimp only
  repeat' split
  all_goals first | exact .refl s | exact s.meetHold_keeps _ _

theorem State.loseMessage_keeps (s : State) (k w cause : Nat) : s.Keeps (s.loseMessage k w cause) :=
  (s.modCo_keeps k _).trans (State.log_keeps _ _ _ _ _ _ _)

theorem State.watchMessage_keeps (s : State) (w : Nat) : s.Keeps (s.watchMessage w) := by
  unfold State.watchMessage
  dsimp only
  repeat' split
  all_goals first | exact State.loseMessage_keeps _ _ _ _ | exact State.modCo_keeps _ _ _ | exact State.produce_keeps _ _ _

theorem State.evalWatch_keeps (s : State) (w : Nat) : s.Keeps (s.evalWatch w) := by
  unfold State.evalWatch
  dsimp only
  repeat' split
  all_goals first
    | exact .refl s
    | exact s.modWatch_keeps _ _
    | exact ((s.modWatch_keeps _ _).trans (State.watchMessage_keeps _ _)).trans (State.modWatch_keeps _ _ _)

theorem State.evalCtr_keeps (s : State) (i : Nat) : s.Keeps (s.evalCtr i) := by
  refine (State.Keeps.foldl (0 :: companyList) _ (fun s k => ?_) s).trans (State.Keeps.foldl _ _ (fun s x => ?_) _)
  · repeat' split
    all_goals first | exact .refl s | exact s.evalHold_keeps _
  · split <;> first | exact s.evalWatch_keeps _ | exact .refl s

theorem State.addCtr_keeps (s : State) (i n : Nat) : s.Keeps (s.addCtr i n) := (s.modCtr_keeps i _).trans (State.evalCtr_keeps _ i)

theorem State.resetCtr_keeps (s : State) (k index i value : Nat) : s.Keeps (s.resetCtr k index i value) := by
  unfold State.resetCtr State.retireCtr
  split
  · exact State.log_keeps _ _ _ _ _ _ _
  · exact ((s.modCtr_keeps _ _).trans (State.modCtr_keeps _ _ _)).trans (State.evalCtr_keeps _ _)

theorem State.applyInc_keeps (s : State) (x : Inc) : s.Keeps (s.applyInc x) := by
  unfold State.applyInc
  dsimp only
  split
  · repeat' split
    · exact s.modCo_keeps _ _
    · exact s.resetCtr_keeps _ _ _ _
    · exact s.addCtr_keeps _ _
  · split
    · exact ((s.modCo_keeps _ _).trans (State.addFaults_keeps _ _ _)).trans (State.log_keeps _ _ _ _ _ _ _)
    all_goals exact (s.modCo_keeps _ _).trans (State.violation_keeps _ _ _ _ _)

/-! ### The journal -/

theorem length_modFirst {α : Type} (p : α → Bool) (f : α → α) (l : List α) : (modFirst p f l).length = l.length := by
  induction l with
  | nil => rfl
  | cons x l ih => unfold modFirst; split <;> simp [ih]

/-- Dropping the first of the entries that satisfy `p` makes the list shorter by one, where there is one. -/
theorem length_dropFirst {α : Type} (p : α → Bool) (l : List α) (h : l.any p = true) : (dropFirst p l).length + 1 = l.length := by
  induction l with
  | nil => simp at h
  | cons x l ih =>
    unfold dropFirst
    split
    · rfl
    · rename_i hx
      simp only [List.any_cons, Bool.or_eq_true] at h
      simp only [List.length_cons, ih (h.resolve_left hx)]

theorem State.modEntry_keeps (s : State) (j : Journal) (f : Journal → Journal) : s.Keeps (s.modEntry j f) :=
  ⟨rfl, rfl, id, fun h => by simpa [State.modEntry, length_modFirst] using h, id⟩

/-- A fetched command takes an entry; where all are in use the oldest replied one goes (R418). -/
theorem State.enter_keeps (s : State) (j : Journal) (h : s.sm.hasEntry = true) : s.Keeps (s.enter j) := by
  refine ⟨rfl, rfl, id, fun hl => ?_, id⟩
  simp only [State.enter, List.length_append, List.length_singleton]
  split
  · omega
  · rename_i hf
    have := length_dropFirst (fun x : Journal => decide (x.state = .replied)) s.sm.journal
      (by simpa [Sm.hasEntry, hf] using h)
    omega

/-! ### Replies and the service of a host command -/

theorem State.reply_keeps (s : State) (j : Journal) (st d : Byte) (r : Nat) (x : Word) (bs : List Byte) :
    s.Keeps (s.reply j st d r x bs) := by
  unfold State.reply
  dsimp only
  split
  · exact s.modEntry_keeps _ _
  · exact (s.post_keeps _ _ _).trans (State.modEntry_keeps _ _ _)

theorem State.wingsUse_keeps (s : State) (m : WingsMaster) (a n : Nat) : s.Keeps (s.wingsUse m a n) := .other rfl rfl rfl rfl rfl rfl

theorem State.takeEntries_keeps (s : State) (q n : Nat) : s.Keeps (s.takeEntries q n) := by
  unfold State.takeEntries
  dsimp only
  split
  · exact (State.Keeps.foldl _ _ (fun s i => s.wingsUse_keeps _ _ _) s).trans (State.modQueue_keeps _ _ _)
  · exact s.modQueue_keeps _ _

theorem State.takeEntries_sm (s : State) (q n : Nat) : (s.takeEntries q n).sm = s.sm := by
  have h : ∀ (l : List Nat) (f : Nat → Nat) (s : State), (l.foldl (fun s i => s.wingsUse (.ring q) (f i) 64) s).sm = s.sm := by
    intro l f
    induction l with
    | nil => exact fun s => rfl
    | cons a l ih => exact fun s => ih _
  unfold State.takeEntries
  dsimp only
  split
  · exact h _ _ _
  · rfl

theorem State.fetchOne_keeps {s t : State} {q : Nat} (h : s.fetchOne q = some t) : s.Keeps t := by
  unfold State.fetchOne at h
  split at h
  · rename_i hr
    simp only [State.fetchReady, Bool.and_eq_true] at hr
    obtain ⟨c, -, rfl⟩ := Option.map_eq_some_iff.mp h
    have k : ∀ j, s.Keeps ((s.takeEntries q (pktEntries c.1)).enter j) := fun j =>
      (s.takeEntries_keeps q _).trans (State.enter_keeps _ j (by rw [State.takeEntries_sm]; exact hr.1.2))
    dsimp only
    split
    · exact (k _).trans (State.reply_keeps _ _ _ _ _ _ _)
    · exact k _
  · cases h

theorem State.fetchMany_keeps (q : Nat) (n : Nat) (s : State) : s.Keeps (State.fetchMany q n s) := by
  induction n generalizing s with
  | zero => exact .refl s
  | succ n ih =>
    unfold State.fetchMany
    cases h : s.fetchOne q with
    | none => exact .refl s
    | some t => exact (State.fetchOne_keeps h).trans (ih t)

theorem State.fetch_keeps (s : State) (q : Nat) : s.Keeps (s.fetch q) := State.fetchMany_keeps q _ s

theorem State.answer_keeps (s : State) (h : Pkt) (st d : Byte) (bs : List Byte) : s.Keeps (s.answer h st d bs) := by
  unfold State.answer
  split
  · exact .refl s
  · exact (State.reply_keeps _ _ _ _ _ _ _).trans (State.fetch_keeps _ _)

theorem State.begin_keeps (s : State) (j : Journal) : s.Keeps (s.begin_ j) := by
  unfold State.begin_
  refine State.Keeps.trans ?_ (State.modEntry_keeps _ _ _)
  exact .other rfl rfl rfl rfl rfl rfl

/-- Serving a command keeps what its body keeps. -/
theorem State.serve_keeps (s : State) (h : Pkt) (op : BitVec 16) (fields : List (Nat × Nat)) (house : Bool) (st : Staging)
    (body : State → Nat → Answer) (hb : ∀ (s : State) k, s.Keeps (body s k).state) : s.Keeps (s.serve h op fields house st body) := by
  unfold State.serve State.runCommand
  refine (s.fetch_keeps h.queue).trans ?_
  dsimp only
  split
  · exact .refl _
  · refine State.Keeps.trans ?_ (State.fetch_keeps _ _)
    have k := State.begin_keeps (s.fetch h.queue)
    repeat' split
    · exact (k _).trans (State.reply_keeps _ _ _ _ _ _ _)
    · exact ((k _).trans (hb _ _)).trans (State.modEntry_keeps _ _ _)
    · exact ((k _).trans (hb _ _)).trans (State.reply_keeps _ _ _ _ _ _ _)

/-- A body that stages its command keeps what applying it keeps. -/
theorem stageOr_keeps (h : Pkt) (i : Instr) (chk : State → Nat → Option (Byte × Nat)) (app : State → Nat → State)
    (ha : ∀ (s : State) k, s.Keeps (app s k)) (s : State) (k : Nat) : s.Keeps (stageOr h i chk app s k).state := by
  unfold stageOr
  repeat' split
  · exact .refl s
  · exact ha s k
  · exact s.modCo_keeps _ _

end Sys2Proof.Machine
end

