-- ==== Sys2Proof/WellFormed.lean ====
section
/-!
DEFINITION. Well-formed commands: operands that name units the module has, and bundle slots whose opcode is the command's own.
-/

namespace Sys2Proof

open Machine

/-- A packet of a queue that exists, its header fields inside their widths (R378, R383). -/
def pktWf (h : Pkt) : Bool :=
  decide (h.queue < 32768) && decide (h.company < 256) && decide (h.length < 65536)

/-- A physical core (R8). -/
def coreWf (core : Nat) : Bool := decide (core < 850)

/-- Opcodes that no chapter lists for a slot, with NOP (R129 to R140). -/
def nopWf (position : BitVec 2) (slot : DWord) : Bool :=
  let op := bits slot 63 58
  decide (op = 0) || (match position.toNat with
    | 0 => decide (5 < op)
    | 1 => decide (3 < op)
    | 2 => (decide (0x0D < op) && decide (op < 0x20)) || decide (0x27 < op)
    | _ => decide (2 < op))

/-- The rates of the Prompter's baud command (R440). -/
def baudRates : List Nat := [115200, 230400, 460800, 921600, 1500000, 3000000]

/-- A command that the module can meet. -/
def Instr.wf : Instr → Bool
  | .scriptLoad h _ _ => pktWf h
  | .scriptStart h _ _ _ => pktWf h
  | .scriptStop h _ => pktWf h
  | .rmonSetScale h _ _ _ _ => pktWf h
  | .torRepoint h _ _ _ _ => pktWf h
  | .repointTimeout _ => true
  | .torLaneSwap h _ _ => pktWf h
  | .torPortDisable h _ _ => pktWf h
  | .colReshard h _ _ _ _ _ => pktWf h
  | .updSetConst h _ _ _ => pktWf h
  | .pakSnapSet h _ _ _ _ _ _ _ _ _ => pktWf h
  | .rprAdopt h _ _ _ => pktWf h
  | .rprRestoreSend h _ _ _ _ _ => pktWf h
  | .rprRestoreRecv h _ _ _ _ _ _ => pktWf h
  | .restoreComplete _ _ => true
  | .restoreTimeout _ => true
  | .rprRollForward h _ _ => pktWf h
  | .farRun h _ _ _ => pktWf h
  | .farAnchorExport h _ _ _ _ => pktWf h
  | .farJoin h _ _ => pktWf h
  | .farPortSet h _ _ _ _ => pktWf h
  | .cipKeyUnwrap h _ _ => pktWf h
  | .cipKeyClear h _ => pktWf h
  | .cipChanSet h _ _ _ _ _ => pktWf h
  | .txnBegin h _ _ => pktWf h
  | .txnCommit h _ _ _ => pktWf h
  | .txnAbort h => pktWf h
  | .txnTimeout company => decide (company < 16)
  | .coCreate h _ _ => pktWf h
  | .coDestroy h _ => pktWf h
  | .coGrant h _ _ _ _ _ => pktWf h
  | .coReturn h _ _ _ => pktWf h
  | .coRelease h _ _ => pktWf h
  | .smInfo h => pktWf h
  | .smTelemetry h _ _ _ => pktWf h
  | .smFwStage h _ _ => pktWf h
  | .smFwSwitch h => pktWf h
  | .smFwFallback => true
  | .smReset h => pktWf h
  | .smLockstepMismatch _ => true
  | .smWatchdogExpiry _ => true
  | .smRestartReady => true
  | .smRemoval h _ => pktWf h
  | .errInject h _ _ _ _ => pktWf h
  | .pwrCapSet h _ => pktWf h
  | .pwrFixedOp h _ => pktWf h
  | .pwrNvSet h _ => pktWf h
  | .rprMark h _ _ _ => pktWf h
  | .rprPolicy h _ _ => pktWf h
  | .islCallSheet h _ _ => pktWf h
  | .islOverride h _ _ => pktWf h
  | .islRoot h => pktWf h
  | .doorbell function n _ host => decide (function < 17) && decide (n < 32768) && host.all (fun p => decide (p.1 % 64 = 0))
  | .queueEnable function n _ => decide (function < 17) && decide (n < 32768)
  | .queueDisable function n _ => decide (function < 17) && decide (n < 32768)
  | .synCtrAdd function n _ => decide (function < 17) && decide (n < 8192)
  | .synCtrReset function n _ => decide (function < 17) && decide (n < 8192)
  | .watchArm function n _ => decide (function < 17) && decide (n < 16384)
  | .watchDisarm function n _ => decide (function < 17) && decide (n < 16384)
  | .cipKeyWrite function _ => decide (function < 17)
  | .sealedModeEnter function => decide (function < 17)
  | .openModeLock function => decide (function < 17)
  | .errFatalOccClear function _ => decide (function < 17)
  | .coreResidueRowsRead function window => decide (function < 17) && decide (window < 850)
  | .errDropsRead function => decide (function < 17)
  | .registerWrite function offset _ _ => decide (function < 17) && decide (offset < 67108864) && decide (offset % 4 = 0)
  | .functionLevelReset function => decide (function < 17)
  | .vfEnable => true
  | .perstAssert => true
  | .perstRelease => true
  | .dmaHostToDram queue descriptor => decide (queue < 32768) && decide (bits descriptor 7 0 = 1)
  | .dmaDramToHost queue descriptor => decide (queue < 32768) && decide (bits descriptor 7 0 = 2)
  | .dmaComplete queue => decide (queue < 32768)
  | .hostCplTimeout function slot => decide (function < 17) && decide (slot < 2048)
  | .hostLateCpl function slot => decide (function < 17) && decide (slot < 2048)
  | .readSlotQuarantineEnd slot => decide (slot < 2048)
  | .streamProgress queue _ => decide (queue < 32768)
  | .syncIncrementApply => true
  | .run core _ slot => coreWf core && decide (bits slot 63 58 = 1)
  | .drain core _ slot => coreWf core && decide (bits slot 63 58 = 2)
  | .vadd core _ slot => coreWf core && decide (bits slot 63 58 = 1)
  | .vsub core _ slot => coreWf core && decide (bits slot 63 58 = 2)
  | .vmul core _ slot => coreWf core && decide (bits slot 63 58 = 3)
  | .vfma core _ slot => coreWf core && decide (bits slot 63 58 = 4)
  | .vmax core _ slot => coreWf core && decide (bits slot 63 58 = 5)
  | .vmin core _ slot => coreWf core && decide (bits slot 63 58 = 6)
  | .vabs core _ slot => coreWf core && decide (bits slot 63 58 = 7)
  | .vneg core _ slot => coreWf core && decide (bits slot 63 58 = 8)
  | .vcmp core _ slot => coreWf core && decide (bits slot 63 58 = 9)
  | .vsel core _ slot => coreWf core && decide (bits slot 63 58 = 10)
  | .vbcast core _ slot => coreWf core && decide (bits slot 63 58 = 11)
  | .vfnRegister core _ slot => coreWf core && decide (bits slot 63 58 = 12)
  | .vagenDesc core _ slot => coreWf core && decide (bits slot 63 58 = 13)
  | .vwiden core _ slot => coreWf core && decide (bits slot 63 58 = 32)
  | .vcast core _ slot => coreWf core && decide (bits slot 63 58 = 33)
  | .vrowstat core _ slot => coreWf core && decide (bits slot 63 58 = 34)
  | .vfnRow core _ slot => coreWf core && decide (bits slot 63 58 = 35)
  | .vsmmax core _ slot => coreWf core && decide (bits slot 63 58 = 36)
  | .vsmexp core _ slot => coreWf core && decide (bits slot 63 58 = 37)
  | .vsmnorm core _ slot => coreWf core && decide (bits slot 63 58 = 38)
  | .vagenTable core _ slot => coreWf core && decide (bits slot 63 58 = 39)
  | .vld core _ slot => coreWf core && decide (bits slot 63 58 = 1)
  | .vst core _ slot => coreWf core && decide (bits slot 63 58 = 2)
  | .send core _ slot => coreWf core && decide (bits slot 63 58 = 3)
  | .loop core _ slot => coreWf core && decide (bits slot 63 58 = 1)
  | .msetld core _ slot => coreWf core && decide (bits slot 63 58 = 2)
  | .cdld core _ slot => coreWf core && decide (bits slot 63 58 = 3)
  | .sinc core _ slot => coreWf core && decide (bits slot 63 58 = 4)
  | .partend core _ slot => coreWf core && decide (bits slot 63 58 = 5)
  | .nop core _ position slot => coreWf core && nopWf position slot
  | .stepBoundary company => decide (company < 16)
  | .epochBoundary company => decide (company < 16)
  | .barrierResume company _ => decide (company < 16)
  | .markerSend company _ => decide (company < 16)
  | .markerReceive company _ _ => decide (company < 16)
  | .holdEnter company => decide (company < 16)
  | .releaseReceive company _ _ _ => decide (company < 16)
  | .holdResume company _ _ => decide (company < 16)
  | .holdLong company => decide (company < 16)
  | .curtainPost company => decide (company < 16)
  | .rmonReportLanded company => decide (company < 16)
  | .recastPhaseStart company => decide (company < 16)
  | .reshardPhaseEnd company => decide (company < 16)
  | .dramStageAccess channel _ _ => decide (channel < 384)
  | .dramRefresh channel _ => decide (channel < 384)
  | .extraRefresh channel _ => decide (channel < 384)
  | .wingsAccess channel _ _ _ => decide (channel < 384)
  | .flyCommandStart engine => decide (engine < 48)
  | .meshLineArrival core _ => decide (core < 850)
  | .collectiveChunkStart company _ => decide (company < 16)
  | .torusLineSend company _ _ => decide (company < 16)
  | .torusLineReceive company _ _ _ _ _ _ _ => decide (company < 16)
  | .torusLineHandover company _ _ => decide (company < 16)
  | .curtainTailDelivered company => decide (company < 16)
  | .collectiveChunkDone company _ => decide (company < 16)
  | .updShardStart engine => decide (engine < 48)
  | .updGradientLine engine => decide (engine < 48)
  | .updLineEnter engine => decide (engine < 48)
  | .updElementExit engine => decide (engine < 48)
  | .formPass company => decide (company < 16)
  | .formDone company => decide (company < 16)
  | .sealComplete company => decide (company < 16)
  | .cfxParcelReceive _ company datagram => decide (company < 16) && decide (datagram.length ≤ 9216)
  | .cfxAckReceive _ company datagram => decide (company < 16) && decide (datagram.length ≤ 9216)
  | .cfxDecideReceive _ company datagram => decide (company < 16) && decide (datagram.length ≤ 9216)
  | .cfxSnapReceive _ company datagram => decide (company < 16) && decide (datagram.length ≤ 9216)
  | .cfxAckTimer company => decide (company < 16)
  | .cfxRetransmit company site _ => decide (company < 16) && decide (site < 16)
  | .cfxHardExpiry company => decide (company < 16)
  | .farDecision company => decide (company < 16)
  | .gatewayDecided company => decide (company < 16)
  | .gatewayUndecided company => decide (company < 16)
  | .openComplete company => decide (company < 16)
  | .applyPass company => decide (company < 16)
  | .snapshotBlock company => decide (company < 16)
  | .snapshotReadsDone company => decide (company < 16)
  | .snapshotStreamEnd company => decide (company < 16)
  | .cipherMessageStart channel => decide (channel < 256)
  | .cipherSliceEnd => true
  | .cipherTagReady channel => decide (channel < 256)
  | .portLightDetected _ => true
  | .portLightLoss _ => true
  | .portTrainingDone _ _ => true
  | .identityReceive _ _ _ _ _ => true
  | .identitySend _ => true
  | .latencyMeasured _ exchanges => decide (exchanges.length = 64)
  | .lockFrameReceive _ _ _ _ => true
  | .relockDone => true
  | .lockHoldover => true
  | .houseFrameSend _ => true
  | .houseFrameReceive _ _ _ => true
  | .houseEpochBoundary => true
  | .laneSignalLoss _ _ => true
  | .laneRateCheck _ _ _ _ => true
  | .laneSwapStart _ => true
  | .aprEnter _ => true
  | .aprPulse _ => true
  | .censusRoundStart => true
  | .censusStartReceive _ _ _ => true
  | .censusSumReceive _ _ _ _ => true
  | .censusResultReceive _ _ _ _ => true
  | .censusRoundAbandon => true
  | .errorRecord => true
  | .errorGroupClose => true
  | .telemetryTick company _ => decide (company < 16)
  | .decimationUpdate _ _ => true
  | .powerEstimateTick _ _ => true
  | .powerMeasureTick _ _ _ => true
  | .thermalSample _ _ _ stack => decide (stack < 12)
  | .thermalCeilingTick _ => true
  | .droopEvent _ => true
  | .railTrimTick _ => true
  | .vinBandChange _ => true
  | .pwrInputLoss _ _ => true
  | .powerGood => true
  | .selftestDone _ => true
  | .repairApplicationDone _ => true
  | .firmwareReady _ => true
  | .moduleReset => true
  | .repairDone company => decide (company < 16)
  | .understudyRetest _ _ => true
  | .attnShortPress => true
  | .attnLongPress => true
  | .mailboxFrame _ payload _ => decide (payload.length ≤ 248)
  | .prompterHelp => true
  | .prompterId => true
  | .prompterStatus => true
  | .prompterLog n => decide (1 ≤ n.getD 16) && decide (n.getD 16 ≤ 64)
  | .prompterFatal => true
  | .prompterPorts => true
  | .prompterLocate _ => true
  | .prompterBaud n => baudRates.contains n
  | .prompterSmreset => true
  | .prompterPeek offset => decide (offset < 67108864) && decide (offset % 4 = 0)
  | .smbusStatusRead => true
  | .smbusTempRead => true
  | .smbusPowerRead => true
  | .smbusSerialRead => true
  | .smbusLocateWrite _ => true
  | .smbusAlertResponse => true
  | .smbusBusTimeout => true
  | .commandBadOpcode h _ => pktWf h
  | .farPortDown _ => true
  | .farPortLinkUp _ => true
  | .probeReceive _ _ => true
  | .swapHandshakeReceive _ _ => true
  | .currentLimitTrip => true
  | .fwStageComplete => true
  | .serviceSideReset => true
  | .svc3v3Loss => true
  | .jtagAccess _ _ _ _ => true

end Sys2Proof
end

