-- ==== Sys2Proof/Laws/PerInstr.lean ====
section
/-!
SUPPORT. For every command: a well-formed one carries a packet header of a queue that exists, its fields inside their widths, where it is
a host command (R378, R383), and names a physical core that exists where it is a bundle slot (R8, R129). One lemma per constructor.
-/

namespace Sys2Proof.Laws.Units

open Sys2Proof Option

/-- The packet header of a host command. -/
def headerOf : Instr → Option Pkt
  | .scriptLoad h _ _ => some h
  | .scriptStart h _ _ _ => some h
  | .scriptStop h _ => some h
  | .rmonSetScale h _ _ _ _ => some h
  | .torRepoint h _ _ _ _ => some h
  | .torLaneSwap h _ _ => some h
  | .torPortDisable h _ _ => some h
  | .colReshard h _ _ _ _ _ => some h
  | .updSetConst h _ _ _ => some h
  | .pakSnapSet h _ _ _ _ _ _ _ _ _ => some h
  | .rprAdopt h _ _ _ => some h
  | .rprRestoreSend h _ _ _ _ _ => some h
  | .rprRestoreRecv h _ _ _ _ _ _ => some h
  | .rprRollForward h _ _ => some h
  | .farRun h _ _ _ => some h
  | .farAnchorExport h _ _ _ _ => some h
  | .farJoin h _ _ => some h
  | .farPortSet h _ _ _ _ => some h
  | .cipKeyUnwrap h _ _ => some h
  | .cipKeyClear h _ => some h
  | .cipChanSet h _ _ _ _ _ => some h
  | .txnBegin h _ _ => some h
  | .txnCommit h _ _ _ => some h
  | .txnAbort h => some h
  | .coCreate h _ _ => some h
  | .coDestroy h _ => some h
  | .coGrant h _ _ _ _ _ => some h
  | .coReturn h _ _ _ => some h
  | .coRelease h _ _ => some h
  | .smInfo h => some h
  | .smTelemetry h _ _ _ => some h
  | .smFwStage h _ _ => some h
  | .smFwSwitch h => some h
  | .smReset h => some h
  | .smRemoval h _ => some h
  | .errInject h _ _ _ _ => some h
  | .pwrCapSet h _ => some h
  | .pwrFixedOp h _ => some h
  | .pwrNvSet h _ => some h
  | .rprMark h _ _ _ => some h
  | .rprPolicy h _ _ => some h
  | .islCallSheet h _ _ => some h
  | .islOverride h _ _ => some h
  | .islRoot h => some h
  | .commandBadOpcode h _ => some h
  | _ => none

/-- The physical core of a bundle slot. -/
def coreOf : Instr → Option Nat
  | .run core _ _ => some core
  | .drain core _ _ => some core
  | .vadd core _ _ => some core
  | .vsub core _ _ => some core
  | .vmul core _ _ => some core
  | .vfma core _ _ => some core
  | .vmax core _ _ => some core
  | .vmin core _ _ => some core
  | .vabs core _ _ => some core
  | .vneg core _ _ => some core
  | .vcmp core _ _ => some core
  | .vsel core _ _ => some core
  | .vbcast core _ _ => some core
  | .vfnRegister core _ _ => some core
  | .vagenDesc core _ _ => some core
  | .vwiden core _ _ => some core
  | .vcast core _ _ => some core
  | .vrowstat core _ _ => some core
  | .vfnRow core _ _ => some core
  | .vsmmax core _ _ => some core
  | .vsmexp core _ _ => some core
  | .vsmnorm core _ _ => some core
  | .vagenTable core _ _ => some core
  | .vld core _ _ => some core
  | .vst core _ _ => some core
  | .send core _ _ => some core
  | .loop core _ _ => some core
  | .msetld core _ _ => some core
  | .cdld core _ _ => some core
  | .sinc core _ _ => some core
  | .partend core _ _ => some core
  | .nop core _ _ _ => some core
  | _ => none

/-- A well-formed command's header is of a queue that exists, its fields inside their widths; its core exists. -/
def Statement (i : Instr) : Prop :=
  i.wf = true → (∀ h, headerOf i = some h → h.queue < 32768 ∧ h.company < 256 ∧ h.length < 65536) ∧ ∀ p, coreOf i = some p → p < 850

theorem headerFits {h : Pkt} (w : pktWf h = true) : h.queue < 32768 ∧ h.company < 256 ∧ h.length < 65536 := by
  simpa [pktWf, and_assoc] using w

theorem coreFits {p : Nat} (w : coreWf p = true) : p < 850 := of_decide_eq_true w

theorem and_left {a b : Bool} (w : (a && b) = true) : a = true := (Bool.and_eq_true_iff.mp w).1

theorem absent {α : Type} {x : α} {P : Prop} (e : (none : Option α) = some x) : P := nomatch e

theorem scriptLoad (h : Pkt) (addr : BitVec 48) (length : DWord) : Statement (.scriptLoad h addr length) :=
  fun w => ⟨fun _ e => some.inj e ▸ headerFits w, fun _ e => absent e⟩
theorem scriptStart (h : Pkt) (epoch : DWord) (startStep : BitVec 48) (startAttempt : BitVec 16) : Statement (.scriptStart h epoch startStep startAttempt) :=
  fun w => ⟨fun _ e => some.inj e ▸ headerFits w, fun _ e => absent e⟩
theorem scriptStop (h : Pkt) (immediate : Bool) : Statement (.scriptStop h immediate) :=
  fun w => ⟨fun _ e => some.inj e ▸ headerFits w, fun _ e => absent e⟩
theorem rmonSetScale (h : Pkt) (unit : Bool) (index : BitVec 10) (slot : BitVec 6) (scaleExp : BitVec 8) : Statement (.rmonSetScale h unit index slot scaleExp) :=
  fun w => ⟨fun _ e => some.inj e ▸ headerFits w, fun _ e => absent e⟩
theorem torRepoint (h : Pkt) (port : BitVec 3) (serial : DWord) (coord : Word) (timeoutMs : BitVec 16) : Statement (.torRepoint h port serial coord timeoutMs) :=
  fun w => ⟨fun _ e => some.inj e ▸ headerFits w, fun _ e => absent e⟩
theorem repointTimeout (port : BitVec 3) : Statement (.repointTimeout port) :=
  fun _ => ⟨fun _ e => absent e, fun _ e => absent e⟩
theorem torLaneSwap (h : Pkt) (port : BitVec 3) (lane : BitVec 4) : Statement (.torLaneSwap h port lane) :=
  fun w => ⟨fun _ e => some.inj e ▸ headerFits w, fun _ e => absent e⟩
theorem torPortDisable (h : Pkt) (port : BitVec 3) (disable : Bool) : Statement (.torPortDisable h port disable) :=
  fun w => ⟨fun _ e => some.inj e ▸ headerFits w, fun _ e => absent e⟩
theorem colReshard (h : Pkt) (planAddr : BitVec 48) (planBytes : Word) (phaseEpochs : BitVec 8) (ctrIndex : BitVec 13) (ctrGen : BitVec 8) : Statement (.colReshard h planAddr planBytes phaseEpochs ctrIndex ctrGen) :=
  fun w => ⟨fun _ e => some.inj e ▸ headerFits w, fun _ e => absent e⟩
theorem updSetConst (h : Pkt) (program : BitVec 4) (index : BitVec 4) (value : Word) : Statement (.updSetConst h program index value) :=
  fun w => ⟨fun _ e => some.inj e ▸ headerFits w, fun _ e => absent e⟩
theorem pakSnapSet (h : Pkt) (enable : Bool) (every : BitVec 16) (listAddr : BitVec 48) (dest : BitVec 2) (queue : BitVec 13) (queueGen : BitVec 8) (cipher : BitVec 9) (pack : Bool) (width : BitVec 2) : Statement (.pakSnapSet h enable every listAddr dest queue queueGen cipher pack width) :=
  fun w => ⟨fun _ e => some.inj e ▸ headerFits w, fun _ e => absent e⟩
theorem rprAdopt (h : Pkt) (island : Word) (coord : Word) (failedSerial : DWord) : Statement (.rprAdopt h island coord failedSerial) :=
  fun w => ⟨fun _ e => some.inj e ▸ headerFits w, fun _ e => absent e⟩
theorem rprRestoreSend (h : Pkt) (company : BitVec 4) (port : BitVec 3) (source : Bool) (bank : Bool) (listAddr : BitVec 48) : Statement (.rprRestoreSend h company port source bank listAddr) :=
  fun w => ⟨fun _ e => some.inj e ▸ headerFits w, fun _ e => absent e⟩
theorem rprRestoreRecv (h : Pkt) (company : BitVec 4) (port : BitVec 3) (target : Bool) (bank : Bool) (listAddr : BitVec 48) (timeoutMs : BitVec 16) : Statement (.rprRestoreRecv h company port target bank listAddr timeoutMs) :=
  fun w => ⟨fun _ e => some.inj e ▸ headerFits w, fun _ e => absent e⟩
theorem restoreComplete (port : BitVec 3) (outcome : RestoreEnd) : Statement (.restoreComplete port outcome) :=
  fun _ => ⟨fun _ e => absent e, fun _ e => absent e⟩
theorem restoreTimeout (port : BitVec 3) : Statement (.restoreTimeout port) :=
  fun _ => ⟨fun _ e => absent e, fun _ e => absent e⟩
theorem rprRollForward (h : Pkt) (company : BitVec 4) (tailAddr : BitVec 48) : Statement (.rprRollForward h company tailAddr) :=
  fun w => ⟨fun _ e => some.inj e ▸ headerFits w, fun _ e => absent e⟩
theorem farRun (h : Pkt) (tableAddr : BitVec 48) (tableBytes : Word) (enable : Bool) : Statement (.farRun h tableAddr tableBytes enable) :=
  fun w => ⟨fun _ e => some.inj e ▸ headerFits w, fun _ e => absent e⟩
theorem farAnchorExport (h : Pkt) (company : BitVec 4) (queue : BitVec 13) (queueGen : BitVec 8) (listAddr : BitVec 48) : Statement (.farAnchorExport h company queue queueGen listAddr) :=
  fun w => ⟨fun _ e => some.inj e ▸ headerFits w, fun _ e => absent e⟩
theorem farJoin (h : Pkt) (company : BitVec 4) (round : BitVec 40) : Statement (.farJoin h company round) :=
  fun w => ⟨fun _ e => some.inj e ▸ headerFits w, fun _ e => absent e⟩
theorem farPortSet (h : Pkt) (port : Bool) (address : BitVec 128) (snapPeer : BitVec 128) (snapUdp : BitVec 16) : Statement (.farPortSet h port address snapPeer snapUdp) :=
  fun w => ⟨fun _ e => some.inj e ▸ headerFits w, fun _ e => absent e⟩
theorem cipKeyUnwrap (h : Pkt) (slot : BitVec 6) (blobAddr : BitVec 48) : Statement (.cipKeyUnwrap h slot blobAddr) :=
  fun w => ⟨fun _ e => some.inj e ▸ headerFits w, fun _ e => absent e⟩
theorem cipKeyClear (h : Pkt) (slot : BitVec 6) : Statement (.cipKeyClear h slot) :=
  fun w => ⟨fun _ e => some.inj e ▸ headerFits w, fun _ e => absent e⟩
theorem cipChanSet (h : Pkt) (channel : BitVec 8) (unbind : Bool) (slot : BitVec 6) (nonce : Bool) (fixed : Word) : Statement (.cipChanSet h channel unbind slot nonce fixed) :=
  fun w => ⟨fun _ e => some.inj e ▸ headerFits w, fun _ e => absent e⟩
theorem txnBegin (h : Pkt) (mode : Bool) (timeoutS : BitVec 10) : Statement (.txnBegin h mode timeoutS) :=
  fun w => ⟨fun _ e => some.inj e ▸ headerFits w, fun _ e => absent e⟩
theorem txnCommit (h : Pkt) (step : BitVec 48) (ctrIndex : BitVec 13) (ctrGen : BitVec 8) : Statement (.txnCommit h step ctrIndex ctrGen) :=
  fun w => ⟨fun _ e => some.inj e ▸ headerFits w, fun _ e => absent e⟩
theorem txnAbort (h : Pkt) : Statement (.txnAbort h) :=
  fun w => ⟨fun _ e => some.inj e ▸ headerFits w, fun _ e => absent e⟩
theorem txnTimeout (company : Nat) : Statement (.txnTimeout company) :=
  fun _ => ⟨fun _ e => absent e, fun _ e => absent e⟩
theorem coCreate (h : Pkt) (company : BitVec 4) (function : BitVec 5) : Statement (.coCreate h company function) :=
  fun w => ⟨fun _ e => some.inj e ▸ headerFits w, fun _ e => absent e⟩
theorem coDestroy (h : Pkt) (company : BitVec 4) : Statement (.coDestroy h company) :=
  fun w => ⟨fun _ e => some.inj e ▸ headerFits w, fun _ e => absent e⟩
theorem coGrant (h : Pkt) (company : BitVec 4) (kind : BitVec 4) (first : Word) (count : Word) (extra : DWord) : Statement (.coGrant h company kind first count extra) :=
  fun w => ⟨fun _ e => some.inj e ▸ headerFits w, fun _ e => absent e⟩
theorem coReturn (h : Pkt) (company : BitVec 4) (kind : BitVec 4) (port : BitVec 3) : Statement (.coReturn h company kind port) :=
  fun w => ⟨fun _ e => some.inj e ▸ headerFits w, fun _ e => absent e⟩
theorem coRelease (h : Pkt) (master : BitVec 2) (id : BitVec 16) : Statement (.coRelease h master id) :=
  fun w => ⟨fun _ e => some.inj e ▸ headerFits w, fun _ e => absent e⟩
theorem smInfo (h : Pkt) : Statement (.smInfo h) :=
  fun w => ⟨fun _ e => some.inj e ▸ headerFits w, fun _ e => absent e⟩
theorem smTelemetry (h : Pkt) (queue : BitVec 13) (queueGen : BitVec 8) (periodMs : BitVec 10) : Statement (.smTelemetry h queue queueGen periodMs) :=
  fun w => ⟨fun _ e => some.inj e ▸ headerFits w, fun _ e => absent e⟩
theorem smFwStage (h : Pkt) (imageAddr : BitVec 48) (length : Word) : Statement (.smFwStage h imageAddr length) :=
  fun w => ⟨fun _ e => some.inj e ▸ headerFits w, fun _ e => absent e⟩
theorem smFwSwitch (h : Pkt) : Statement (.smFwSwitch h) :=
  fun w => ⟨fun _ e => some.inj e ▸ headerFits w, fun _ e => absent e⟩
theorem smFwFallback : Statement .smFwFallback :=
  fun _ => ⟨fun _ e => absent e, fun _ e => absent e⟩
theorem smReset (h : Pkt) : Statement (.smReset h) :=
  fun w => ⟨fun _ e => some.inj e ▸ headerFits w, fun _ e => absent e⟩
theorem smLockstepMismatch (pairF : Bool) : Statement (.smLockstepMismatch pairF) :=
  fun _ => ⟨fun _ e => absent e, fun _ e => absent e⟩
theorem smWatchdogExpiry (pairF : Bool) : Statement (.smWatchdogExpiry pairF) :=
  fun _ => ⟨fun _ e => absent e, fun _ e => absent e⟩
theorem smRestartReady : Statement .smRestartReady :=
  fun _ => ⟨fun _ e => absent e, fun _ e => absent e⟩
theorem smRemoval (h : Pkt) (grant : Bool) : Statement (.smRemoval h grant) :=
  fun w => ⟨fun _ e => some.inj e ▸ headerFits w, fun _ e => absent e⟩
theorem errInject (h : Pkt) (source : BitVec 16) (cls : BitVec 2) (code : BitVec 16) (company : BitVec 4) : Statement (.errInject h source cls code company) :=
  fun w => ⟨fun _ e => some.inj e ▸ headerFits w, fun _ e => absent e⟩
theorem pwrCapSet (h : Pkt) (capW : BitVec 12) : Statement (.pwrCapSet h capW) :=
  fun w => ⟨fun _ e => some.inj e ▸ headerFits w, fun _ e => absent e⟩
theorem pwrFixedOp (h : Pkt) (op : BitVec 3) : Statement (.pwrFixedOp h op) :=
  fun w => ⟨fun _ e => some.inj e ▸ headerFits w, fun _ e => absent e⟩
theorem pwrNvSet (h : Pkt) (ageing : Bool) : Statement (.pwrNvSet h ageing) :=
  fun w => ⟨fun _ e => some.inj e ▸ headerFits w, fun _ e => absent e⟩
theorem rprMark (h : Pkt) (phys : BitVec 10) (kind : BitVec 2) (addr : Word) : Statement (.rprMark h phys kind addr) :=
  fun w => ⟨fun _ e => some.inj e ▸ headerFits w, fun _ e => absent e⟩
theorem rprPolicy (h : Pkt) (threshold : BitVec 8) (window : BitVec 16) : Statement (.rprPolicy h threshold window) :=
  fun w => ⟨fun _ e => some.inj e ▸ headerFits w, fun _ e => absent e⟩
theorem islCallSheet (h : Pkt) (sheetAddr : BitVec 48) (sheetBytes : Word) : Statement (.islCallSheet h sheetAddr sheetBytes) :=
  fun w => ⟨fun _ e => some.inj e ▸ headerFits w, fun _ e => absent e⟩
theorem islOverride (h : Pkt) (port : BitVec 3) (set : Bool) : Statement (.islOverride h port set) :=
  fun w => ⟨fun _ e => some.inj e ▸ headerFits w, fun _ e => absent e⟩
theorem islRoot (h : Pkt) : Statement (.islRoot h) :=
  fun w => ⟨fun _ e => some.inj e ▸ headerFits w, fun _ e => absent e⟩
theorem doorbell (function : Nat) (n : Nat) (value : Word) (host : List (Nat × BitVec 512)) : Statement (.doorbell function n value host) :=
  fun _ => ⟨fun _ e => absent e, fun _ e => absent e⟩
theorem queueEnable (function : Nat) (n : Nat) (value : DWord) : Statement (.queueEnable function n value) :=
  fun _ => ⟨fun _ e => absent e, fun _ e => absent e⟩
theorem queueDisable (function : Nat) (n : Nat) (value : DWord) : Statement (.queueDisable function n value) :=
  fun _ => ⟨fun _ e => absent e, fun _ e => absent e⟩
theorem synCtrAdd (function : Nat) (n : Nat) (value : DWord) : Statement (.synCtrAdd function n value) :=
  fun _ => ⟨fun _ e => absent e, fun _ e => absent e⟩
theorem synCtrReset (function : Nat) (n : Nat) (value : DWord) : Statement (.synCtrReset function n value) :=
  fun _ => ⟨fun _ e => absent e, fun _ e => absent e⟩
theorem watchArm (function : Nat) (n : Nat) (value : DWord) : Statement (.watchArm function n value) :=
  fun _ => ⟨fun _ e => absent e, fun _ e => absent e⟩
theorem watchDisarm (function : Nat) (n : Nat) (value : DWord) : Statement (.watchDisarm function n value) :=
  fun _ => ⟨fun _ e => absent e, fun _ e => absent e⟩
theorem cipKeyWrite (function : Nat) (value : Word) : Statement (.cipKeyWrite function value) :=
  fun _ => ⟨fun _ e => absent e, fun _ e => absent e⟩
theorem sealedModeEnter (function : Nat) : Statement (.sealedModeEnter function) :=
  fun _ => ⟨fun _ e => absent e, fun _ e => absent e⟩
theorem openModeLock (function : Nat) : Statement (.openModeLock function) :=
  fun _ => ⟨fun _ e => absent e, fun _ e => absent e⟩
theorem errFatalOccClear (function : Nat) (value : DWord) : Statement (.errFatalOccClear function value) :=
  fun _ => ⟨fun _ e => absent e, fun _ e => absent e⟩
theorem coreResidueRowsRead (function : Nat) (window : Nat) : Statement (.coreResidueRowsRead function window) :=
  fun _ => ⟨fun _ e => absent e, fun _ e => absent e⟩
theorem errDropsRead (function : Nat) : Statement (.errDropsRead function) :=
  fun _ => ⟨fun _ e => absent e, fun _ e => absent e⟩
theorem registerWrite (function : Nat) (offset : Nat) (wide : Bool) (value : DWord) : Statement (.registerWrite function offset wide value) :=
  fun _ => ⟨fun _ e => absent e, fun _ e => absent e⟩
theorem functionLevelReset (function : Nat) : Statement (.functionLevelReset function) :=
  fun _ => ⟨fun _ e => absent e, fun _ e => absent e⟩
theorem vfEnable : Statement .vfEnable :=
  fun _ => ⟨fun _ e => absent e, fun _ e => absent e⟩
theorem perstAssert : Statement .perstAssert :=
  fun _ => ⟨fun _ e => absent e, fun _ e => absent e⟩
theorem perstRelease : Statement .perstRelease :=
  fun _ => ⟨fun _ e => absent e, fun _ e => absent e⟩
theorem dmaHostToDram (queue : Nat) (descriptor : BitVec 512) : Statement (.dmaHostToDram queue descriptor) :=
  fun _ => ⟨fun _ e => absent e, fun _ e => absent e⟩
theorem dmaDramToHost (queue : Nat) (descriptor : BitVec 512) : Statement (.dmaDramToHost queue descriptor) :=
  fun _ => ⟨fun _ e => absent e, fun _ e => absent e⟩
theorem dmaComplete (queue : Nat) : Statement (.dmaComplete queue) :=
  fun _ => ⟨fun _ e => absent e, fun _ e => absent e⟩
theorem hostCplTimeout (function : Nat) (slot : Nat) : Statement (.hostCplTimeout function slot) :=
  fun _ => ⟨fun _ e => absent e, fun _ e => absent e⟩
theorem hostLateCpl (function : Nat) (slot : Nat) : Statement (.hostLateCpl function slot) :=
  fun _ => ⟨fun _ e => absent e, fun _ e => absent e⟩
theorem readSlotQuarantineEnd (slot : Nat) : Statement (.readSlotQuarantineEnd slot) :=
  fun _ => ⟨fun _ e => absent e, fun _ e => absent e⟩
theorem streamProgress (queue : Nat) (ended : Bool) : Statement (.streamProgress queue ended) :=
  fun _ => ⟨fun _ e => absent e, fun _ e => absent e⟩
theorem syncIncrementApply : Statement .syncIncrementApply :=
  fun _ => ⟨fun _ e => absent e, fun _ e => absent e⟩
theorem run (core : Nat) (cycle : Nat) (slot : DWord) : Statement (.run core cycle slot) :=
  fun w => ⟨fun _ e => absent e, fun _ e => some.inj e ▸ coreFits (and_left w)⟩
theorem drain (core : Nat) (cycle : Nat) (slot : DWord) : Statement (.drain core cycle slot) :=
  fun w => ⟨fun _ e => absent e, fun _ e => some.inj e ▸ coreFits (and_left w)⟩
theorem vadd (core : Nat) (cycle : Nat) (slot : DWord) : Statement (.vadd core cycle slot) :=
  fun w => ⟨fun _ e => absent e, fun _ e => some.inj e ▸ coreFits (and_left w)⟩
theorem vsub (core : Nat) (cycle : Nat) (slot : DWord) : Statement (.vsub core cycle slot) :=
  fun w => ⟨fun _ e => absent e, fun _ e => some.inj e ▸ coreFits (and_left w)⟩
theorem vmul (core : Nat) (cycle : Nat) (slot : DWord) : Statement (.vmul core cycle slot) :=
  fun w => ⟨fun _ e => absent e, fun _ e => some.inj e ▸ coreFits (and_left w)⟩
theorem vfma (core : Nat) (cycle : Nat) (slot : DWord) : Statement (.vfma core cycle slot) :=
  fun w => ⟨fun _ e => absent e, fun _ e => some.inj e ▸ coreFits (and_left w)⟩
theorem vmax (core : Nat) (cycle : Nat) (slot : DWord) : Statement (.vmax core cycle slot) :=
  fun w => ⟨fun _ e => absent e, fun _ e => some.inj e ▸ coreFits (and_left w)⟩
theorem vmin (core : Nat) (cycle : Nat) (slot : DWord) : Statement (.vmin core cycle slot) :=
  fun w => ⟨fun _ e => absent e, fun _ e => some.inj e ▸ coreFits (and_left w)⟩
theorem vabs (core : Nat) (cycle : Nat) (slot : DWord) : Statement (.vabs core cycle slot) :=
  fun w => ⟨fun _ e => absent e, fun _ e => some.inj e ▸ coreFits (and_left w)⟩
theorem vneg (core : Nat) (cycle : Nat) (slot : DWord) : Statement (.vneg core cycle slot) :=
  fun w => ⟨fun _ e => absent e, fun _ e => some.inj e ▸ coreFits (and_left w)⟩
theorem vcmp (core : Nat) (cycle : Nat) (slot : DWord) : Statement (.vcmp core cycle slot) :=
  fun w => ⟨fun _ e => absent e, fun _ e => some.inj e ▸ coreFits (and_left w)⟩
theorem vsel (core : Nat) (cycle : Nat) (slot : DWord) : Statement (.vsel core cycle slot) :=
  fun w => ⟨fun _ e => absent e, fun _ e => some.inj e ▸ coreFits (and_left w)⟩
theorem vbcast (core : Nat) (cycle : Nat) (slot : DWord) : Statement (.vbcast core cycle slot) :=
  fun w => ⟨fun _ e => absent e, fun _ e => some.inj e ▸ coreFits (and_left w)⟩
theorem vfnRegister (core : Nat) (cycle : Nat) (slot : DWord) : Statement (.vfnRegister core cycle slot) :=
  fun w => ⟨fun _ e => absent e, fun _ e => some.inj e ▸ coreFits (and_left w)⟩
theorem vagenDesc (core : Nat) (cycle : Nat) (slot : DWord) : Statement (.vagenDesc core cycle slot) :=
  fun w => ⟨fun _ e => absent e, fun _ e => some.inj e ▸ coreFits (and_left w)⟩
theorem vwiden (core : Nat) (cycle : Nat) (slot : DWord) : Statement (.vwiden core cycle slot) :=
  fun w => ⟨fun _ e => absent e, fun _ e => some.inj e ▸ coreFits (and_left w)⟩
theorem vcast (core : Nat) (cycle : Nat) (slot : DWord) : Statement (.vcast core cycle slot) :=
  fun w => ⟨fun _ e => absent e, fun _ e => some.inj e ▸ coreFits (and_left w)⟩
theorem vrowstat (core : Nat) (cycle : Nat) (slot : DWord) : Statement (.vrowstat core cycle slot) :=
  fun w => ⟨fun _ e => absent e, fun _ e => some.inj e ▸ coreFits (and_left w)⟩
theorem vfnRow (core : Nat) (cycle : Nat) (slot : DWord) : Statement (.vfnRow core cycle slot) :=
  fun w => ⟨fun _ e => absent e, fun _ e => some.inj e ▸ coreFits (and_left w)⟩
theorem vsmmax (core : Nat) (cycle : Nat) (slot : DWord) : Statement (.vsmmax core cycle slot) :=
  fun w => ⟨fun _ e => absent e, fun _ e => some.inj e ▸ coreFits (and_left w)⟩
theorem vsmexp (core : Nat) (cycle : Nat) (slot : DWord) : Statement (.vsmexp core cycle slot) :=
  fun w => ⟨fun _ e => absent e, fun _ e => some.inj e ▸ coreFits (and_left w)⟩
theorem vsmnorm (core : Nat) (cycle : Nat) (slot : DWord) : Statement (.vsmnorm core cycle slot) :=
  fun w => ⟨fun _ e => absent e, fun _ e => some.inj e ▸ coreFits (and_left w)⟩
theorem vagenTable (core : Nat) (cycle : Nat) (slot : DWord) : Statement (.vagenTable core cycle slot) :=
  fun w => ⟨fun _ e => absent e, fun _ e => some.inj e ▸ coreFits (and_left w)⟩
theorem vld (core : Nat) (cycle : Nat) (slot : DWord) : Statement (.vld core cycle slot) :=
  fun w => ⟨fun _ e => absent e, fun _ e => some.inj e ▸ coreFits (and_left w)⟩
theorem vst (core : Nat) (cycle : Nat) (slot : DWord) : Statement (.vst core cycle slot) :=
  fun w => ⟨fun _ e => absent e, fun _ e => some.inj e ▸ coreFits (and_left w)⟩
theorem send (core : Nat) (cycle : Nat) (slot : DWord) : Statement (.send core cycle slot) :=
  fun w => ⟨fun _ e => absent e, fun _ e => some.inj e ▸ coreFits (and_left w)⟩
theorem loop (core : Nat) (cycle : Nat) (slot : DWord) : Statement (.loop core cycle slot) :=
  fun w => ⟨fun _ e => absent e, fun _ e => some.inj e ▸ coreFits (and_left w)⟩
theorem msetld (core : Nat) (cycle : Nat) (slot : DWord) : Statement (.msetld core cycle slot) :=
  fun w => ⟨fun _ e => absent e, fun _ e => some.inj e ▸ coreFits (and_left w)⟩
theorem cdld (core : Nat) (cycle : Nat) (slot : DWord) : Statement (.cdld core cycle slot) :=
  fun w => ⟨fun _ e => absent e, fun _ e => some.inj e ▸ coreFits (and_left w)⟩
theorem sinc (core : Nat) (cycle : Nat) (slot : DWord) : Statement (.sinc core cycle slot) :=
  fun w => ⟨fun _ e => absent e, fun _ e => some.inj e ▸ coreFits (and_left w)⟩
theorem partend (core : Nat) (cycle : Nat) (slot : DWord) : Statement (.partend core cycle slot) :=
  fun w => ⟨fun _ e => absent e, fun _ e => some.inj e ▸ coreFits (and_left w)⟩
theorem nop (core : Nat) (cycle : Nat) (position : BitVec 2) (slot : DWord) : Statement (.nop core cycle position slot) :=
  fun w => ⟨fun _ e => absent e, fun _ e => some.inj e ▸ coreFits (and_left w)⟩
theorem stepBoundary (company : Nat) : Statement (.stepBoundary company) :=
  fun _ => ⟨fun _ e => absent e, fun _ e => absent e⟩
theorem epochBoundary (company : Nat) : Statement (.epochBoundary company) :=
  fun _ => ⟨fun _ e => absent e, fun _ e => absent e⟩
theorem barrierResume (company : Nat) (waitNs : Nat) : Statement (.barrierResume company waitNs) :=
  fun _ => ⟨fun _ e => absent e, fun _ e => absent e⟩
theorem markerSend (company : Nat) (port : BitVec 3) : Statement (.markerSend company port) :=
  fun _ => ⟨fun _ e => absent e, fun _ e => absent e⟩
theorem markerReceive (company : Nat) (port : BitVec 3) (epoch : Word) : Statement (.markerReceive company port epoch) :=
  fun _ => ⟨fun _ e => absent e, fun _ e => absent e⟩
theorem holdEnter (company : Nat) : Statement (.holdEnter company) :=
  fun _ => ⟨fun _ e => absent e, fun _ e => absent e⟩
theorem releaseReceive (company : Nat) (port : BitVec 3) (entry : BitVec 12) (step : BitVec 16) : Statement (.releaseReceive company port entry step) :=
  fun _ => ⟨fun _ e => absent e, fun _ e => absent e⟩
theorem holdResume (company : Nat) (heldNs : Nat) (guardNs : Nat) : Statement (.holdResume company heldNs guardNs) :=
  fun _ => ⟨fun _ e => absent e, fun _ e => absent e⟩
theorem holdLong (company : Nat) : Statement (.holdLong company) :=
  fun _ => ⟨fun _ e => absent e, fun _ e => absent e⟩
theorem curtainPost (company : Nat) : Statement (.curtainPost company) :=
  fun _ => ⟨fun _ e => absent e, fun _ e => absent e⟩
theorem rmonReportLanded (company : Nat) : Statement (.rmonReportLanded company) :=
  fun _ => ⟨fun _ e => absent e, fun _ e => absent e⟩
theorem recastPhaseStart (company : Nat) : Statement (.recastPhaseStart company) :=
  fun _ => ⟨fun _ e => absent e, fun _ e => absent e⟩
theorem reshardPhaseEnd (company : Nat) : Statement (.reshardPhaseEnd company) :=
  fun _ => ⟨fun _ e => absent e, fun _ e => absent e⟩
theorem dramStageAccess (channel : Nat) (slot : Nat) (cmd : DramCmd) : Statement (.dramStageAccess channel slot cmd) :=
  fun _ => ⟨fun _ e => absent e, fun _ e => absent e⟩
theorem dramRefresh (channel : Nat) (slot : Nat) : Statement (.dramRefresh channel slot) :=
  fun _ => ⟨fun _ e => absent e, fun _ e => absent e⟩
theorem extraRefresh (channel : Nat) (elapsed : Nat) : Statement (.extraRefresh channel elapsed) :=
  fun _ => ⟨fun _ e => absent e, fun _ e => absent e⟩
theorem wingsAccess (channel : Nat) (slot : Nat) (req : WingsReq) (stageSoon : Bool) : Statement (.wingsAccess channel slot req stageSoon) :=
  fun _ => ⟨fun _ e => absent e, fun _ e => absent e⟩
theorem flyCommandStart (engine : Nat) : Statement (.flyCommandStart engine) :=
  fun _ => ⟨fun _ e => absent e, fun _ e => absent e⟩
theorem meshLineArrival (core : Nat) (cycle : Nat) : Statement (.meshLineArrival core cycle) :=
  fun _ => ⟨fun _ e => absent e, fun _ e => absent e⟩
theorem collectiveChunkStart (company : Nat) (plan : BitVec 16) : Statement (.collectiveChunkStart company plan) :=
  fun _ => ⟨fun _ e => absent e, fun _ e => absent e⟩
theorem torusLineSend (company : Nat) (port : BitVec 3) (cycle : Nat) : Statement (.torusLineSend company port cycle) :=
  fun _ => ⟨fun _ e => absent e, fun _ e => absent e⟩
theorem torusLineReceive (company : Nat) (port : BitVec 3) (plan : BitVec 16) (seq : BitVec 16) (sendCycle : BitVec 16) (payload : Line) (crc : Word) (place : LinePlace) : Statement (.torusLineReceive company port plan seq sendCycle payload crc place) :=
  fun _ => ⟨fun _ e => absent e, fun _ e => absent e⟩
theorem torusLineHandover (company : Nat) (port : BitVec 3) (cycle : Nat) : Statement (.torusLineHandover company port cycle) :=
  fun _ => ⟨fun _ e => absent e, fun _ e => absent e⟩
theorem curtainTailDelivered (company : Nat) : Statement (.curtainTailDelivered company) :=
  fun _ => ⟨fun _ e => absent e, fun _ e => absent e⟩
theorem collectiveChunkDone (company : Nat) (plan : BitVec 16) : Statement (.collectiveChunkDone company plan) :=
  fun _ => ⟨fun _ e => absent e, fun _ e => absent e⟩
theorem updShardStart (engine : Nat) : Statement (.updShardStart engine) :=
  fun _ => ⟨fun _ e => absent e, fun _ e => absent e⟩
theorem updGradientLine (engine : Nat) : Statement (.updGradientLine engine) :=
  fun _ => ⟨fun _ e => absent e, fun _ e => absent e⟩
theorem updLineEnter (engine : Nat) : Statement (.updLineEnter engine) :=
  fun _ => ⟨fun _ e => absent e, fun _ e => absent e⟩
theorem updElementExit (engine : Nat) : Statement (.updElementExit engine) :=
  fun _ => ⟨fun _ e => absent e, fun _ e => absent e⟩
theorem formPass (company : Nat) : Statement (.formPass company) :=
  fun _ => ⟨fun _ e => absent e, fun _ e => absent e⟩
theorem formDone (company : Nat) : Statement (.formDone company) :=
  fun _ => ⟨fun _ e => absent e, fun _ e => absent e⟩
theorem sealComplete (company : Nat) : Statement (.sealComplete company) :=
  fun _ => ⟨fun _ e => absent e, fun _ e => absent e⟩
theorem cfxParcelReceive (farPort : Bool) (company : Nat) (datagram : List Byte) : Statement (.cfxParcelReceive farPort company datagram) :=
  fun _ => ⟨fun _ e => absent e, fun _ e => absent e⟩
theorem cfxAckReceive (farPort : Bool) (company : Nat) (datagram : List Byte) : Statement (.cfxAckReceive farPort company datagram) :=
  fun _ => ⟨fun _ e => absent e, fun _ e => absent e⟩
theorem cfxDecideReceive (farPort : Bool) (company : Nat) (datagram : List Byte) : Statement (.cfxDecideReceive farPort company datagram) :=
  fun _ => ⟨fun _ e => absent e, fun _ e => absent e⟩
theorem cfxSnapReceive (farPort : Bool) (company : Nat) (datagram : List Byte) : Statement (.cfxSnapReceive farPort company datagram) :=
  fun _ => ⟨fun _ e => absent e, fun _ e => absent e⟩
theorem cfxAckTimer (company : Nat) : Statement (.cfxAckTimer company) :=
  fun _ => ⟨fun _ e => absent e, fun _ e => absent e⟩
theorem cfxRetransmit (company : Nat) (site : Nat) (segment : Nat) : Statement (.cfxRetransmit company site segment) :=
  fun _ => ⟨fun _ e => absent e, fun _ e => absent e⟩
theorem cfxHardExpiry (company : Nat) : Statement (.cfxHardExpiry company) :=
  fun _ => ⟨fun _ e => absent e, fun _ e => absent e⟩
theorem farDecision (company : Nat) : Statement (.farDecision company) :=
  fun _ => ⟨fun _ e => absent e, fun _ e => absent e⟩
theorem gatewayDecided (company : Nat) : Statement (.gatewayDecided company) :=
  fun _ => ⟨fun _ e => absent e, fun _ e => absent e⟩
theorem gatewayUndecided (company : Nat) : Statement (.gatewayUndecided company) :=
  fun _ => ⟨fun _ e => absent e, fun _ e => absent e⟩
theorem openComplete (company : Nat) : Statement (.openComplete company) :=
  fun _ => ⟨fun _ e => absent e, fun _ e => absent e⟩
theorem applyPass (company : Nat) : Statement (.applyPass company) :=
  fun _ => ⟨fun _ e => absent e, fun _ e => absent e⟩
theorem snapshotBlock (company : Nat) : Statement (.snapshotBlock company) :=
  fun _ => ⟨fun _ e => absent e, fun _ e => absent e⟩
theorem snapshotReadsDone (company : Nat) : Statement (.snapshotReadsDone company) :=
  fun _ => ⟨fun _ e => absent e, fun _ e => absent e⟩
theorem snapshotStreamEnd (company : Nat) : Statement (.snapshotStreamEnd company) :=
  fun _ => ⟨fun _ e => absent e, fun _ e => absent e⟩
theorem cipherMessageStart (channel : Nat) : Statement (.cipherMessageStart channel) :=
  fun _ => ⟨fun _ e => absent e, fun _ e => absent e⟩
theorem cipherSliceEnd : Statement .cipherSliceEnd :=
  fun _ => ⟨fun _ e => absent e, fun _ e => absent e⟩
theorem cipherTagReady (channel : Nat) : Statement (.cipherTagReady channel) :=
  fun _ => ⟨fun _ e => absent e, fun _ e => absent e⟩
theorem portLightDetected (port : BitVec 3) : Statement (.portLightDetected port) :=
  fun _ => ⟨fun _ e => absent e, fun _ e => absent e⟩
theorem portLightLoss (port : BitVec 3) : Statement (.portLightLoss port) :=
  fun _ => ⟨fun _ e => absent e, fun _ e => absent e⟩
theorem portTrainingDone (port : BitVec 3) (ok : Bool) : Statement (.portTrainingDone port ok) :=
  fun _ => ⟨fun _ e => absent e, fun _ e => absent e⟩
theorem identityReceive (port : BitVec 3) (serial : DWord) (island : Word) (coord : Word) (nport : BitVec 4) : Statement (.identityReceive port serial island coord nport) :=
  fun _ => ⟨fun _ e => absent e, fun _ e => absent e⟩
theorem identitySend (port : BitVec 3) : Statement (.identitySend port) :=
  fun _ => ⟨fun _ e => absent e, fun _ e => absent e⟩
theorem latencyMeasured (port : BitVec 3) (exchanges : List (Nat × Nat)) : Statement (.latencyMeasured port exchanges) :=
  fun _ => ⟨fun _ e => absent e, fun _ e => absent e⟩
theorem lockFrameReceive (port : BitVec 3) (state : BitVec 3) (hops : BitVec 8) (childBit : Bool) : Statement (.lockFrameReceive port state hops childBit) :=
  fun _ => ⟨fun _ e => absent e, fun _ e => absent e⟩
theorem relockDone : Statement .relockDone :=
  fun _ => ⟨fun _ e => absent e, fun _ e => absent e⟩
theorem lockHoldover : Statement .lockHoldover :=
  fun _ => ⟨fun _ e => absent e, fun _ e => absent e⟩
theorem houseFrameSend (period : Nat) : Statement (.houseFrameSend period) :=
  fun _ => ⟨fun _ e => absent e, fun _ e => absent e⟩
theorem houseFrameReceive (port : BitVec 3) (epoch : DWord) (minimum : BitVec 3) : Statement (.houseFrameReceive port epoch minimum) :=
  fun _ => ⟨fun _ e => absent e, fun _ e => absent e⟩
theorem houseEpochBoundary : Statement .houseEpochBoundary :=
  fun _ => ⟨fun _ e => absent e, fun _ e => absent e⟩
theorem laneSignalLoss (port : BitVec 3) (lane : BitVec 5) : Statement (.laneSignalLoss port lane) :=
  fun _ => ⟨fun _ e => absent e, fun _ e => absent e⟩
theorem laneRateCheck (port : BitVec 3) (lane : BitVec 5) (corrected : Nat) (codewords : Nat) : Statement (.laneRateCheck port lane corrected codewords) :=
  fun _ => ⟨fun _ e => absent e, fun _ e => absent e⟩
theorem laneSwapStart (port : BitVec 3) : Statement (.laneSwapStart port) :=
  fun _ => ⟨fun _ e => absent e, fun _ e => absent e⟩
theorem aprEnter (port : BitVec 3) : Statement (.aprEnter port) :=
  fun _ => ⟨fun _ e => absent e, fun _ e => absent e⟩
theorem aprPulse (port : BitVec 3) : Statement (.aprPulse port) :=
  fun _ => ⟨fun _ e => absent e, fun _ e => absent e⟩
theorem censusRoundStart : Statement .censusRoundStart :=
  fun _ => ⟨fun _ e => absent e, fun _ e => absent e⟩
theorem censusStartReceive (port : BitVec 3) (round : Nat) (revision : Word) : Statement (.censusStartReceive port round revision) :=
  fun _ => ⟨fun _ e => absent e, fun _ e => absent e⟩
theorem censusSumReceive (port : BitVec 3) (members : Nat) (ready : Nat) (disagree : Nat) : Statement (.censusSumReceive port members ready disagree) :=
  fun _ => ⟨fun _ e => absent e, fun _ e => absent e⟩
theorem censusResultReceive (port : BitVec 3) (revision : Word) (ready : Nat) (disagree : Nat) : Statement (.censusResultReceive port revision ready disagree) :=
  fun _ => ⟨fun _ e => absent e, fun _ e => absent e⟩
theorem censusRoundAbandon : Statement .censusRoundAbandon :=
  fun _ => ⟨fun _ e => absent e, fun _ e => absent e⟩
theorem errorRecord : Statement .errorRecord :=
  fun _ => ⟨fun _ e => absent e, fun _ e => absent e⟩
theorem errorGroupClose : Statement .errorGroupClose :=
  fun _ => ⟨fun _ e => absent e, fun _ e => absent e⟩
theorem telemetryTick (company : Nat) (meanMw : Word) : Statement (.telemetryTick company meanMw) :=
  fun _ => ⟨fun _ e => absent e, fun _ e => absent e⟩
theorem decimationUpdate (busy : BitVec 8) (serviceNs : Nat) : Statement (.decimationUpdate busy serviceNs) :=
  fun _ => ⟨fun _ e => absent e, fun _ e => absent e⟩
theorem powerEstimateTick (rawW : Nat) (energy : List (Nat × Nat)) : Statement (.powerEstimateTick rawW energy) :=
  fun _ => ⟨fun _ e => absent e, fun _ e => absent e⟩
theorem powerMeasureTick (inputW : BitVec 16) (railW : BitVec 16) (rawMeanW : Nat) : Statement (.powerMeasureTick inputW railW rawMeanW) :=
  fun _ => ⟨fun _ e => absent e, fun _ e => absent e⟩
theorem thermalSample (die : Int) (sensor : BitVec 8) (dram : Int) (stack : Nat) : Statement (.thermalSample die sensor dram stack) :=
  fun _ => ⟨fun _ e => absent e, fun _ e => absent e⟩
theorem thermalCeilingTick (above : Bool) : Statement (.thermalCeilingTick above) :=
  fun _ => ⟨fun _ e => absent e, fun _ e => absent e⟩
theorem droopEvent (cycles : Nat) : Statement (.droopEvent cycles) :=
  fun _ => ⟨fun _ e => absent e, fun _ e => absent e⟩
theorem railTrimTick (slackAbove : Bool) : Statement (.railTrimTick slackAbove) :=
  fun _ => ⟨fun _ e => absent e, fun _ e => absent e⟩
theorem vinBandChange (millivolts : BitVec 16) : Statement (.vinBandChange millivolts) :=
  fun _ => ⟨fun _ e => absent e, fun _ e => absent e⟩
theorem pwrInputLoss (millivolts : BitVec 16) (microseconds : Nat) : Statement (.pwrInputLoss millivolts microseconds) :=
  fun _ => ⟨fun _ e => absent e, fun _ e => absent e⟩
theorem powerGood : Statement .powerGood :=
  fun _ => ⟨fun _ e => absent e, fun _ e => absent e⟩
theorem selftestDone (result : BootEnd) : Statement (.selftestDone result) :=
  fun _ => ⟨fun _ e => absent e, fun _ e => absent e⟩
theorem repairApplicationDone (result : BootEnd) : Statement (.repairApplicationDone result) :=
  fun _ => ⟨fun _ e => absent e, fun _ e => absent e⟩
theorem firmwareReady (imageBoots : Bool) : Statement (.firmwareReady imageBoots) :=
  fun _ => ⟨fun _ e => absent e, fun _ e => absent e⟩
theorem moduleReset : Statement .moduleReset :=
  fun _ => ⟨fun _ e => absent e, fun _ e => absent e⟩
theorem repairDone (company : Nat) : Statement (.repairDone company) :=
  fun _ => ⟨fun _ e => absent e, fun _ e => absent e⟩
theorem understudyRetest (dieE : Bool) (failed : Option Nat) : Statement (.understudyRetest dieE failed) :=
  fun _ => ⟨fun _ e => absent e, fun _ e => absent e⟩
theorem attnShortPress : Statement .attnShortPress :=
  fun _ => ⟨fun _ e => absent e, fun _ e => absent e⟩
theorem attnLongPress : Statement .attnLongPress :=
  fun _ => ⟨fun _ e => absent e, fun _ e => absent e⟩
theorem mailboxFrame (kind : BitVec 8) (payload : List Byte) (crc : Word) : Statement (.mailboxFrame kind payload crc) :=
  fun _ => ⟨fun _ e => absent e, fun _ e => absent e⟩
theorem prompterHelp : Statement .prompterHelp :=
  fun _ => ⟨fun _ e => absent e, fun _ e => absent e⟩
theorem prompterId : Statement .prompterId :=
  fun _ => ⟨fun _ e => absent e, fun _ e => absent e⟩
theorem prompterStatus : Statement .prompterStatus :=
  fun _ => ⟨fun _ e => absent e, fun _ e => absent e⟩
theorem prompterLog (n : Option Nat) : Statement (.prompterLog n) :=
  fun _ => ⟨fun _ e => absent e, fun _ e => absent e⟩
theorem prompterFatal : Statement .prompterFatal :=
  fun _ => ⟨fun _ e => absent e, fun _ e => absent e⟩
theorem prompterPorts : Statement .prompterPorts :=
  fun _ => ⟨fun _ e => absent e, fun _ e => absent e⟩
theorem prompterLocate (on : Bool) : Statement (.prompterLocate on) :=
  fun _ => ⟨fun _ e => absent e, fun _ e => absent e⟩
theorem prompterBaud (n : Nat) : Statement (.prompterBaud n) :=
  fun _ => ⟨fun _ e => absent e, fun _ e => absent e⟩
theorem prompterSmreset : Statement .prompterSmreset :=
  fun _ => ⟨fun _ e => absent e, fun _ e => absent e⟩
theorem prompterPeek (offset : Nat) : Statement (.prompterPeek offset) :=
  fun _ => ⟨fun _ e => absent e, fun _ e => absent e⟩
theorem smbusStatusRead : Statement .smbusStatusRead :=
  fun _ => ⟨fun _ e => absent e, fun _ e => absent e⟩
theorem smbusTempRead : Statement .smbusTempRead :=
  fun _ => ⟨fun _ e => absent e, fun _ e => absent e⟩
theorem smbusPowerRead : Statement .smbusPowerRead :=
  fun _ => ⟨fun _ e => absent e, fun _ e => absent e⟩
theorem smbusSerialRead : Statement .smbusSerialRead :=
  fun _ => ⟨fun _ e => absent e, fun _ e => absent e⟩
theorem smbusLocateWrite (value : Byte) : Statement (.smbusLocateWrite value) :=
  fun _ => ⟨fun _ e => absent e, fun _ e => absent e⟩
theorem smbusAlertResponse : Statement .smbusAlertResponse :=
  fun _ => ⟨fun _ e => absent e, fun _ e => absent e⟩
theorem smbusBusTimeout : Statement .smbusBusTimeout :=
  fun _ => ⟨fun _ e => absent e, fun _ e => absent e⟩
theorem commandBadOpcode (h : Pkt) (opcode : BitVec 16) : Statement (.commandBadOpcode h opcode) :=
  fun w => ⟨fun _ e => some.inj e ▸ headerFits w, fun _ e => absent e⟩
theorem farPortDown (port : Bool) : Statement (.farPortDown port) :=
  fun _ => ⟨fun _ e => absent e, fun _ e => absent e⟩
theorem farPortLinkUp (port : Bool) : Statement (.farPortLinkUp port) :=
  fun _ => ⟨fun _ e => absent e, fun _ e => absent e⟩
theorem probeReceive (port : BitVec 3) (turnaround : Nat) : Statement (.probeReceive port turnaround) :=
  fun _ => ⟨fun _ e => absent e, fun _ e => absent e⟩
theorem swapHandshakeReceive (port : BitVec 3) (lane : BitVec 5) : Statement (.swapHandshakeReceive port lane) :=
  fun _ => ⟨fun _ e => absent e, fun _ e => absent e⟩
theorem currentLimitTrip : Statement .currentLimitTrip :=
  fun _ => ⟨fun _ e => absent e, fun _ e => absent e⟩
theorem fwStageComplete : Statement .fwStageComplete :=
  fun _ => ⟨fun _ e => absent e, fun _ e => absent e⟩
theorem serviceSideReset : Statement .serviceSideReset :=
  fun _ => ⟨fun _ e => absent e, fun _ e => absent e⟩
theorem svc3v3Loss : Statement .svc3v3Loss :=
  fun _ => ⟨fun _ e => absent e, fun _ e => absent e⟩
theorem jtagAccess (tck : Bool) (tms : Bool) (tdi : Bool) (trstN : Bool) : Statement (.jtagAccess tck tms tdi trstN) :=
  fun _ => ⟨fun _ e => absent e, fun _ e => absent e⟩

end Sys2Proof.Laws.Units
end

