-- ==== Sys2Proof/Laws/Slots.lean ====
section
/-!
SUPPORT. What a bundle slot does (R127 to R143): it issues with its effect, as a reserved slot, or not at all; what a vector operation
over the elements of a register lands; and which cell one step of a run can change.
-/

namespace Sys2Proof.Machine

/-! ### A slot -/

section
variable {s t : State} {p cycle slot : Nat} {w : DWord} {f : SlotCtx → Core → DWord → Option Core}

/-- A slot that its core has ready has its effect, or runs as a reserved slot, and is marked as issued. -/
theorem slotOutcome_issues (hp : p < 850) (hi : s.slotReady p cycle slot w = some t) :
    slotOutcome s p cycle slot w f = .next (t.slotNext p slot (fun c => c.issue slot (fun c => f (t.slotCtx p) c w))) := by
  simp [slotOutcome, hp, State.slotOn, hi, State.slotNext]

/-- A slot whose word is no reserved one has its effect `g` on the core. -/
theorem slotOutcome_effect {g : Core → Core} (hp : p < 850) (hi : s.slotReady p cycle slot w = some t)
    (h : ∀ c, f (t.slotCtx p) c w = some (g c)) :
    slotOutcome s p cycle slot w f = .next (t.slotNext p slot g) := by
  rw [slotOutcome_issues hp hi]; simp [Core.issue, h, State.slotNext]

/-- A slot whose word is reserved runs as a NOP that is noted (R130). -/
theorem slotOutcome_reserved (hp : p < 850) (hi : s.slotReady p cycle slot w = some t) (h : ∀ c, f (t.slotCtx p) c w = none) :
    slotOutcome s p cycle slot w f = .next (t.slotNext p slot (fun c => c.reserved slot)) := by
  rw [slotOutcome_issues hp hi]; simp [Core.issue, h, State.slotNext]

/-- A slot that its core does not issue at the cycle changes nothing. -/
theorem slotOutcome_idle (hp : p < 850) (hi : s.slotReady p cycle slot w = none) : slotOutcome s p cycle slot w f = .next s := by
  simp [slotOutcome, hp, State.slotOn, hi]
end

/-! ### Folds and landings -/

/-- A property that every step of a fold keeps holds at its end. -/
theorem foldl_keeps {α β : Type} (P : β → Prop) (f : β → α → β) (l : List α) (b : β) (h0 : P b) (h : ∀ b a, a ∈ l → P b → P (f b a)) :
    P (l.foldl f b) := by
  induction l generalizing b with
  | nil => exact h0
  | cons x l ih => exact ih _ (h _ _ (by simp) h0) (fun b a ha => h b a (by simp [ha]))

/-- Landing one element result per element appends one landing per element, in order. -/
theorem Core.land_elements (d c : Core) (hd : d.cycle = c.cycle) (l : List Nat) (lat reg : Nat) (off : Nat → Nat) (bs : Nat → List Byte) :
    l.foldl (fun (d : Core) e => d.land (c.cycle + lat) 1 (.vreg reg (off e) (bs e))) d =
      { d with landings := d.landings ++ l.map (fun e => ⟨c.cycle + lat, 1, .vreg reg (off e) (bs e)⟩) } := by
  induction l generalizing d with
  | nil => simp
  | cons x l ih =>
    simp only [List.foldl_cons, List.map_cons]
    rw [ih _ (by simpa [Core.land] using hd)]
    simp [Core.land]

/-! ### Runs -/

/-- One cell step of a run changes no cell but its own (R41). -/
theorem Core.cellStep_cells (c : Core) (r : Run) (t a i j key : Nat) (h : key ≠ cellKey r.win a i j) :
    tget {} (c.cellStep r t a i j).1.cells key = tget {} c.cells key := by
  simp only [Core.cellStep]
  split
  · rfl
  · simp only []
    rw [tget_tset, if_neg h]
    split <;> rfl

end Sys2Proof.Machine
end

