-- ==== Sys2Proof/Tests/Slice0.lean ====
section
/-!
SUPPORT. Tests: an ill-formed command for each check of well-formedness, a state and operands that meet the hypotheses of each statement
(each clause of it), and single commands whose results come from the spec or from the published test vectors of the standards it names.
-/

namespace Sys2Proof.Tests

open Machine

-- one test after the other: together they would need more threads than a check may have
set_option Elab.async false

/-! ### Small states -/

/-- A module in PHASE 0x3 with a link, virtual functions, a ready stage manager, and the house's queues 0 (commands, two entries waiting,
paired with queue 1) and 1 (completions). -/
def up : State :=
  { State.reset with
    boot := { phase := 3, powerGood := true, railsUp := true, perst := false, pcieUp := true, vfEnable := true, dramUp := true },
    sm := { ready := true, mode := .running },
    svc := { powered := true },
    queues := [(0, { enable := true, typ := 1, pair := 1, base := 1, tail := 2 }), (1, { enable := true, typ := 3, base := 2 })] }

/-- A house command on queue 0. -/
def pkt : Pkt := { queue := 0, flags := 0, company := 0, reserved := 0, length := 64, tag := 7, txn := 0 }

/-- A command as the host lays it out: the header, then the payload from byte 0x40 (R383). -/
def hostBytes (h : Pkt) (opcode : BitVec 16) (payload : Nat) : List Byte :=
  leBytes 2 opcode.toNat ++ leBytes 2 h.flags.toNat ++ [BitVec.ofNat 8 h.company, BitVec.ofNat 8 h.reserved] ++ leBytes 2 h.length ++
    leBytes 4 h.tag.toNat ++ leBytes 4 h.txn.toNat ++ leBytes 48 0 ++ leBytes 64 payload

/-- `s` with a command at the head of queue 0, of which the module has fetched nothing yet. -/
def withCommand (s : State) (h : Pkt) (opcode : BitVec 16) (payload : Nat) : State :=
  { s with hostMem := mwrite [] 0x1000 (hostBytes h opcode payload) }

def host (s : State) (i : Instr) : State :=
  (Instr.hostForm i).elim s (fun f => withCommand s f.1 f.2.1 (packBits f.2.2.1))

/-- The host command `i` is served in full on `s`, in a state in which `p` holds. -/
def served (s : State) (i : Instr) (p : State → Bool) : Bool := ((host s i).serving i).elim false (fun x => p x.2)

/-- The house's script runs on one core. -/
def running : State :=
  { up with cos := [(0, { present := true, rect := some { row0 := 0, col0 := 0, rows := 1, cols := 1 }, quarters := 1,
                          seq := { state := .running } })],
            cores := [(0, { gated := false, ended := false })] }

/-- A slot word from (lowest bit, value) pairs. -/
def slotWord (fs : List (Nat × Nat)) : DWord := BitVec.ofNat 64 (fs.foldl (fun a f => a + f.2 * 2 ^ f.1) 0)

/-- Company 1 beside the house, on virtual function 1, with a queue range, counters, watches, key slots and channels. -/
def company1 : Co :=
  { present := true, function := 1, quarters := 2, queues := some { first := 16, count := 16 }, counters := some { first := 8, count := 8 },
    watches := some { first := 8, count := 8 }, keySlots := some { first := 8, count := 8 }, chans := some { first := 8, count := 8 } }

/-! ### Well-formedness -/

theorem test_wf_packet : Instr.wf (.smInfo { pkt with queue := 32768 }) = false ∧ Instr.wf (.smInfo { pkt with company := 256 }) = false ∧
    Instr.wf (.smInfo { pkt with length := 65536 }) = false ∧ Instr.wf (.smInfo pkt) = true := by decide
/-- A function above 16. -/
theorem test_wf_function : (
    [.doorbell 17 0 0 [], .queueEnable 17 0 0, .queueDisable 17 0 0, .synCtrAdd 17 0 0, .synCtrReset 17 0 0, .watchArm 17 0 0,
      .watchDisarm 17 0 0, .cipKeyWrite 17 0, .sealedModeEnter 17, .openModeLock 17, .errFatalOccClear 17 0, .coreResidueRowsRead 17 0,
      .errDropsRead 17, .registerWrite 17 0 false 0, .functionLevelReset 17, .hostCplTimeout 17 0, .hostLateCpl 17 0] : List Instr).all (fun i => !i.wf) = true := by decide +kernel

/-- A company above 15. -/
theorem test_wf_company : (
    [.txnTimeout 16, .stepBoundary 16, .epochBoundary 16, .barrierResume 16 0, .markerSend 16 0, .markerReceive 16 0 0, .holdEnter 16,
      .releaseReceive 16 0 0 0, .holdResume 16 0 0, .holdLong 16, .curtainPost 16, .rmonReportLanded 16, .recastPhaseStart 16,
      .reshardPhaseEnd 16, .collectiveChunkStart 16 0, .torusLineSend 16 0 0, .torusLineReceive 16 0 0 0 0 0 0 ⟨0, 0, false, 0⟩,
      .torusLineHandover 16 0 0, .curtainTailDelivered 16, .collectiveChunkDone 16 0, .formPass 16, .formDone 16, .sealComplete 16,
      .cfxParcelReceive false 16 [], .cfxAckReceive false 16 [], .cfxDecideReceive false 16 [], .cfxSnapReceive false 16 [],
      .cfxAckTimer 16, .cfxRetransmit 16 0 0, .cfxHardExpiry 16, .farDecision 16, .gatewayDecided 16, .gatewayUndecided 16,
      .openComplete 16, .applyPass 16, .snapshotBlock 16, .snapshotReadsDone 16, .snapshotStreamEnd 16, .telemetryTick 16 0,
      .repairDone 16] : List Instr).all (fun i => !i.wf) = true := by decide +kernel

/-- A core that does not exist, and a slot whose opcode is not the command's own. -/
theorem test_wf_core : (
    [.run 850 0 (slotWord [(58, 1)]), .run 0 0 0, .drain 850 0 (slotWord [(58, 2)]), .drain 0 0 0, .vadd 850 0 (slotWord [(58, 1)]),
      .vadd 0 0 0, .vsub 850 0 (slotWord [(58, 2)]), .vsub 0 0 0, .vmul 850 0 (slotWord [(58, 3)]), .vmul 0 0 0,
      .vfma 850 0 (slotWord [(58, 4)]), .vfma 0 0 0, .vmax 850 0 (slotWord [(58, 5)]), .vmax 0 0 0, .vmin 850 0 (slotWord [(58, 6)]),
      .vmin 0 0 0, .vabs 850 0 (slotWord [(58, 7)]), .vabs 0 0 0, .vneg 850 0 (slotWord [(58, 8)]), .vneg 0 0 0,
      .vcmp 850 0 (slotWord [(58, 9)]), .vcmp 0 0 0, .vsel 850 0 (slotWord [(58, 10)]), .vsel 0 0 0, .vbcast 850 0 (slotWord [(58, 11)]),
      .vbcast 0 0 0, .vfnRegister 850 0 (slotWord [(58, 12)]), .vfnRegister 0 0 0, .vagenDesc 850 0 (slotWord [(58, 13)]),
      .vagenDesc 0 0 0, .vwiden 850 0 (slotWord [(58, 32)]), .vwiden 0 0 0, .vcast 850 0 (slotWord [(58, 33)]), .vcast 0 0 0,
      .vrowstat 850 0 (slotWord [(58, 34)]), .vrowstat 0 0 0, .vfnRow 850 0 (slotWord [(58, 35)]), .vfnRow 0 0 0,
      .vsmmax 850 0 (slotWord [(58, 36)]), .vsmmax 0 0 0, .vsmexp 850 0 (slotWord [(58, 37)]), .vsmexp 0 0 0,
      .vsmnorm 850 0 (slotWord [(58, 38)]), .vsmnorm 0 0 0, .vagenTable 850 0 (slotWord [(58, 39)]), .vagenTable 0 0 0,
      .vld 850 0 (slotWord [(58, 1)]), .vld 0 0 0, .vst 850 0 (slotWord [(58, 2)]), .vst 0 0 0, .send 850 0 (slotWord [(58, 3)]),
      .send 0 0 0, .loop 850 0 (slotWord [(58, 1)]), .loop 0 0 0, .msetld 850 0 (slotWord [(58, 2)]), .msetld 0 0 0,
      .cdld 850 0 (slotWord [(58, 3)]), .cdld 0 0 0, .sinc 850 0 (slotWord [(58, 4)]), .sinc 0 0 0, .partend 850 0 (slotWord [(58, 5)]),
      .partend 0 0 0, .nop 850 0 0 0, .nop 0 0 0 (slotWord [(58, 1)]), .nop 0 0 1 (slotWord [(58, 3)]), .nop 0 0 2 (slotWord [(58, 32)]),
      .nop 0 0 3 (slotWord [(58, 2)])] : List Instr).all (fun i => !i.wf) = true := by decide +kernel

/-- An index past the last unit of its kind. -/
theorem test_wf_unit : (
    [.doorbell 0 32768 0 [], .doorbell 0 0 0 [(32, 0)], .queueEnable 0 32768 0, .queueDisable 0 32768 0, .synCtrAdd 0 8192 0, .synCtrReset 0 8192 0,
      .watchArm 0 16384 0, .watchDisarm 0 16384 0, .coreResidueRowsRead 0 850, .registerWrite 0 67108864 false 0, .dmaHostToDram 32768 0,
      .dmaDramToHost 32768 0, .dmaComplete 32768, .hostCplTimeout 0 2048, .hostLateCpl 0 2048, .readSlotQuarantineEnd 2048,
      .streamProgress 32768 false, .dramStageAccess 384 0 (.precharge 0), .dramRefresh 384 0, .extraRefresh 384 0,
      .wingsAccess 384 0 ⟨.bar2 0, 0, none⟩ false, .flyCommandStart 48, .meshLineArrival 850 0, .updShardStart 48, .updGradientLine 48,
      .updLineEnter 48, .updElementExit 48, .cfxRetransmit 0 16 0, .cipherMessageStart 256, .cipherTagReady 256,
      .thermalSample 0 0 0 12, .prompterPeek 67108864] : List Instr).all (fun i => !i.wf) = true := by decide +kernel

/-- Descriptors of the other operation, unaligned registers, frames that are too long, and numbers the Prompter refuses. -/
theorem test_wf_other : (
    [.registerWrite 0 2 false 0, .dmaHostToDram 0 0, .dmaDramToHost 0 0, .cfxParcelReceive false 0 (List.replicate 9217 0),
      .cfxAckReceive false 0 (List.replicate 9217 0), .cfxDecideReceive false 0 (List.replicate 9217 0),
      .cfxSnapReceive false 0 (List.replicate 9217 0), .mailboxFrame 0 (List.replicate 249 0) 0, .prompterLog (some 0),
      .prompterLog (some 65), .latencyMeasured 0 [(1, 0)], .prompterBaud 9600, .prompterPeek 2] : List Instr).all (fun i => !i.wf) = true := by decide +kernel

/-! ### Witnesses: rings, memories, services and replies -/

theorem test_witness_EveryStepKeepsInvariant : up.Inv ∧ step { up with pending := [.vfEnable] } = .next { up with pending := [] } := by
  refine ⟨⟨⟨?_, ?_⟩, ?_, ?_, ?_, ?_⟩, rfl⟩ <;> decide +kernel

theorem test_witness_StepRunsFrontCommand : State.reset.pending = [] := rfl

theorem test_witness_NoCommandTouchesFusesOrQueue : exec .vfEnable up = .next up ∧ step { up with pending := [.vfEnable] } = .next up :=
  ⟨rfl, rfl⟩

theorem test_witness_MemoryWriteThenRead : (0 < 5 ∨ 5 + 2 ≤ 0) ∧ (7 < 5 ∨ 5 + 2 ≤ 7) ∧ Memory.wf (mwrite [] 5 [1, 2]) = true ∧
    ∀ a : Nat, mbyte ([] : Mem) a = mbyte ([] : Mem) a := by
  exact ⟨by decide, by decide, by decide +kernel, fun _ => rfl⟩

/-- A completion ring with one entry left, one that is full, one for which an entry waits, and one in DRAM. -/
theorem test_witness_ModuleWritesRingEntryOrWaits :
    ((up.queue 1).enable = true ∧ (up.queue 1).loc = false ∧ (up.queue 1).full = false ∧ (up.queue 1).waiting = [] ∧
      (List.replicate 63 (0 : Byte)).length ≤ 63) ∧
    (let s := up.modQueue 1 (fun q => { q with tail := 16 })
     (s.queue 1).enable = true ∧ (s.queue 1).count = 2 ^ (s.queue 1).depthLog2.toNat) ∧
    (let s := up.modQueue 1 (fun q => { q with waiting := [([], none)], loc := true })
     (s.queue 1).enable = true ∧ (s.queue 1).waiting ≠ [] ∧ (s.queue 1).loc = true) := by decide +kernel

theorem test_witness_HostCommandsServedUnderTheirOpcode :
    (Instr.hostForm (.txnAbort pkt)).isSome = true ∧ (Instr.hostForm (.smInfo pkt)).isSome = true ∧ (up.boot.phase ≠ 4 ∨ up.sm.ready = true) ∧
      State.reset.boot.phase ≠ 4 := by decide +kernel

/-- Each row of checks at its first failing value: the command stands at the head of the list, on a module whose transaction `o` is open. -/
def checking (h : Pkt) (opcode : BitVec 16) (payload : Nat) (p : State → Journal → Bool) : Bool :=
  let o : OpenTxn := ⟨5, false, 10, 0, []⟩
  let s := up.modCo 0 (fun c => { c with txn := { c.txn with opened := some o, aborted := [6] } })
  let f := (withCommand s h opcode payload).fetch h.queue
  (f.turnOf h opcode []).elim false (fun j => p f j)

/-- The house's command before a company's, and a full list. -/
def fetching (n : Nat) : State :=
  let j : Journal := { pkt := { pkt with queue := if n = 16 then 5 else 20 }, payload := 0, gen := 0, opcode := 3, txn := 0 }
  withCommand { (up.modCo 1 (fun _ => company1)) with sm := { up.sm with journal := List.replicate n j } } pkt 0x0003 0

/-- Each row of checks at its first failing value. -/
theorem test_witness_HostCommandChecksInOrder :
    (State.reset.fetch 0).turnOf pkt 0x0003 [] = none ∧
    checking pkt 0x0003 0 (fun _ j => decide (j.payload < 2 ^ fieldBits [])) = true ∧
    checking { pkt with length := 257 } 0x0003 0 (fun _ _ => true) = true ∧ checking pkt 0x0003 1 (fun _ j => decide (2 ^ fieldBits [] ≤ j.payload)) = true ∧
    checking { pkt with company := 1 } 0x0003 0 (fun f _ => decide (1 ≠ f.queueCo 0)) = true ∧
    ([(6 : Word), 7, 5].all (fun t => checking { pkt with txn := t } 0x0003 0 (fun f _ =>
      (f.co 0).txn.opened.elim false (fun o => decide (o.id = 5)) && (f.co 0).txn.aborted.contains 6 && !(f.co 0).txn.aborted.contains 7))) = true := by
  refine ⟨by decide +kernel, by decide +kernel, by decide +kernel, by decide +kernel, by decide +kernel, by decide +kernel⟩

/-- A company's command; the house's command before a company's; a list with room, one with 16 of the house, one of 128. -/
theorem test_witness_HostCommandChecksInOrder_turn :
    (let s := { up with cos := (1, { present := true, function := 1, queues := some { first := 0, count := 2 } }) :: up.cos }
     let h := { pkt with company := 1 }
     let f := (withCommand s h 0x0003 0).fetch 0
     (f.turnOf h 0x0003 []).isSome && decide (h.company = f.queueCo h.queue) && decide (f.queueCo h.queue ≠ 0)) = true ∧
    (let js : List Journal := [16, 0].map (fun q => { pkt := { pkt with queue := q }, payload := 0, gen := 0, opcode := 3, txn := 0 })
     let s : State := { up with sm := { up.sm with journal := js } }
     decide ((s.modCo 1 (fun _ => company1)).turn = js[1]?) && decide (s.sm.lastCo < 16)) = true ∧
    ([0, 16, 128].all (fun n =>
      let s := fetching n
      s.fetchReady 0 && decide (s.atHead 0 = some (pkt, 0x0003, 0)) && decide (s.sm.list.length = n) &&
        decide ((s.sm.list.filter (fun i => s.queueCo i.pkt.queue = s.queueCo 0)).length = if n = 16 then 16 else 0))) = true := by
  refine ⟨by decide +kernel, by decide +kernel, by decide +kernel⟩

theorem test_witness_ReplyGoesToThePairedQueue :
    (bit ({ pkt with flags := 1 } : Pkt).flags 0 = true ∧ (0 : Byte) = 0) ∧ (up.queue pkt.queue).gen ≠ 1 ∧
    (¬ (bit pkt.flags 0 = true ∧ (0 : Byte) = 0) ∧ (up.queue pkt.queue).gen = 0 ∧
      up.absQueue (up.queueCo pkt.queue) (up.queue pkt.queue).pair.toNat = some 1 ∧ (up.queue 1).enable = true ∧ (up.queue 1).full = false ∧
      (up.queue 1).waiting = [] ∧ (up.queue 1).loc = false ∧ (List.replicate 16 (0 : Byte)).length ≤ 16 ∧
      (let s := up.modQueue 1 (fun q => { q with loc := true })
       s.absQueue (s.queueCo 0) (s.queue 0).pair.toNat = some 1 ∧ (s.queue 1).enable = true ∧ (s.queue 1).loc = true)) := by decide +kernel


/-! ### Witnesses: bundle slots -/

/-- The house's script on core 0, whose first bundle carries `w` at `position` and nothing else. -/
def issuing (position : Nat) (w : DWord) : State :=
  { running with cores := [(0, { gated := false, ended := false, part := [(0, w.setWidth 256 <<< (64 * position))] })] }

/-- Core 0 issues each of `ws` at `position` of its first bundle, in core cycle 0. -/
def issues (position : Nat) (ws : List DWord) : Bool := ws.all (fun w => ((issuing position w).slotReady 0 0 position w).isSome)

/-- RUN with the last lines, with the P4 pair and with the BF16 pair, and DRAIN at the last destination. -/
theorem test_witness_MatrixSlotCompletes :
    (let w := slotWord [(58, 1), (24, 81919), (7, 81919)]
     issues 3 [w] = true ∧ bits w 63 58 = 1 ∧ bit w 0 = false ∧ bits w 40 24 ≤ 81919 ∧ bits w 23 7 ≤ 81919 ∧ bits w 55 53 = 0) ∧
    (let w := slotWord [(58, 1), (53, 4)]
     issues 3 [w] = true ∧ bits w 63 58 = 1 ∧ bit w 0 = false ∧ bits w 55 53 = 4 ∧ bits w 52 48 = 0) ∧
    (let w := slotWord [(58, 1), (53, 5), (41, 4095)]
     issues 3 [w] = true ∧ bits w 63 58 = 1 ∧ bit w 0 = false ∧ bits w 55 53 = 5) ∧
    (let w := slotWord [(58, 2), (32, 1279)]
     issues 3 [w] = true ∧ bits w 63 58 = 2 ∧ bits w 55 43 = 0 ∧ bits w 42 32 < 1280) := by decide +kernel

/-- A run in its last cycle before the issue interval has elapsed, and in its first after. -/
theorem test_witness_RunTruncationAndEntryCycles :
    let r : Run := { c0 := 10, steps := 8, family := .fp8, actE5 := false, wtE5 := false, win := 0, opens := true, actLine := 0, wtLine := 0,
                     rowMask := 0, colMasks := [], limit := 8, reads := [], act := [], wt := [], logged := false }
    let c : Core := { runs := [r] }
    c.runs = r :: [] ∧ 17 < r.c0 + r.interval ∧ r.c0 + r.interval ≤ 18 ∧ (∃ d, c.issueDrain (slotWord [(58, 2)]) = some d) ∧
      0 ∈ r.stepsAt 16 0 0 := by
  refine ⟨rfl, by decide, by decide, ⟨_, rfl⟩, by decide⟩

theorem test_witness_InactiveCellsKeepAndDrainsSkipThem :
    let r : Run := { c0 := 0, steps := 1, family := .fp8, actE5 := false, wtE5 := false, win := 0, opens := true, actLine := 0, wtLine := 0,
                     rowMask := 0x7FFFFFFF, colMasks := [0xFFFFFFFE, 0, 0, 0], limit := 1, reads := [], act := [], wt := [], logged := false }
    r.win < 2 ∧ 1 ≠ r.win ∧ r.rowMask.getLsbD 31 = false ∧ (r.colMasks.getD 0 0).getLsbD 0 = false ∧
      ((0, 0, (List.range 64).map (fun k => decide (1 ≤ k ∧ k < 32))) : Nat × Nat × List Bool) ∈
        drainLines 1 ⟨0, 0, r.rowMask, r.colMasks⟩ := by decide +kernel

theorem test_witness_VectorArithmeticCompletes :
    issues 2 ((List.range 9).map (fun i => slotWord [(58, i + 1)])) = true ∧
    (∀ op, op ∈ [1, 2, 3, 4, 5, 6, 7, 8, 9] → registerForm op (slotWord [(58, op)])) ∧
    issues 2 [slotWord [(58, 9), (24, 3)]] = true ∧ bits (slotWord [(58, 9), (24, 3)]) 27 24 < 4 := by
  simp only [registerForm]; decide +kernel

theorem test_witness_VectorSelectAndFunctionComplete :
    issues 2 ([0x0A, 0x0B, 0x0C, 0x0D].map (fun op => slotWord [(58, op), (24, 1), (48, 62)])) = true ∧
    (∀ op, op ∈ [0x0A, 0x0B, 0x0C, 0x0D] → registerForm op (slotWord [(58, op), (24, 1), (48, 62)])) ∧
      fnDefined (bits (slotWord [(58, 0x0C), (24, 1), (48, 62)]) 27 24) = true ∧
      bits (slotWord [(58, 0x0D), (24, 1), (48, 62)]) 53 48 % 2 = 0 := by
  simp only [registerForm]; decide +kernel

/-- The eight row operations at the last lines; VCAST and VSMNORM with a descriptor whose target is a format. -/
theorem test_witness_RowOperationsStart :
    ([0x20, 0x21, 0x22, 0x23, 0x24, 0x25, 0x26, 0x27].all (fun op =>
      let w := slotWord [(58, op), (38, 81919), (21, 81919), (0, 1)]
      issues 2 [w] && decide (bits w 54 38 ≤ 81919 ∧ bits w 37 21 ≤ 81919 ∧ bits w 63 58 = op ∧ bits w 1 0 ≠ 3) && fnDefined (bits w 3 0))) = true ∧
    castTarget (tget 0 ({} : Core).cdescs 1) ≠ none ∧
    (let c : Core := { table := some (81919, 31) }
     c.table = some (81919, 31) ∧ c.seen = []) := by decide +kernel

theorem test_witness_MoveAndControlSlotsComplete :
    ([1, 2].all (fun op =>
      let w := slotWord [(58, op), (36, 81919)]
      issues 1 [w] && decide (bits w 63 58 = op ∧ bits w 35 0 = 0 ∧ bits w 52 36 ≤ 81919))) = true ∧
    (let w := slotWord [(58, 3), (41, 81919), (24, 81919)]
     issues 1 [w] = true ∧ bits w 63 58 = 3 ∧ bits w 5 0 = 0 ∧ bits w 57 41 ≤ 81919 ∧ bits w 40 24 ≤ 81919 ∧
       ((issuing 1 w).slotCtx 0).dest (bits w 23 19) (bits w 18 14) ≠ none) ∧
    (let w := slotWord [(58, 1), (30, 4095)]
     issues 0 [w] = true ∧ bits w 63 58 = 1 ∧ bits w 29 0 = 0) ∧
    (let w := slotWord [(58, 2), (41, 81919), (29, 63)]
     issues 0 [w] = true ∧ bits w 63 58 = 2 ∧ bits w 28 0 = 0 ∧ bits w 57 41 ≤ 81919) ∧
    (let w := slotWord [(58, 3), (41, 81919), (31, 31)]
     issues 0 [w] = true ∧ bits w 63 58 = 3 ∧ bits w 30 0 = 0 ∧ bits w 57 41 ≤ 81919) ∧
    (let w := slotWord [(58, 4), (21, 65535)]
     issues 0 [w] = true ∧ bits w 63 58 = 4 ∧ bits w 20 0 = 0) ∧
    (let w := slotWord [(58, 5)]
     issues 0 [w] = true ∧ bits w 63 58 = 5 ∧ bits w 57 0 = 0) ∧
    ((List.range 4).all (fun q => issues q [0]) = true ∧ bits (0 : DWord) 63 58 = 0) ∧
    (let c : Core := { vld := some (31, 81919), mop := some ⟨0, 81919, 0, 849, 1, 0⟩ }
     c.vld = some (31, 81919) ∧ c.mop = some ⟨0, 81919, 0, 849, 1, 0⟩ ∧ c.seen = []) := by decide +kernel

/-- The first reserved value of each kind, in each slot. -/
theorem test_witness_ReservedSlotRunsAsNop :
    issues 3 ([[(58, 1), (0, 1)], [(58, 1), (24, 81920)], [(58, 1), (7, 81920)], [(58, 1), (53, 6)], [(58, 1), (53, 4), (48, 1)],
      [(58, 2), (43, 1)], [(58, 2), (32, 1280)], [(58, 3)]].map slotWord) = true ∧
    issues 2 ([[(58, 1), (0, 1)], [(58, 9), (24, 4)], [(58, 12), (24, 15)], [(58, 13), (48, 1)], [(58, 33), (38, 81920)], [(58, 33), (21, 81920)],
      [(58, 32), (0, 3)], [(58, 35), (0, 15)], [(58, 40)]].map slotWord) = true ∧
    issues 1 ([[(58, 1), (35, 1)], [(58, 1), (36, 81920)], [(58, 3), (5, 1)], [(58, 3), (41, 81920)], [(58, 3), (24, 81920)], [(58, 3), (19, 1)],
      [(58, 4)]].map slotWord) = true ∧
    issues 0 ([[(58, 1), (29, 1)], [(58, 2), (28, 1)], [(58, 2), (41, 81920)], [(58, 3), (30, 1)], [(58, 3), (41, 81920)], [(58, 4), (20, 1)],
      [(58, 5), (57, 1)], [(58, 6)]].map slotWord) = true ∧
    (bit (slotWord [(0, 1)]) 0 = true ∧ 81919 < bits (slotWord [(24, 81920)]) 40 24 ∧ 81919 < bits (slotWord [(7, 81920)]) 23 7 ∧
      6 ≤ bits (slotWord [(53, 6)]) 55 53 ∧ bits (slotWord [(53, 4), (48, 1)]) 52 48 ≠ 0 ∧ bits (slotWord [(43, 1)]) 55 43 ≠ 0 ∧
      1280 ≤ bits (slotWord [(32, 1280)]) 42 32) ∧
    (bits (slotWord [(0, 1)]) 23 0 ≠ 0 ∧ 4 ≤ bits (slotWord [(24, 4)]) 27 24 ∧ fnDefined (bits (slotWord [(24, 15)]) 27 24) = false ∧
      bits (slotWord [(48, 1)]) 53 48 % 2 = 1 ∧ 81919 < bits (slotWord [(38, 81920)]) 54 38 ∧ 81919 < bits (slotWord [(21, 81920)]) 37 21 ∧
      bits (slotWord [(0, 3)]) 1 0 = 3 ∧ bits (slotWord [(0, 3)]) 9 5 ≠ 31 ∧ fnDefined (bits (slotWord [(0, 15)]) 3 0) = false) ∧
    (bits (slotWord [(35, 1)]) 35 0 ≠ 0 ∧ 81919 < bits (slotWord [(36, 81920)]) 52 36 ∧ bits (slotWord [(5, 1)]) 5 0 ≠ 0 ∧
      81919 < bits (slotWord [(41, 81920)]) 57 41 ∧ ((issuing 1 (slotWord [(58, 3), (19, 1)])).slotCtx 0).dest 1 0 = none) ∧
    (bits (slotWord [(29, 1)]) 29 0 ≠ 0 ∧ bits (slotWord [(28, 1)]) 28 0 ≠ 0 ∧ bits (slotWord [(30, 1)]) 30 0 ≠ 0 ∧
      bits (slotWord [(20, 1)]) 20 0 ≠ 0 ∧ bits (slotWord [(57, 1)]) 57 0 ≠ 0) := by
  refine ⟨by decide +kernel, by decide +kernel, by decide +kernel, by decide +kernel, by decide +kernel, by decide +kernel, by decide +kernel,
    by decide +kernel⟩

/-- A slot that its core does not issue, and one that it does.. -/
theorem test_witness_SlotFrame : slotOutcome up 0 0 0 0 (fun _ _ _ => none) = .next up ∧ up.slotReady 0 0 0 0 = none ∧
    ((issuing 0 0).slotReady 0 0 0 0).elim false (fun t => decide (t.coreCo 0 = 0)) = true := by
  refine ⟨rfl, by decide +kernel, by decide +kernel⟩

/-! ### Witnesses: scripts, holds and barriers -/

/-- A shard of engine 0 with 64 elements of one field. -/
def shard0 : Shard :=
  { engine := 0, program := 0, fields := 1, gbf16 := false, digest := true, nocopy := true, slot := 0, elements := 64, base := 0,
    bankA := 0x10000, bankB := 0x20000, copy := 0, tensor := 0, start := 0 }

/-- One update program of one FIN, one shard. -/
def updSec : UpdSection :=
  { initialBank := false, digestShards := 0, digestEvery := 1, digestPlan := 0, curtainPlan := 2, curtainChunk := 0, ctrIndex := 0, ctrGen := 0,
    headerA := 0x30000, headerB := 0x30400, tailRecord := 0x30800, digestSrc := 0, digestDst := 0, recastCycles := 100, recastFirst := 0,
    recastLast := 0, programs := [⟨1, false, 0, List.replicate 16 0, [0]⟩], shards := [shard0] }

/-- A chunk of two lines, and of none. -/
def chunk0 : Chunk :=
  { issue := 0, lines := 2, srcKind := 1, dstKind := 1, tail := false, dist := 1, src := 0, dst := 0, count := 2, send := true, recv := true }

def plan1 : Plan :=
  { id := 1, permute := false, format := 0, axes := [0], owned := false, ctrIndex := 0, ctrGen := 0, amount := 1, chunks := [chunk0] }

def hold0 : HoldEntry := ⟨10, 0, 0x80, 0, 0, 0, 5, 0⟩

/-- An image of one core, two holds, a sum plan and an update section. -/
def img : Image :=
  { addr := 0, length := 4864, coreCount := 1, rows := 1, cols := 1, axes := [2, 1, 1, 1], seed := 0, stepCycles := 1000,
    parts := [⟨0, 0, 0, 4096, 1⟩], fly := [], holds := [hold0, ⟨20, 1, 0, 0, 0, 0, 5, 0⟩], plans := [plan1], update := some updSec, initialOp := 7,
    phases := [], rmon := some ⟨0x40000, 2, 0, 0⟩, rmonSlots := [], masks := [], inputs := [], wings := [], backed := [] }

/-- The house's stage in a state of its sequencer, with lane 0 of port 0. -/
def stage (q : Seq) : State :=
  { up with cos := [(0, { present := true, rect := some { row0 := 0, col0 := 0, rows := 1, cols := 1 }, quarters := 1, lanes := [(0, 0, 1)],
                          seq := { q with image := some img } })] }

/-- Port 0 ACTIVE. -/
def port0 (s : State) (p : Port) : State := s.modPort 0 (fun _ => { p with state := .active })

/-- No chunk of the plan is still to start. -/
def calm (s : State) : State := s.modCo 0 (fun c => { c with col := { c.col with next := [(1, 1)] } })

/-- SCRIPT_LOAD of an address that holds no image; a start that is taken and those that are turned away; a stop in each state. -/
theorem test_witness_ScriptCommandsComplete :
    served up (.scriptLoad pkt 0 4864) (fun c => match checkImage c 0 0 4864 with | .ok _ => false | .error _ => true) = true ∧
    served (stage { state := .loaded }) (.scriptStart pkt 1 0 0) (fun c => decide ((c.co 0).seq.state = .loaded ∧ c.tor.houseEpoch < 1)) = true ∧
    served (stage { state := .loaded }) (.scriptStart pkt 0 0 0) (fun c => decide ((c.co 0).seq.state = .loaded ∧ (0 : DWord) ≤ c.tor.houseEpoch)) = true ∧
    ([ScriptState.empty, .armed, .running, .held, .stopped].all (fun st =>
      served (stage { state := st }) (.scriptStart pkt 1 0 0) (fun c => decide ((c.co 0).seq.state = st)) &&
        served (stage { state := st }) (.scriptStop pkt true) (fun c => decide ((c.co 0).seq.state = st)))) = true := by
  refine ⟨by decide +kernel, by decide +kernel, by decide +kernel, by decide +kernel⟩

theorem test_witness_LoadZeroesTheCompanysCores :
    img.parts ≠ [] ∧ (stage {}).relPhys 0 0 0 = some 0 ∧ (stage {}).relPhys 0 0 0 ≠ some 849 := by decide +kernel

theorem test_witness_ImmediateStopKeepsCommittedBank :
    let w : PostedWrite := ⟨64, [1, 2]⟩
    let s : State := (stage { state := .running }).modUpd 0 (fun x => { x with posted := [w] })
    (s.co 0).upd.posted = [w] ∧ (63 < w.addr ∨ w.addr + w.data.length ≤ 63) ∧ (66 < w.addr ∨ w.addr + w.data.length ≤ 66) ∧
      (s.stepRegions 0).all (fun r => decide (63 < r.1) || decide (r.1 + r.2 ≤ 63)) = true := by decide +kernel

/-- The last step before an epoch boundary, with no hold left in it. -/
theorem test_witness_StepBoundaryStartsStep :
    let s : State := calm (stage { state := .running, stageCycle := 65536 - 2, stepCycle := 998, nextHold := 2 })
    let q := (s.co 0).seq
    q.advancing = true ∧ q.cyclesLeft (s.co 0).upd.recastArmed = some 2 ∧ 2 ≤ 65536 * (q.epochs + 1) - q.stageCycle.toNat ∧
      q.cyclesToHold = none ∧
      (s.stageBy 0 2).elim false (fun u => !(u.co 0).seq.stopArmed && decide ((u.co 0).seq.phase = .step) && !(u.co 0).upd.recastArmed &&
        decide (u.coreList 0 = [0])) = true := by decide +kernel

/-- A boundary one cycle ahead with its marker held and missing, and a wait; a MARKER sent once by an armed and by a running script. -/
theorem test_witness_CueBarrierWaitsForMarkers :
    ([true, false].all (fun held =>
      let s : State := port0 (calm (stage { state := .running, stageCycle := 65535, nextHold := 2, marked := [0] })) { markers := if held then [(0, 1)] else [] }
      let q := (s.co 0).seq
      q.advancing && decide ((q.cyclesLeft (s.co 0).upd.recastArmed).elim true (fun m => decide (q.cyclesToEpoch ≤ m))) && decide (q.cyclesToHold = none) &&
        (s.stageBy 0 (65536 * (q.epochs + 1) - q.stageCycle.toNat)).elim false (fun u =>
          decide (u.activePorts 0 = [0]) && (((u.port 0).markers.contains (0, 1)) == held)))) = true ∧
    ([true, false].all (fun held =>
      let s : State := port0 (stage { state := .running, waiting := true, epochs := 1, waitPorts := [0] }) { markers := if held then [(0, 1)] else [] }
      let q := (s.co 0).seq
      q.waiting && decide (q.waitPorts = [0]) && ((s.port 0).markers.contains (0, q.marker q.epochs) == held))) = true ∧
    (let s : State := port0 (stage { state := .armed }) {}
     (s.unmarked 0).contains 0 = true ∧ (s.unmarked 0).contains 7 = false) ∧
    (let s : State := port0 (calm (stage { state := .running, stageCycle := 65300, nextHold := 2, stepCycle := 100 })) {}
     (s.unmarked 0).contains 0 = true ∧
       (s.stageFrom 0 (65536 - s.lead 0)).elim false (fun t => decide ((t.co 0).seq.state = .running)) = true) ∧
    (let s : State := port0 (stage { state := .running }) {}
     (s.activePorts 0).contains 0 = true ∧ (s.activePorts 0).contains 7 = false) := by
  refine ⟨by decide +kernel, by decide +kernel, by decide +kernel, by decide +kernel, by decide +kernel⟩

/-- The ends of the half circle of GE, and a counter that changes after the condition was met. -/
theorem test_witness_HoldConditionsAndTheirMemory :
    condHolds 0 0x7FFFFFFF 0 = true ∧ condHolds 0 0x80000000 0 = false ∧ condHolds 0 4 5 = false ∧ condHolds 1 5 5 = true ∧
      condHolds 2 0x80000001 0x80000000 = true ∧ condHolds 2 0x7FFFFFFF 0x80000000 = false ∧
      ((stage { state := .held, held := true, entry := 0, met := true }).co 0).seq.met = true := by decide +kernel

theorem test_witness_HoldEventsComplete :
    (let s : State := calm (stage { state := .running, stepCycle := 8 })
     let q := (s.co 0).seq
     q.cyclesToHold = some 2 ∧ q.image.bind (fun i => i.holds[q.nextHold]?) = some hold0 ∧ q.advancing = true ∧
       2 < 65536 * (q.epochs + 1) - q.stageCycle.toNat ∧ (q.cyclesLeft (s.co 0).upd.recastArmed).elim true (fun m => decide (2 < m)) = true ∧
       (s.stageBy 0 2).isSome = true) ∧
    (let s : State := port0 (stage { state := .held, held := true, pendingPorts := 0x80 }) {}
     let q := (s.co 0).seq
     (s.activePorts 0).contains 0 = true ∧ q.held = true ∧ q.entry = 0 ∧ (0 : BitVec 16) = BitVec.ofNat 16 q.step.toNat ∧
       (1 : BitVec 12) ≠ q.entry ∧ (0, (1 : BitVec 12), (0 : BitVec 16)) ∉ q.releases ∧ q.longLogged = false ∧
       q.hold = some hold0 ∧ q.met = false ∧ q.pendingPorts ≠ 0 ∧ s.nowNs < q.heldSince + 1000000 * 10000) ∧
    ([0, 1, 2, 3].all (fun kind =>
      let e : HoldEntry := ⟨10, kind, 0, 0, 0, 0, 5, 0⟩
      let s : State := (stage {}).modSeq 0 (fun q => { q with state := .held, held := true, met := true, image := some { img with holds := [e] } })
      decide ((s.co 0).seq.hold = some e ∧ (s.co 0).seq.met = true ∧ (s.co 0).seq.pendingPorts = 0 ∧ s.nowNs ≤ (s.co 0).seq.heldSince + 0))) = true ∧
    (let s : State := { stage { state := .held, held := true } with nowNs := 1000000 * 10000 }
     (s.co 0).seq.hold = some hold0 ∧ (s.co 0).seq.longLogged = false ∧ (s.co 0).seq.heldSince + 1000000 * 10000 ≤ s.nowNs) ∧
    (let s : State := ((stage { state := .running }).modUpd 0 (fun u => { u with curtainPostDue := true })).modCo 0
       (fun c => { c with mon := { c.mon with pending := [(5, 0, [1, 2])] } })
     (s.co 0).seq.image = some img ∧ img.update = some updSec ∧ (s.co 0).upd.curtainPostDue = true ∧ (s.co 0).seq.held = false ∧
       (s.co 0).seq.waiting = false ∧ img.rmon = some ⟨0x40000, 2, 0, 0⟩ ∧ (s.co 0).mon.pending = (5, 0, [1, 2]) :: []) := by
  refine ⟨by decide +kernel, by decide +kernel, by decide +kernel, by decide +kernel, by decide +kernel⟩

/-! ### Witnesses: the update engines and the curtain -/

/-- A committing tail of the image's two members, and one that misses a member. -/
theorem test_witness_CurtainFlipsBankOnlyOnCommit :
    ([2, 1].all (fun m =>
      let n := BitVec.ofNat 64 m
      let s : State := (stage { state := .running }).modUpd 0 (fun x => { x with tail := [0, 0, 0, n, 0], tailSeen := true, restored := true })
      let x := (s.co 0).upd
      decide ((s.co 0).seq.image = some img ∧ img.update = some updSec) && x.tailSeen && s.passComplete 0 updSec &&
        decide (x.faults.toNat ≤ x.placedFaults.toNat) &&
        (decide (x.tail.getD 0 0 = 0 ∧ x.tail.getD 1 0 = 0 ∧ x.tail.getD 2 0 = 0 ∧ (x.tail.getD 3 0).toNat = img.axes.foldl (· * ·) 1 ∧
          x.tail.getD 4 0 = 0) == decide (m = 2)))) = true := by decide +kernel

/-- The house's stage 300 cycles into its step, past its holds and with its chunk started. -/
def inStep (f : Seq → Seq) : State := calm (stage (f { state := .running, stageCycle := 300, stepCycle := 300, nextHold := 2 }))

/-- A shard that starts; the buffer at its last free line, full, and with no shard left; a line whose bank fields have been read; a line that
leaves the pipeline. -/
theorem test_witness_UpdateEngineEventsComplete :
    (let s : State := inStep id
     s.quarterOwner 0 = 0 ∧ s.shardNow 0 = some (updSec, shard0) ∧ (s.co 0).seq.phase = .step ∧ (s.engine 0).started = false ∧
       (s.stageFrom 0 ((s.co 0).seq.issueBase + shard0.start)).isSome = true) ∧
    ([(0, 8191), (0, 8192), (1, 0)].all (fun (x : Nat × Nat) =>
      let s : State := ((inStep id).modCol 0 (fun c => { c with forEngine := [(0, 9, 5)] })).modEngine 0 (fun e =>
        { e with shard := x.1, buffer := List.replicate x.2 (0, 0) })
      decide ((s.co 0).col.forEngine.find? (fun x => x.1 = 0) = some (0, 9, 5)) &&
        (s.stageFrom 0 9).elim false (fun t => decide (t.quarterOwner 0 = 0) && ((t.shardNow 0).isNone == decide (x.1 = 1)) &&
          !(t.engine 0).recast && (decide ((t.engine 0).buffer.length < 8192) == decide (x.2 < 8192))))) = true ∧
    (let s : State := (inStep id).modEngine 0 (fun e =>
       { e with buffer := [(0, 5)], units := (List.range 4).map (fun i => (i, some (0, 0))) })
     s.shardNow 0 = some (updSec, shard0) ∧ (s.engine 0).buffer = (0, 5) :: [] ∧ (s.engine 0).recast = false ∧
       (s.engine 0).entryCycle shard0 0 0 64 = some 1 ∧ (s.stageFrom 0 1).isSome = true) ∧
    (let l : PipeLine := { shard := 0, first := 0, grads := List.replicate 64 0, fields := [List.replicate 64 0], shift := [], entered := 1 }
     let s : State := (inStep id).modEngine 0 (fun e => { e with pipe := [l] })
     (s.engine 0).pipe = [l] ∧ s.updOf 0 = some updSec ∧ (updSec.shardsOf 0)[l.shard]? = some shard0 ∧
       (updSec.programs[shard0.program]?).isSome = true ∧ (s.stageFrom 0 l.leavesLast).isSome = true) ∧
    (let s : State := (inStep id).modCol 0 (fun c => { c with tail := some (9, 5) })
     (s.co 0).seq.image = some img ∧ img.update = some updSec ∧ (s.co 0).col.tail = some (9, 5) ∧ (s.stageFrom 0 9).isSome = true) ∧
    (let s : State := (inStep (fun q => { q with phase := .recast })).modUpd 0 (fun x => { x with recastArmed := true })
     (s.co 0).seq.phase = .recast ∧ (s.co 0).upd.recastArmed = true ∧ (s.co 0).seq.advancing = true) := by
  refine ⟨by decide +kernel, by decide +kernel, by decide +kernel, by decide +kernel, by decide +kernel, by decide +kernel⟩

/-- Element 64 of the first group on, field 3 of 4; two lanes of finite values through FIN; −1.0 and −0.0. -/
theorem test_witness_UpdateFieldsStayFiniteAndInTheirLayout :
    1 ≤ 4 ∧ 4 ≤ 4 ∧ 64 < (List.replicate 65 ([] : List Word)).length ∧ 3 < 4 ∧
    ([[0x7F7FFFFF#32, 0xFF7FFFFF#32], [0, 0x3F800000#32]].all (fun us => us.all (fun u => !(f32dec u).nonFinite))) = true ∧
    (updInstr false [] [] 0 [[0x7F7FFFFF#32, 0xFF7FFFFF#32], [0, 0x3F800000#32]]).isSome = true ∧
    (f32dec 0xBF800000#32).isZero = false ∧ (f32dec 0xBF800000#32).sign = true ∧ (f32dec 0xBF800000#32).nonFinite = false ∧
    (f32dec 0x80000000#32).isZero = true := by decide +kernel

/-! ### Witnesses: the collectives -/

/-- A torus line of plan 1. -/
def line1 (due : Nat) : TorLine :=
  { company := 0, plan := 1, place := ⟨0, 0, false, 0⟩, due := due, issue := 0, rank := 0, forwarded := false, data := 9 }

theorem test_witness_CollectiveEventsComplete :
    (let s : State := stage { state := .running }
     (s.co 0).plan 1 = some plan1 ∧ plan1.chunks[tget 0 (s.co 0).col.next 1]? = some chunk0 ∧ (s.co 0).seq.starting = false ∧
       (s.co 0).planRuns 1 = true ∧ (s.stageFrom 0 ((s.co 0).seq.issueBase + chunk0.issue)).isSome = true) ∧
    ([false, true].all (fun blank =>
      let l : TorLine := { line1 0 with blank := blank }
      let s : State := port0 (calm (stage { state := .running, stageCycle := 19, stepCycle := 19, nextHold := 2 })) { txq := [l] }
      decide (s.restoreOn true 0 0 = none) &&
        (s.stageAt 0 19).elim false (fun t => transmitAt ((t.co 0).laneCount 0) 19 && decide (tget 0 (t.port 0).sentAt 0 ≤ 19) &&
          decide (t.nextLine 0 0 19 = some l) && decide ((t.port 0).state = .active)))) = true ∧
    (let s : State := port0 (stage { state := .running }) { recv := List.replicate 191 (line1 2048), seqRx := [(0, 65535)] }
     (s.port 0).state = .active ∧ s.laneLost 0 0 = false ∧ s.restoreOn false 0 0 = none ∧ (s.co 0).onPort 0 = true ∧
       (65535 : BitVec 16) = tget 0 (s.port 0).seqRx 0 ∧ ((s.co 0).plan 1).isSome = true ∧
       ((s.port 0).recv.filter (fun l => l.company = 0)).length < 192 * (s.co 0).laneCount 0) ∧
    (let s : State := port0 (inStep id) { recv := [line1 300] }
     (s.port 0).recv.find? (fun l => decide (l.company = 0) && decide (l.due ≤ 300)) = some (line1 300) ∧ (line1 300).late = 0 ∧
       (s.stageAt 0 300).elim false (fun t => decide ((t.co 0).plan 1 = some plan1)) = true ∧ plan1.chunks[(line1 300).place.chunk]? = some chunk0) ∧
    (let a : ActiveChunk := { plan := 1, index := 0, chunk := chunk0, short := true, lastEvent := 298 }
     let s : State := (inStep id).modCol 0 (fun x => { x with active := [a] })
     (s.co 0).plan 1 = some plan1 ∧ (s.co 0).col.active.find? (fun a => a.plan = 1) = some a ∧ s.chunkEnded 0 plan1 a = true ∧
       (s.stageFrom 0 (a.lastEvent + 2)).elim false (fun t => decide ((t.co 0).seq.image = some img)) = true ∧ img.update = some updSec ∧
       updSec.digestPlan ≠ 1) ∧
    ([[], [{ plan1 with chunks := [] }]].all (fun ps =>
      let s : State := (stage { state := .running, phase := .reshard, phaseCycle := 65536 }).modCol 0 (fun x => { x with reshard := some (ps, 1, 0, 0) })
      decide ((s.co 0).col.reshard = some (ps, 1, 0, 0)) && decide ((s.co 0).seq.phase = .reshard) && decide (65536 * 1 ≤ (s.co 0).seq.phaseCycle) &&
        ps.all (fun p => decide ((s.co 0).col.missingOf p = 0)))) = true := by
  refine ⟨by decide +kernel, by decide +kernel, by decide +kernel, by decide +kernel, by decide +kernel, by decide +kernel⟩

/-- Three lines over an axis of two: the last shard of the + half, and its one line. -/
theorem test_witness_SumPartitionAndAddition :
    1 ≤ 2 ∧ plusHalf [4, 5, 6] = [4, 5] ∧ 1 < 2 ∧ 1 * [4, 5].length / 2 ≤ 1 ∧ 1 < (1 + 1) * [4, 5].length / 2 ∧ 63 < 64 ∧ 127 < 128 ∧ 31 < 32 := by
  decide +kernel

/-- A port that is not ACTIVE; lines with room and with none, of a plan that is known and of one that is not; a line handed over one cycle
late whose plan is not known. -/
theorem test_witness_TorusLineLossesCountFaults :
    (up.port 0).state ≠ .active ∧
    ([true, false].all (fun full =>
      let s : State := port0 (stage { state := .running }) { recv := List.replicate (if full then 192 else 191) (line1 2048) }
      decide ((s.port 0).state = .active) && !s.laneLost 0 0 && decide (s.restoreOn false 0 0 = none) && (s.co 0).onPort 0 &&
        decide ((s.co 0).plan 1 ≠ none) && decide ((s.co 0).plan 77 = none) &&
        (decide (((s.port 0).recv.filter (fun l => l.company = 0)).length < 192 * (s.co 0).laneCount 0) == !full))) = true ∧
    (let l : TorLine := { line1 300 with plan := 77, late := 1 }
     let s : State := port0 (inStep id) { recv := [l] }
     (s.port 0).recv.find? (fun l => decide (l.company = 0) && decide (l.due ≤ 300)) = some l ∧ 0 < l.late ∧
       (s.stageAt 0 300).elim false (fun u => decide ((u.co 0).plan 77 = none)) = true) := by
  refine ⟨by decide +kernel, by decide +kernel, by decide +kernel⟩

/-! ### Witnesses: staged commands and memory -/

def withDram (s : State) (a : Nat) (bs : List Byte) : State := { s with dram := mwrite s.dram a bs }

/-- The bank list of a company with one line at 0 and at 0x100. -/
def listBytes (k : Nat) : List Byte :=
  ascii "PV8B" ++ leBytes 4 1 ++ leBytes 8 1 ++ leBytes 8 0 ++ leBytes 8 0x100 ++ [BitVec.ofNat 8 k] ++ List.replicate 31 0 ++
    leBytes 8 0 ++ leBytes 8 0x100 ++ leBytes 4 1 ++ List.replicate 12 0

/-- The same list, read. -/
def list0 : BankList := { lines := 1, imageA := 0, imageB := 0x100, company := 0, coord := 0, records := [(0, 0x100, 1)] }

/-- A re-shard plan of one permute along T, of 256 lines from tile line 0 to tile line 1000. -/
def planBytes0 : List Byte :=
  leBytes 4 1 ++ leBytes 4 1 ++ leBytes 8 0 ++ [0x00, 0xF0, 0x02, 0x00, 0x00, 0x01, 0x00, 0x00] ++ leBytes 4 0 ++ leBytes 4 1 ++ leBytes 48 0 ++
    leBytes 32 (255 * 2 ^ 200 + 2 ^ 198 + 2 ^ 196 + 2 ^ 188 + 1000 * 2 ^ 92)

/-- A round table of two sites, one parcel of shard 0, one gateway; its holds are entry 0. -/
def tableBytes0 : List Byte :=
  ascii "PV8ROUND" ++ leBytes 4 7 ++ [0, 2, 0, 0] ++ leBytes 2 50 ++ [3, 1] ++ leBytes 8 0 ++ leBytes 4 0x3F800000 ++ leBytes 4 10 ++
    leBytes 4 10 ++ leBytes 2 0 ++ leBytes 2 1 ++ leBytes 20 0 ++ leBytes 4 1 ++ leBytes 36 0 ++ [2] ++ leBytes 23 0 ++
    leBytes 2 0 ++ [1, 0] ++ leBytes 4 1 ++ [0x40000, 0x50000, 0x60000, 0x70000, 0x80000].flatMap (leBytes 8) ++ leBytes 48 0

/-- The house's stage with an open curtain transaction 5, lanes on both ports of T, in sealed mode with channel 0 bound; entry 0 of its hold table is of KIND 0x3. -/
def staging : State :=
  let s := stage { state := .running }
  let s := { s with cip := { locked := true, sealedMode := true, chans := [(0, { bound := true, nonce := true })] } }
  s.modCo 0 (fun c => { c with
    lanes := [(0, 0, 1), (1, 0, 1)], txn := { c.txn with opened := some ⟨5, true, 10, 0, []⟩ },
    seq := { c.seq with image := some { img with holds := [⟨10, 3, 0, 0, 0, 0, 5, 0⟩] } } })

/-- Each command at its limits, in transaction 5; what its curtain needs. -/
theorem test_witness_StagedCurtainCommandsComplete :
    (let h : Pkt := { pkt with txn := 5 }
     h.txn ≠ 0 ∧
     served staging (.rmonSetScale h true 47 15 0xC0) (fun c => decide (c.queueCo 0 = 0)) = true ∧
     served staging (.rmonSetScale h false 0 0 0x3F) (fun c => decide (0 < c.grid)) = true ∧
     served staging (.updSetConst h 0 15 0x7F7FFFFF#32) (fun c => (c.co 0).seq.image.elim false (fun im => decide (im.update = some updSec))) = true ∧
     served (withDram staging 0x8000 planBytes0) (.colReshard h 0x8000 112 255 8191 0) (fun c => decide (reshardCheck 0x8000 112 255 8191 c 0 = none)) = true ∧
     served (withDram staging 0x9000 (listBytes 0)) (.pakSnapSet h true 1 0x9000 0 1 0 0x1FF#9 true 2)
       (fun c => decide (snapCheck 1 0x9000 0 1 0 0x1FF#9 true 2 c 0 = none)) = true ∧
     served staging (.farRun h 0 0 false) (fun c => decide (farCheck 0 0 false c 0 = none)) = true ∧
     served (withDram staging 0x9000 tableBytes0) (.farRun h 0x9000 224 true) (fun c => decide (farCheck 0x9000 224 true c 0 = none)) = true) ∧
    ((-64 : Int) ≤ (0xC0#8).toInt ∧ (0x3F#8).toInt ≤ 63 ∧ (f32dec 0x7F7FFFFF#32).nonFinite = false ∧ 0 < updSec.programs.length) ∧
    (let k1 : State := staging.modCo 1 (fun _ => { company1 with rect := some { row0 := 0, col0 := 0, rows := 1, cols := 2 } })
     (k1.co 1).quarters.getLsbD 1 = true ∧ ((k1.co 1).rect.elim false (fun r => decide (1 / 32 < r.rows) && decide (1 % 32 < r.cols))) = true ∧
       k1.relPhys 1 0 0 = some 0) ∧
    (readRoundTable (withDram staging 0x9000 tableBytes0) 0 0x9000 224).isSome = true := by
  refine ⟨⟨by decide, ?_, ?_, ?_, ?_, ?_, ?_, ?_⟩, by decide +kernel, by decide +kernel, by decide +kernel⟩ <;> decide +kernel

/-- Channel 0 with the bank of `a` open since slot 0, slot 32 ahead. -/
def chan0 (a : Nat) (f : Seq → Seq) : State :=
  (calm (stage (f { state := .running, stageCycle := 60, stepCycle := 60, nextHold := 2 }))).modChan 0 (fun x =>
    { x with slot := 1, rows := [(bankOf a, rowOf a + 1)], activatedAt := [(bankOf a, 1)] })

/-- The slot is the stage's and the bank of `a` can be accessed in it. -/
def open32 (s : State) (a : Nat) : Bool :=
  s.stageSlot 0 32 && decide (chanOf a = 0) && (s.chanTo 0 32).canAccess (bankOf a) (rowOf a) 32

/-- The last row and bank; each engine where it may access and, for those that come after, where the ones before it do not; refresh slots. -/
theorem test_witness_DramControllerEventsComplete :
    (let s : State := chan0 0 id
     (s.co (s.channelCo 0)).seq.advancing = true ∧ (s.chan 0).slot ≤ 32 ∧ (s.co (s.channelCo 0)).seq.stageCycle.toNat ≤ 7 * 32 / 4 + 48 ∧
       7 * 32 / 4 < s.stageEnd (s.channelCo 0) ∧ refreshSlot 0 32 = false ∧ s.wingsSlot 0 32 = false) ∧
    (let s : State := (chan0 0 id).modChan 0 (fun x => { x with prechargedAt := [(15, 25)], activatedAt := [(0, 1), (15, 1)], freeAt := [(15, 32)] })
     let x := s.chanTo 0 32
     s.stageSlot 0 32 = true ∧ tget 0 x.rows 15 = 0 ∧ tget 0 x.prechargedAt 15 - 1 + 8 ≤ 32 ∧ tget 0 x.activatedAt 15 - 1 + 32 ≤ 32 ∧
       tget 0 x.freeAt 15 ≤ 32 ∧ tget 0 x.rows 0 ≠ 0 ∧ tget 0 x.accessedAt 0 = 0 ∧ tget 0 x.freeAt 0 ≤ 32) ∧
    (let s : State := (chan0 0x10000 id).modEngine 0 (fun e => { e with started := true })
     open32 s 0x10000 = true ∧ s.updReadIn 0 32 = some 0x10000) ∧
    (let a : ActiveChunk := { plan := 1, index := 0, chunk := { chunk0 with srcKind := 2 }, fetch := [0] }
     let s : State := (chan0 0 id).modCol 0 (fun x => { x with active := [a] })
     open32 s 0 = true ∧ s.updReadIn 0 32 ≠ some 0 ∧ s.updTakes 0 32 = false ∧ s.colReadIn 0 32 = some (a, 0) ∧ a.readAddr 0 = 0) ∧
    (let w : EngineWrite := { addr := 0, data := [1], due := 56 }
     let s : State := (chan0 0 id).modEngine 0 (fun e => { e with writes := [w] })
     open32 s 0 = true ∧ s.updWriteIn 0 32 = some w) ∧
    (let w : LineWrite := { addr := 0, data := 7, due := 56, access := 3 }
     let s : State := (chan0 0 id).modCol 0 (fun x => { x with writes := [w] })
     open32 s 192 = true ∧ s.updTakes 0 32 = false ∧ s.colWriteIn 0 32 = some w ∧ w.addr + 64 * w.access = 192) ∧
    (let w : PostedWrite := ⟨0, List.replicate 65 1⟩
     let s : State := (chan0 0 id).modUpd 0 (fun x => { x with posted := [w] })
     open32 s 0 = true ∧ (s.co 0).upd.posted = [w]) ∧
    ([1, 2].all (fun kind =>
      let f : FlyCmd := { issue := 0, kind := kind, lrow := 0, lcol := 0, line := 0, count := 1, dram := 0, stride := 1 }
      let s : State := (chan0 0 id).modFly 0 (fun x => { x with active := some f, startAt := 50, ready := some 54 })
      open32 s 0 && decide ((s.fly 0).active = some f ∧ (s.fly 0).addr f = 0 ∧ (s.fly 0).startAt ≤ 7 * 32 / 4 ∧ (s.fly 0).access = 0) &&
        decide (s.relPhys (s.quarterOwner 0) f.lrow f.lcol = some 0) && !s.updTakes 0 32 && !s.colTakes 0 32 && (s.flyFetch 0 32 0 f).2)) = true ∧
    (let s : State := chan0 0 id
     0 % 24 ≤ 48 ∧ 48 % 24 = 0 % 24 ∧ (s.co (s.channelCo 0)).seq.advancing = true ∧ (s.chan 0).slot ≤ 48 ∧ 7 * 48 / 4 < s.stageEnd (s.channelCo 0)) ∧
    ([true, false].all (fun held =>
      let s : State := stage { state := if held then .held else .running, held := held, waiting := !held }
      decide (47 % 24 = 23 ∧ (s.chan 0).heldSlot ≤ 47) && !(s.co (s.channelCo 0)).seq.advancing &&
        ((s.co (s.channelCo 0)).seq.held || (s.co (s.channelCo 0)).seq.waiting))) = true := by
  refine ⟨by decide +kernel, by decide +kernel, by decide +kernel, by decide +kernel, by decide +kernel, by decide +kernel, by decide +kernel,
    by decide +kernel, by decide +kernel, by decide +kernel⟩

/-- An access in a wings slot of a stage and of a module with none, one that has to wait, and the kinds of slot. -/
theorem test_witness_WingsAccessGoesAheadInItsSlot :
    ([up, (chan0 0x10000 (fun q => q)).modSeq 0 (fun q => { q with image := some { img with masks := [(0, BitVec.allOnes 64)] } })].all (fun (s : State) =>
      (s.chan 0).waiting.isEmpty && s.slotOpen 0 33 && s.wingsSlot 0 33 && decide (tget 0 (s.chanTo 0 33).rows (bankOf 0) = 0) &&
        decide (tget 0 (s.chanTo 0 33).freeAt (bankOf 0) ≤ 33) && !s.refreshSoon 0 33 (bankOf 0) && s.bar2Reach 0 0 && decide (chanOf 0 = 0))) = true ∧
    (let s : State := chan0 0 id
     s.wingsSlot 0 33 = false ∧ s.slotOpen 0 0 = false ∧ (s.chan 0).waiting = [] ∧ s.bar2Reach 0 0 = true) ∧
    ((up.co (up.channelCo 0)).seq.advancing = false ∧ (up.co (up.channelCo 0)).seq.held = false ∧ (up.co (up.channelCo 0)).seq.waiting = false) ∧
    (let s : State := stage { state := .held, held := true }
     (s.co (s.channelCo 0)).seq.advancing = false ∧ (s.co (s.channelCo 0)).seq.held = true) ∧
    (let s : State := stage { state := .running }
     (33 : Nat) % 24 ≠ 0 % 24 ∧ (s.co (s.channelCo 0)).seq.advancing = true ∧ (s.co (s.channelCo 0)).seq.image = some img ∧
       0 % 24 ≤ 24 ∧ 24 % 24 = 0 % 24) := by
  refine ⟨by decide +kernel, by decide +kernel, by decide +kernel, by decide +kernel, by decide +kernel⟩

/-- A fly command of engine 0, the line it has read, a line on its way to core 0 and an instant after its arrival. -/
theorem test_witness_FlyCommandsAndMeshArrivals :
    (let f : FlyCmd := { issue := 100, kind := 1, lrow := 0, lcol := 0, line := 0, count := 1, dram := 0, stride := 1 }
     let im : Image := { img with fly := [⟨0, [f]⟩] }
     let s : State := (inStep id).modSeq 0 (fun q => { q with image := some im })
     let t : State := s.modFly 0 (fun x => { x with active := some f, access := 3 })
     ((s.co 0).seq.image = some im ∧ im.fly.find? (fun p => p.engine = 0) = some ⟨0, [f]⟩ ∧ (s.fly 0).next = 0 ∧ (s.fly 0).active = none ∧
       (s.co 0).seq.advancing = true ∧ (s.co 0).seq.phase = .step) ∧
     (max ((s.co 0).seq.stageCycle.toNat - (s.co 0).seq.stepCycle.toNat + f.issue) (s.fly 0).lastAccess < s.stageEnd 0 ∧
       (t.fly 0).active = some f ∧ f.kind = 1 ∧ (t.fly 0).access = 3) ∧
     (t.eccAccess (t.quarterOwner 0) 192 false (tget 0 t.dramFlips 3)).2.2.fly 0 = t.fly 0) ∧
    (let near : State := up.edgeSend false 64 10 0 5 false 9
     let far : State := up.edgeSend true 64 10 0 5 false 9
     up.mesh = [] ∧ near.mesh.length = 1 ∧ far.mesh.length = 1 ∧ decide (16 ≤ (up.roleOf 0).lcol) = false) ∧
    (let s : State := (inStep id).edgeSend false 64 298 0 5 false 9
     s.mesh ≠ [] ∧
     ([300, 320].all (fun v => (s.stageAt (s.coreCo 0) v).isSome)) = true) ∧
    (let c : Core := { gated := false, ended := true, cycle := 11 }
     10 + 1 ≤ (c.runToStage (up.slotCtx 0) (10 + 1) 10).stageCycle) := by
  refine ⟨by decide +kernel, by decide +kernel, by decide +kernel, by decide +kernel⟩

/-! ### Witnesses: the far exchange -/

def table0 : RoundTable :=
  { run := 9, site := 0, sites := 2, leader := 0, carry := false, h := 4, land := 2, quorum := 2, stale := 0, mu := 0, eta := 0, deadlineMs := 10,
    hardMs := 20, retxMs := 5, gateways := 1, gatewayIndex := 0, channel := 0, roundBase := 0, commitsBase := 0, holds := [], ctrs := [0, 1, 2],
    gens := [0, 0, 0], replay := false, formStart := 0, applyStart := 0, ledger := 0x1000, ledgerLog2 := 2, ledgerQueue := 0, ledgerGen := 0,
    voteSrc := 0x2000, inbox := 0x3000, parcels := [], peers := [⟨0, 0, false⟩, ⟨1, 0, false⟩] }

def ctx0 : FarCtx := { t := table0, ps := [], axes := [2, 1, 1, 1], r := 5 }

/-- The house in round 5 of the run, on the leader's gateway, in sealed mode with far port 0 up; its update pass is complete. -/
def round5 (f : Far) : State :=
  let s := stage { state := .running, step := 8 }
  let s := { s with cip := { locked := true, sealedMode := true }, farPorts := [(0, { link := 2 })] }
  (s.modUpd 0 (fun x => { x with restored := true })).modFar 0 (fun _ =>
    { f with table := some table0, lastTable := some table0, round := 5, inRound := true, gateway := true })

/-- A complete contribution of site 1 for round 5. -/
def stream1 : InStream := { round := 5, site := 1, decide := false, segs := 1, data := [(0, [])], seen := [0] }

/-- The house is in round 5. -/
def inRound5 (s : State) : Bool :=
  (s.roundCtx 0).elim false (fun x => decide (x.t = table0) && x.ps.isEmpty && decide (x.axes = [2, 1, 1, 1]) && decide (x.r = 5))

theorem test_witness_FarRoundPassesComplete :
    (let s : State := round5 { phase := .form, s0 := 7 }
     inRound5 s = true ∧ (s.co 0).seq.image.bind (fun i => i.update) = some updSec ∧ (s.co 0).far.phase = .form ∧ (s.co 0).far.formDone = false ∧
       (s.co 0).seq.step.toNat = (s.co 0).far.s0 + 1 ∧ (s.co 0).seq.phase = .step ∧ s.passComplete 0 updSec = true ∧
       (s.stageFrom 0 ((s.co 0).seq.stageCycle.toNat - (s.co 0).seq.stepCycle.toNat + table0.formStart)).isSome = true) ∧
    (let f := ((round5 { phase := .form, formDone := true }).co 0).far
     f.inRound = true ∧ f.phase = .form ∧ f.formDone = true) ∧
    (let s : State := round5 { phase := .sealing }
     inRound5 s = true ∧ (s.co 0).far.phase = .sealing ∧ (s.co 0).far.finished = ctx0.ps.length ∧ s.wingsOut = []) ∧
    (let s : State := round5 { phase := .opening, ownerRecord := some { round := 5 } }
     inRound5 s = true ∧ (s.co 0).far.ownerRecord = some { round := 5 } ∧ (s.co 0).far.phase = .opening ∧ (s.co 0).far.put = false ∧
       tget 0 (s.co 0).far.votes 19 = 0 ∧ (s.co 0).far.finished = (openList ctx0 { round := 5 }).length) ∧
    (let s : State := round5 { phase := .opening, put := true }
     inRound5 s = true ∧ (s.co 0).far.phase = .opening ∧ (s.co 0).far.put = true ∧ s.wingsOut = []) ∧
    (let s : State := round5 { phase := .apply, s0 := 5, decision := some { round := 5 } }
     inRound5 s = true ∧ (s.co 0).far.decision = some { round := 5 } ∧ (s.co 0).far.phase = .apply ∧ (s.co 0).far.applied = false ∧
       (s.co 0).seq.step.toNat = (s.co 0).far.s0 + table0.land + 1 ∧ (s.co 0).seq.phase = .step ∧
       (s.stageFrom 0 ((s.co 0).seq.stageCycle.toNat - (s.co 0).seq.stepCycle.toNat + table0.applyStart)).isSome = true) := by
  refine ⟨by decide +kernel, by decide +kernel, by decide +kernel, by decide +kernel, by decide +kernel, by decide +kernel⟩

/-- The bytes at both ends of a round copy of 65 elements. -/
theorem test_witness_ApplyPassWritesTheOtherCopy :
    let p : Parcel := ⟨0, 1, 0, 0x10000, 0x20000, 0, 0, 0⟩
    let n := cdiv 65 64
    (0xFFFF < p.copy (!true) ∨ p.copy (!true) + 1024 * n ≤ 0xFFFF) ∧ (0x10800 < p.copy (!true) ∨ p.copy (!true) + 1024 * n ≤ 0x10800) := by
  decide

/-- The other site's contribution complete or missing, at and before DEADLINE_MS and HARD_MS; a gateway that can decide, that has the record,
and that has no record. -/
theorem test_witness_FarDecisionsComplete :
    (let f : Far := { inStreams := [stream1] }
     ((List.range 2).filter (fun i => decide (i = 0) || (f.complete 5 i).isSome)).length = table0.sites ∧ 20 ≤ table0.hardMs) ∧
    (let f : Far := {}
     let t : RoundTable := { table0 with quorum := 1 }
     ((List.range 2).filter (fun i => decide (i = 0) || (f.complete 5 i).isSome)).length = 1 ∧ 1 ≠ table0.sites ∧ 1 < table0.quorum ∧
       table0.deadlineMs ≤ 10 ∧ 10 ≤ table0.hardMs ∧ t.quorum ≤ 1 ∧ table0.hardMs ≤ 20 ∧ table0.hardMs < 21 ∧ 19 < table0.hardMs ∧ 9 < t.deadlineMs) ∧
    (let u : State := (round5 { phase := .exchange, inStreams := [stream1] }).farGo 0
     let f := (u.co 0).far
     inRound5 u = true ∧ f.gateway = true ∧ f.phase = .exchange ∧ table0.site = table0.leader ∧ f.decision = none ∧ f.replay = false ∧
       u.sinceT0 0 = some 0 ∧ (decideRound f ctx0 0).isSome = true) ∧
    (let d : Decision := { round := 5, current := 5 }
     let u : State := (round5 { phase := .exchange, decision := some d, inStreams := [stream1] }).farGo 0
     let f := (u.co 0).far
     inRound5 u = true ∧ f.gateway = true ∧ f.phase = .exchange ∧ f.decision = some d ∧ f.put = false ∧ (u.held 0 ctx0 d).isSome = true) ∧
    (let u : State := ({ round5 { phase := .exchange, t0 := some 0 } with nowNs := 20000000 } : State).farGo 0
     let f := (u.co 0).far
     inRound5 u = true ∧ f.gateway = true ∧ f.phase = .exchange ∧ f.decision = none ∧ f.put = false ∧ u.sinceT0 0 = some 20 ∧ table0.hardMs ≤ 20) ∧
    (let s : State := round5 { phase := .exchange, put := true, decision := some { round := 5, verdict := 0xFF } }
     inRound5 s = true ∧ (s.co 0).far.put = true ∧ (s.co 0).far.phase = .exchange ∧ (s.co 0).far.decision = some { round := 5, verdict := 0xFF } ∧
       s.wingsOut = [] ∧ (s.co 0).far.replay = false) := by
  refine ⟨by decide +kernel, by decide +kernel, by decide +kernel, by decide +kernel, by decide +kernel, by decide +kernel⟩

/-- Frames of site 1 in round 7, the last of the window, and in round 8; of site 2, which there is not; of the leader, site 0; of no run; and
bytes that are no frame. -/
theorem test_witness_CfxFramesComplete :
    (let s : State := round5 {}
     s.farUp 0 = true ∧ s.farUp 1 = false ∧ (s.co 0).far.table = some table0 ∧ cfxRead [1, 2] = none ∧
       s.hasShare 0 0 = true ∧ table0.peers[1 * table0.gateways + table0.gatewayIndex]? = some ⟨1, 0, false⟩) ∧
    ([(1, 7, 1, 0, 2), (1, 8, 1, 0, 1), (1, 5, 2, 0, 1), (3, 5, 1, 0, 1), (3, 5, 0, 0, 1), (2, 5, 1, 0, 1)].all (fun c =>
      (cfxRead (cfxFrame c.1 9 c.2.1 c.2.2.1 0 c.2.2.2.1 c.2.2.2.2 [1, 2])).elim false (fun h =>
        decide (h.typ = c.1) && decide (h.run = table0.run.toNat) && decide (h.round = c.2.1) && decide (h.site = c.2.2.1) &&
          decide (h.gateway = table0.gatewayIndex) && decide (h.seg < h.segs)))) = true ∧
    (cfxRead (cfxFrame 4 0 5 1 0 0 1 [])).elim false (fun h => decide (h.run = 0)) = true ∧
    (let y : InStream := { round := 7, site := 1, decide := false, segs := 2, data := [(0, [1, 2])], seen := [0] }
     let s : State := round5 { inStreams := [y] }
     (s.co 0).far.inStreams.find? (fun y => decide (y.round = 7) && decide (y.site = 1) && decide (y.decide = false)) = some y ∧ y.segs = 2 ∧
       0 ∈ y.seen ∧ y.seen.length ≠ y.segs) ∧
    (let o : OutStream := { kind := 1, round := 5, site := 1, segments := [[1]], unacked := [0], firstNs := 0, sentNs := [], stopped := false }
     let s : State := { round5 { outStreams := [o] } with nowNs := 19999999 }
     (s.co 0).far.ackNs + 5 * 1000000 / 2 ≤ s.nowNs ∧ (round5 {}).nowNs < ((round5 {}).co 0).far.ackNs + 5 * 1000000 / 2 ∧
       s.roundExpired 0 5 = false ∧ ({ s with nowNs := 20000000 } : State).roundExpired 0 5 = true ∧
       ((s.co 0).far.outStreams.all (fun o => decide (o.site = 1) && !o.stopped && o.unacked.contains 0 &&
         decide (tget 0 o.sentNs 0 + 5 * 1000000 ≤ s.nowNs + 1))) = true) := by
  refine ⟨by decide +kernel, by decide +kernel, by decide +kernel, by decide +kernel, by decide +kernel⟩

theorem test_witness_FarCommandsAndPortsComplete :
    served up (.farPortSet pkt false 5 6 7) (fun c => !c.cip.sealedMode) = true ∧
    served (round5 {}) (.farPortSet pkt true 5 6 7) (fun c => c.cip.sealedMode) = true ∧
    served ((round5 {}).modSeq 0 (fun q => { q with state := .stopped })) (.farJoin pkt 0 6) (fun c => decide ((c.co 0).seq.state = .stopped)) = true ∧
    served (round5 {}) (.farJoin pkt 0 6) (fun c => decide ((c.co 0).seq.state ≠ .stopped)) = true ∧
    served (withDram (up.modFar 0 (fun f => { f with table := some table0 })) 0x9000 (listBytes 0)) (.farAnchorExport pkt 0 1 0 0x9000) (fun c =>
      decide (c.readBankList 0 0x9000 = some list0) && decide ((c.co 0).far.table = some table0) && decide (c.queueCheck 0 1 0 = none)) = true ∧
    served up (.farAnchorExport pkt 0 1 0 0x9000) (fun c => decide (c.readBankList 0 0x9000 = none)) = true ∧
    ((up.farPort 0).link = 0 ∧ ((round5 {}).farPort 0).link ≠ 0 ∧ (List.range 16).all (fun k => ((round5 {}).co k).pak.streams.isEmpty) = true) := by
  refine ⟨by decide +kernel, by decide +kernel, by decide +kernel, by decide +kernel, by decide +kernel, by decide +kernel, by decide +kernel⟩

/-! ### Witnesses: snapshots and restores -/

/-- A snapshot of the one-line bank of `list0`, for queue 2. -/
def strm : Stream :=
  { kind := 0, commits := 1, bank := false, list := list0, header := List.replicate 512 0, queue := 2, queueGen := 0, dest := 0,
    cipher := 0x1FF#9, pack := false, width := 0 }

/-- The house streams `x` to queue 2, with the bytes of every access that it needs. -/
def streaming (x : Stream) : State :=
  ({ up with queues := up.queues ++ [(2, { enable := true, typ := 2, mode := 1, base := 8 })],
             wingsGot := (x.needs 0 768).map (fun u => { master := .snapshot 0, addr := u, data := 7, error := false }) } : State).modPak 0 (fun p =>
    { p with streams := [x], guard := true })

theorem test_witness_SnapshotStreamEventsComplete :
    (((streaming strm).co 0).pak.streams = [strm] ∧ strm.begun = false ∧ strm.cut = false ∧ strm.cipher = 0x1FF#9 ∧
      ((streaming strm).absQueue 0 strm.queue).isSome = true) ∧
    (let x : Stream := { strm with begun := true, asked := 4 }
     let s : State := streaming x
     s.blockReady 0 = true ∧ ((List.range 16).all (fun j => j == 0 || !s.blockReady j)) = true ∧ s.blockTurn 0 = true ∧
       (s.streamQueue 0 x).isSome = true ∧ x.result = none ∧ x.asked = 4 * x.list.lines ∧ x.readsDone = false ∧
       ((x.needs x.read (x.total - x.read)).all (fun a => (s.wingsFind (.snapshot 0) a).isSome)) = true ∧ (x.needs 0 768).length = 4) ∧
    (let x : Stream := { strm with begun := true, readsDone := true, read := 768 }
     x.result = none ∧ x.read = 512 + 256 * x.list.lines) ∧
    ([[1, 2], List.replicate 64 0].all (fun (bs : List Byte) => decide ((packedForm 4 bs).length < bs.length) == decide (bs.length = 64))) = true := by
  refine ⟨by decide +kernel, by decide +kernel, by decide +kernel, by decide +kernel⟩

/-- Port 0 busy, not ACTIVE, and ready; the roll forward of a committing tail and of one that misses a member; every end of a restore. -/
theorem test_witness_RestoresAndRollForwardComplete :
    ([0, 1, 2].all (fun n =>
      let q : Seq := { state := if n = 0 then .running else .stopped }
      let s : State := withDram (stage q) 0x9000 (listBytes 0)
      let s : State := if n = 2 then port0 s {} else s
      let p := fun (c : State) => decide (c.readBankList 0 0x9000 = some list0) && c.ownsDram 0 0x100 (256 * 1) &&
        (c.restoreFree 0 == decide (n ≠ 0)) && (decide ((c.port 0).state = .active) == decide (n = 2))
      served s (.rprRestoreSend pkt 0 0 false true 0x9000) p && served s (.rprRestoreRecv pkt 0 0 true true 0x9000 7) p)) = true ∧
    ([2, 1].all (fun members =>
      let s : State := withDram (stage { state := .stopped }) 0x9000 (leBytes 24 0 ++ leBytes 8 members)
      let s : State := s.modUpd 0 (fun x => { x with verdict := .incomplete, restored := true })
      served s (.rprRollForward pkt 0 0x9000) (fun c =>
        let e := tailEntries (mline c.dram 0x9000)
        decide ((c.co 0).seq.image = some img) && decide ((c.co 0).seq.state = .stopped) && decide ((c.co 0).upd.verdict = .incomplete) &&
          c.passComplete 0 updSec &&
          (decide (e.getD 0 0 = 0 ∧ e.getD 1 0 = 0 ∧ e.getD 2 0 = 0 ∧ (e.getD 3 0).toNat = (c.co 0).seq.members ∧ e.getD 4 0 = 0) ==
            decide (members = 2))))) = true ∧
    ([0, 1].all (fun n => [true, false].all (fun sending =>
      let x : RestoreSession := { sending := sending, company := 0, port := 0, image := false, bank := false, list := list0, count := n, cmd := pkt }
      let s : State := { up with restore := { sessions := [x] } }
      decide (s.restore.sessions.find? (fun r => r.port = 0) = some x) && (decide (x.count = x.list.lines) == decide (n = 1)) &&
        decide (x.deadline ≤ s.nowNs)))) = true := by
  refine ⟨by decide +kernel, by decide +kernel, by decide +kernel⟩


/-! ### Witnesses: keys, channels and messages -/

/-- A KEK of the bytes 0 to 31, and a key blob of the bytes 1 to 32 for slot use GCM wrapped under it, computed outside Lean from NIST SP
800-38F and FIPS 197. -/
def kek0 : List Byte := (List.range 32).map (BitVec.ofNat 8)

def blob0 : List Byte :=
  [75, 66, 1, 1, 0, 0, 0, 0, 0, 0, 0, 0, 0, 0, 0, 0, 70, 9, 180, 76, 138, 247, 241, 28, 92, 106, 204, 223, 53, 106, 217, 87, 147, 191, 236, 156,
   173, 196, 221, 98, 190, 33, 243, 46, 223, 209, 55, 89, 9, 164, 208, 32, 79, 80, 18, 161, 174, 206, 151, 16, 116, 247, 165, 17, 253, 179, 130,
   128, 177, 174, 110, 253]

theorem test_unwrap : kwUnwrap kek0 (blob0.drop 16) = some ((List.range 32).map (fun i => BitVec.ofNat 8 (i + 1)) ++ blob0.take 16) := by
  decide +kernel

/-- Slot 0 holds the KEK, slot 1 a GCM key, channel 1 is bound to it. -/
def keyed (inv : DWord) : State :=
  { up with cip := { slots := [(0, ⟨BitVec.ofNat 256 (leNat kek0), 2, true, 0, false⟩), (1, ⟨7, 1, true, inv, false⟩)],
                     chans := [(1, ⟨true, 1, false, 0⟩)] } }


/-- A one-byte message of channel 1 for DMA queue 5. -/
def message1 : Message := { chan := 1, client := .dma 5 true 0x4000, opening := false, data := [5] }

/-- Channel 1 has a message in progress. -/
def keyedBusy (inv : DWord) : State := { keyed inv with cip := { (keyed inv).cip with msgs := [message1] } }

theorem test_witness_KeyAndModeCommandsComplete :
    served (withDram (keyed 0) 0x9000 blob0) (.cipKeyUnwrap pkt 2 0x9000) (fun c =>
      let blob := mread c.dram 0x9000 72
      decide (blob = blob0) && decide (c.absSlot 0 2 = some 2) && c.ownsDram 0 0x9000 72 && decide ((blob.getD 4 0).toNat = 0) &&
        decide ((c.kekOf 0 (blob.getD 5 0).toNat).toOption = some kek0) && (c.boundTo 2).isEmpty && decide (blob.take 3 = ascii "KB" ++ [1]) &&
        decide ((blob.getD 3 0).toNat = 1) && decide (blob.getD 6 0 = 0) && decide (blob.getD 7 0 = 0)) = true ∧
    served (keyed 0) (.cipKeyClear pkt 63) (fun c => decide (c.absSlot 0 63 = some 63) && (c.boundTo 63).isEmpty) = true ∧
    served (keyed 0) (.cipKeyClear pkt 1) (fun c => decide (c.absSlot 0 1 = some 1) && !(c.boundTo 1).isEmpty) = true ∧
    ([true, false].all (fun unbind =>
      served (keyed 0) (.cipChanSet pkt 255 unbind 1 false 9) (fun c =>
        decide (c.absChan 0 255 = some 255) && !c.cip.busy 255 && decide (c.absSlot 0 1 = some 1) && decide ((c.keySlot 1).use = 1) &&
          (c.boundTo 1).all (fun x => decide (x.1 = 255 ∨ x.2.nonce = false))) &&
        served (keyedBusy 0) (.cipChanSet pkt 1 unbind 1 false 9) (fun c => decide (c.absChan 0 1 = some 1) && c.cip.busy 1))) = true ∧
    (up.boot.pcieUp = true ∧ (up.func 0).frozen = false ∧
      (let v : Word := 0x843F
       up.cip.sealedMode = false ∧ bit v 15 = true ∧ bits v 11 10 = 1 ∧ up.slotCo (bits v 5 0) = 0 ∧ up.boundTo (bits v 5 0) = [] ∧
         (up.modCo 1 (fun _ => company1)).slotCo 8 ≠ 0) ∧
      up.cip.locked = false) ∧
    ([true, false].all (fun m =>
      let s : State := { up with cip := { locked := true, sealedMode := m } }
      s.boot.pcieUp && !(s.func 0).frozen && s.cip.locked && (s.cip.sealedMode == m))) = true := by
  refine ⟨by decide +kernel, by decide +kernel, by decide +kernel, by decide +kernel, by decide +kernel, by decide +kernel⟩

/-- A seal and an open message waiting, under the last invocation before the ageing warning and the first of an exhausted slot; a message with a
byte to go and one that is at its end; a channel of a frozen queue. -/
theorem test_witness_CipherMessagesComplete :
    ([(0, false), (2 ^ 31 - 2, false), (2 ^ 32, false), (0, true)].all (fun (x : Nat × Bool) =>
      let m : Message := { message1 with opening := x.2 }
      let k := keyed (BitVec.ofNat 64 x.1)
      let s : State := { k with cip := { k.cip with waiting := [m] } }
      decide (s.canStart 1 = some m) && (s.cipChan 1).bound && decide ((s.cipChan 1).slot = 1) && decide ((s.keySlot 1).use = 1) &&
        decide (s.slotCo 1 = s.chanCo 1) && decide (s.cip.onChip < 64) && decide ((s.keySlot 1).invocations.toNat = x.1) && s.nextChan.isNone)) = true ∧
    ((keyed 0).canStart 1 = none ∧ (keyed 0).frozenChans.contains 1 = false) ∧
    ([0, 1].all (fun n =>
      let m : Message := { message1 with done := n, closed := decide (n = 1) }
      let s : State := { keyed 0 with cip := { (keyed 0).cip with msgs := [m] } }
      (decide (s.nextChan = some 1) == decide (n = 0)) && decide (s.cip.msg 1 = some m) && m.onChip && (decide (m.done = m.data.length) == decide (n = 1)))) = true := by
  refine ⟨by decide +kernel, by decide +kernel, by decide +kernel⟩

theorem test_witness_SealedDataOpensUnderItsKey : kek0.length = 32 ∧ message1.opening = false := by decide +kernel

/-! ### Witnesses: transactions and companies -/

/-- The eighth committed transaction, a curtain ahead and one that is past, a current counter and one that is not. -/
theorem test_witness_TransactionsComplete :
    (served up (.txnBegin pkt true 0) (fun c => decide ((c.co 0).txn.opened = none)) &&
      served up (.txnCommit pkt 4 8190 0) (fun c => decide ((c.co 0).txn.opened = none)) &&
      served up (.txnAbort pkt) (fun c => decide ((c.co 0).txn.opened = none))) = true ∧
    ([7, 8].all (fun n => [true, false].all (fun curtain =>
      let t : CommittedTxn := ⟨3, none, none, []⟩
      let o : OpenTxn := ⟨5, curtain, 10, 0, []⟩
      let s : State := (stage { state := .running, step := 4 }).modCo 0 (fun c => { c with txn := ⟨5, some o, List.replicate n t, []⟩ })
      let p := fun (c : State) => decide ((c.co 0).txn.opened = some o) && !(c.co 0).seq.curtainAhead 3 && (c.co 0).seq.curtainAhead 4 &&
        (decide (8 ≤ (c.co 0).txn.committed.length) == decide (n = 8)) && decide (c.ctrCurrent 0 8190 0 = some true) &&
        decide (c.ctrCurrent 0 8190 1 = some false)
      served s (.txnBegin pkt true 0) p && served s (.txnCommit pkt 4 8190 0) p && served s (.txnAbort pkt) p &&
        decide (s.nowNs < o.begunNs + o.timeoutS * 1000000000) &&
        decide (({ s with nowNs := 10000000000 } : State).nowNs = o.begunNs + o.timeoutS * 1000000000)))) = true := by
  refine ⟨by decide +kernel, by decide +kernel⟩

/-- The house, company 1 which holds queues 16 to 31, and company 15 which holds nothing. -/
def hosting : State := (up.modCo 1 (fun _ => company1)).modCo 15 (fun _ => { present := true, function := 16 })

theorem test_witness_CompanyCommandsComplete :
    pkt.txn = 0 ∧
    served hosting (.coCreate pkt 2 2) (fun c => decide ((c.co 0).txn.opened = none) && (c.co 0).txn.committed.isEmpty && !(c.co 2).present &&
      (List.range 16).all (fun i => !(c.co i).present || decide ((c.co i).function ≠ 2))) = true ∧
    served hosting (.coDestroy pkt 15) (fun c => (c.co 15).present && decide ((c.co 15).seq.state = .empty)) = true ∧
    served (hosting.modSeq 15 (fun q => { q with state := .stopped })) (.coDestroy pkt 15) (fun c => (c.co 15).present && decide ((c.co 15).seq.state ≠ .empty)) = true ∧
    served hosting (.coGrant pkt 15 3 31 1 0) (fun c => grantForm 3 31 1 0 && !(c.co 15).holds 3 (grantPort 3 31) && grantClash 15 3 31 1 0 c) = true ∧
    served hosting (.coGrant pkt 15 3 32767 1 0) (fun c => grantForm 3 32767 1 0 && !(c.co 15).holds 3 (grantPort 3 32767) &&
      !grantClash 15 3 32767 1 0 c && decide (grantWait 3 32767 1 c = 0)) = true ∧
    served hosting (.coReturn pkt 1 3 0) (fun c => (c.co 1).present && (c.co 1).holds 3 0) = true ∧
    served hosting (.coReturn pkt 15 3 0) (fun c => (c.co 15).present && !(c.co 15).holds 3 0) = true ∧
    ([none, some { raw := 0, tag := 0, notify := false, ctr := none }].all (fun (op : Option DmaOp) =>
      let s : State := { (up.modFunc 16 (fun f => { f with frozen := true })).modQueue 32767 (fun q => { q with frozen := true, stopped := op }) with
        frozenChans := [255] }
      served s (.coRelease pkt 0 16) (fun c => (c.func 16).frozen) &&
        served s (.coRelease pkt 1 32767) (fun c => (c.queue 32767).frozen && decide ((c.queue 32767).stopped = op)) &&
        served s (.coRelease pkt 2 255) (fun c => c.frozenChans.contains 255) && served s (.coRelease pkt 0 15) (fun c => !(c.func 15).frozen))) = true := by
  refine ⟨rfl, by decide +kernel, by decide +kernel, by decide +kernel, by decide +kernel, by decide +kernel, by decide +kernel, by decide +kernel,
    by decide +kernel⟩

/-! ### Witnesses: queues, counters, watches, DMA and the host interface -/

/-- A doorbell to the last entry of the ring, one past it, one behind TAIL and one outside; good, bad and unchanged settings; counters of each
source that are current and that are not. -/
theorem test_witness_QueuesCountersAndWatchesComplete :
    (up.boot.pcieUp = true ∧ (up.func 0).frozen = false ∧
      (let x := up.queue 0
       let d := 2 * 2 ^ x.depthLog2.toNat
       bits (0x01000000 : Word) 31 24 ≠ x.gen.toNat ∧ bits (16 : Word) 31 24 = x.gen.toNat ∧ x.enable = true ∧ x.typ = 1 ∧ bits (16 : Word) 16 0 < d ∧
         (x.tail + d - x.head) % d ≤ (16 + d - x.head) % d ∧ (16 + d - x.head) % d ≤ 2 ^ x.depthLog2.toNat ∧
         2 ^ x.depthLog2.toNat < (17 + d - x.head) % d ∧ (0 + d - x.head) % d < (x.tail + d - x.head) % d ∧ d ≤ bits (32 : Word) 16 0)) ∧
    (let x := up.queue 32767
     let v : DWord := 0x0000000100010400
     x.enable = false ∧ up.cfgGood 0 (x.withCfg v) = true ∧ up.cfgGood 0 (x.withCfg 0) = false ∧ up.tooSoon x.changedNs = 0 ∧
       (up.queue 1).enable = true ∧ ((up.queue 1).withCfg 0x30400).cfgFields = (up.queue 1).cfgFields) ∧
    (up.absCtr 0 8191 = some 8191 ∧ (hosting.absCtr 0 8) = none ∧ up.tooSoon (up.ctr 8191).changedNs = 0 ∧ up.tooSoon (some 1) ≠ 0) ∧
    ([IncSource.stage 0, .host 0].all (fun src => [true, false].all (fun reset =>
      let x : Inc := { src := src, index := 8191, gen := 0, amount := 1, reset := reset }
      let s : State := { up with incStage := [x] }
      let t : State := up.modCtr 8191 (fun c => { c with gen := 1, changedNs := some 1 })
      decide (up.absCtr 0 x.index = some 8191) && decide ((up.ctr 8191).gen = x.gen) && decide ((t.ctr 8191).gen ≠ x.gen) &&
        decide (t.tooSoon (t.ctr 8191).changedNs ≠ 0) && decide (s.incStage = [x]) && up.incStage.isEmpty && up.incDma.isEmpty && up.incWings.isEmpty))) = true ∧
    (let x := up.watch 16383
     let y := x.withCfg 0
     x.enable = false ∧ (up.absCtr x.company y.ctrIndex.toNat).isSome = true ∧ (up.absQueue x.company y.queue.toNat).isSome = true ∧
       up.tooSoon x.changedNs = 0 ∧
       (let z := (up.modWatch 16383 (fun w => { w with enable := true })).watch 16383
        z.enable = true ∧ (z.withCfg 0).cfgFields = z.cfgFields)) := by
  refine ⟨by decide +kernel, by decide +kernel, by decide +kernel, by decide +kernel, by decide +kernel⟩

/-- A descriptor of operation `op` and `n` bytes without counter; queue 2 with that descriptor at its head. -/
def descr (op n : Nat) : BitVec 512 := BitVec.ofNat 512 (op + 0x1FF * 2 ^ 16 + n * 2 ^ 32 + 64 * 2 ^ 64 + 128 * 2 ^ 128 + 0x1FFF * 2 ^ 224)
def dmaQueue (raw : BitVec 512) (q : Queue → Queue) : State :=
  { up with queues := up.queues ++ [(2, q { enable := true, typ := 2, mode := 0, base := 8, pair := 1, tail := 1 })],
            hostMem := mwrite [] 0x8000 (leBytes 64 raw.toNat) }

/-- A descriptor of 64 bytes for either direction, one of 63, each in progress and ended; a read slot in flight and one in quarantine; a stream
exactly 64 KiB on and one that has ended. -/
theorem test_witness_DmaDescriptorsComplete :
    ([1, 2].all (fun op => [63, 64].all (fun n =>
      let s : State := dmaQueue (descr op n) id
      let d := readDescriptor (descr op n)
      s.dmaReady 2 && decide (s.ringEntry 2 0 = some (leBytes 64 (descr op n).toNat)) && (d.good == decide (n = 64)) && decide (d.op = op) &&
        !d.seal_ && !d.open_ && !d.pack && s.ownsDram 0 d.dram d.length && decide (d.ctr = 0x1FFF) && !s.freeSlots.isEmpty))) = true ∧
    ([1, 2].all (fun op =>
      let o : DmaOp := { raw := descr op 64, tag := 0, notify := true, ctr := none, asked := 1 }
      let s : State := dmaQueue (descr op 64) (fun q => { q with dma := some o })
      let d := readDescriptor o.raw
      decide ((s.queue 2).dma = some o) && !o.ended && decide (d.dram < d.dram + 64 * o.asked))) = true ∧
    ([none, some (3, 0, 1)].all (fun ctr =>
      let o : DmaOp := { raw := descr 1 64, tag := 0, notify := true, ctr := ctr, ended := true }
      let s : State := dmaQueue (descr 1 64) (fun q => { q with dma := some o })
      decide ((s.queue 2).dma = some o) && s.wingsOut.isEmpty && !s.entryWaits 2 && (s.absCtr (s.queueCo 2) 3).isSome)) = true ∧
    ([1, 2].all (fun use =>
      let s : State := { up with readSlots := [(2047, { use := use })], nowNs := 1000000000 }
      decide ((tget ({} : ReadSlot) s.readSlots 2047).use = use) && decide (0 + (s.func (s.coFunc (s.queueCo 0))).timeoutNs ≤ s.nowNs))) = true ∧
    (let s : State := dmaQueue 0 (fun q => { q with mode := 1, streamBytes := 65536, streamEnds := 1 })
     (s.queue 2).typ = 2 ∧ (s.queue 2).mode ≠ 0 ∧ s.entryWaits 2 = false ∧ 65536 ≤ (s.queue 2).streamBytes ∧ (s.queue 2).streamEnds ≠ 0 ∧
       s.absQueue (s.queueCo 2) (s.queue 2).pair.toNat = some 1) := by
  refine ⟨by decide +kernel, by decide +kernel, by decide +kernel, by decide +kernel, by decide +kernel⟩

theorem test_witness_HostInterfaceEventsComplete :
    (up.boot.pcieUp = true ∧ up.boot.vfEnable = true ∧ (List.range 16).all (fun k => (up.co k).pak.streams.isEmpty) = true ∧
      (let s : State := up.modCo 1 (fun _ => company1)
       s.coFunc (s.queueCo 16) = 1 ∧ s.coFunc (s.queueCo 15) ≠ 1 ∧ s.coFunc (s.queueCo 32) ≠ 1 ∧ s.coFunc 1 = 1)) ∧
    State.reset.boot.perst = true ∧
    (up.reaches 16 = true ∧ (up.func 16).frozen = false ∧ ((up.modFunc 16 (fun f => { f with frozen := true })).func 16).frozen = true) ∧
    (up.func 0).frozen = false ∧ ({ up with cip := { locked := true, sealedMode := true } } : State).cip.sealedMode = true ∧
    ((0x3FFFFF < 0x1000000 ∧ 0x3FFFFF / 0x100000 = 3) ∧ (0xAFFFFF < 0x1000000 ∧ 0xAFFFFF / 0x100000 = 10)) := by
  refine ⟨by decide +kernel, by decide +kernel, by decide +kernel, by decide +kernel, by decide +kernel, by decide⟩

/-! ### Witnesses: the stage manager and the error logger -/

theorem test_witness_StageManagerCommandsComplete :
    served up (.smInfo pkt) (fun _ => up.sm.ready) = true ∧
    (served hosting (.smTelemetry pkt 16 0 1000) (fun c => decide (c.absQueue 0 16 = none)) &&
      served up (.smTelemetry pkt 16 0 1001) (fun _ => true) && served up (.smTelemetry pkt 4 1 1) (fun c => decide ((c.queue 4).gen ≠ 1)) &&
      [0, 1000].all (fun (n : Nat) => served (up.modQueue 4 (fun q => { q with typ := 4 })) (.smTelemetry pkt 4 0 (BitVec.ofNat 10 n)) (fun c =>
        decide (c.absQueue 0 4 = some 4) && decide ((c.queue 4).gen = 0) && decide ((c.queue 4).typ = 4)))) = true ∧
    ([64, 65].all (fun n => served up (.smFwStage pkt (BitVec.ofNat 48 (dramBytes - 64)) (BitVec.ofNat 32 n)) (fun c =>
        decide (c.sm.previous = none) && decide (c.sm.staging = none) && (c.ownsDram 0 (dramBytes - 64) n == decide (n = 64)))) &&
      served { up with sm := { up.sm with staging := some { addr := 0, length := 1, cmd := { pkt with queue := 2 } } } } (.smFwStage pkt 0 64) (fun c =>
        decide (c.sm.staging ≠ none))) = true ∧
    ([true, false].all (fun b => [true, false].all (fun idle =>
      let s : State := { stage { state := if idle then .stopped else .loaded } with sm := { up.sm with staged := b }, svc := { up.svc with removal := b } }
      served s (.smFwSwitch pkt) (fun c => c.sm.staged == b) && served s (.smReset pkt) (fun _ => true) &&
        [true, false].all (fun grant => served s (.smRemoval pkt grant) (fun c => (c.svc.removal == b) && (c.scriptsIdle == idle)))))) = true ∧
    ([SmMode.adopting, SmMode.handover].all (fun m =>
      let j : Journal := { pkt := pkt, payload := 0, gen := 0, opcode := 0x0104#16, state := .waiting, txn := 0 }
      let s : State := { up with sm := { up.sm with ready := false, mode := m, previous := some false, imageB := true, journal := [j] } }
      s.smHolds && decide (s.sm.previous = some false) && decide (s.sm.journal = [j]) && !s.sm.ready &&
        decide (s.nowNs < s.sm.switchNs + 10000000000) && decide (s.sm.switchNs + 10000000000 ≤ ({ s with nowNs := 10000000000 } : State).nowNs))) = true ∧
    (let x : FwStaging := { addr := 0, length := 1, image := [1], cmd := pkt }
     let s : State := { up with sm := { up.sm with staging := some x } }
     s.sm.ready = true ∧ s.sm.staging = some x ∧ x.length ≤ x.image.length ∧ ({ x with image := [] } : FwStaging).image.length < x.length) := by
  refine ⟨by decide +kernel, by decide +kernel, by decide +kernel, by decide +kernel, by decide +kernel, by decide +kernel⟩

/-- A free and a full input buffer, an open group of another source, the last entry of the ring, an opcode that is not defined, telemetry before
and at its period, and each reach of the busy share. -/
theorem test_witness_ErrorsAndTelemetryComplete :
    ([true, false].all (fun m => served { up with cip := { locked := true, sealedMode := m } } (.errInject pkt 5 7 1 0) (fun c => c.cip.sealedMode == m))) = true ∧
    ([255, 256].all (fun n =>
      let r : ErrRec := { source := 5, code := 7, cls := 1 }
      let s : State := { up with err := { buffer := List.replicate n r, groups := [{ first := { r with source := 6 }, openedNs := 0 }] } }
      decide (r.cls ≠ 3) && s.err.groups.all (fun g => !decide (g.first.source = r.source ∧ g.first.code = r.code ∧ g.first.company = r.company)) &&
        (decide (s.err.buffer.length < 256) == decide (n = 255)))) = true ∧
    (let r : ErrRec := { source := 5, code := 7, cls := 3 }
     let s : State := { up with err := { next := 4031, occ := 0x7FFFFFFFFFFFFFFF#64, buffer := [r], groups := [{ first := r, openedNs := 0 }] },
                                nowNs := 1000000 }
     r.cls = 3 ∧ s.err.next < 4032 ∧ s.err.occ.getLsbD 63 = false ∧ (∀ m, m < 63 → s.err.occ.getLsbD m = true) ∧ s.err.ring = [] ∧
       s.err.buffer = r :: [] ∧ s.err.takenNs ≠ s.nowNs ∧
       (let e : ErrState := { s.err with takenNs := 1000000, taken := 4 }
        e.takenNs = s.nowNs ∧ 4 ≤ e.taken) ∧ s.err.groups = [{ first := r, openedNs := 0 }] ∧ 0 + 1000000 ≤ s.nowNs) ∧
    (((withCommand up pkt 0xFFFF 0).fetch 0).turnOf pkt 0xFFFF []).isSome = true ∧
    ((0xFFFF#16).toNat ∉ definedOpcodes ∧ pkt.reserved = 0 ∧ bits pkt.flags 15 1 = 0 ∧ pkt.length ≤ 256) ∧
    (let s : State := (up.modQueue 4 (fun q => { q with typ := 4 })).modCo 0 (fun c => { c with telemetry := some (4, 0, 1, 0) })
     (s.co 0).telemetry = some (4, 0, 1, 0) ∧ s.absQueue 0 4 = some 4 ∧ (s.queue 4).gen = 0 ∧ (s.queue 4).gen ≠ 1 ∧ (s.queue 4).typ = 4 ∧
       s.sm.ready = true ∧ s.sm.list = [] ∧ s.nowNs < 0 + 1 * 2 ^ s.sm.decimation.toNat * 1000000 ∧
       0 + 1 * 2 ^ s.sm.decimation.toNat * 1000000 ≤ ({ s with nowNs := 1000000 } : State).nowNs ∧ (fetching 16).sm.list ≠ []) ∧
    (80 < (81#8).toNat ∧ 50 ≤ (50#8).toNat ∧ (80#8).toNat ≤ 80 ∧ (49#8).toNat < 50 ∧ up.sm.lowMs < 90 ∧ up.sm.decimation.toNat ≤ 6 ∧
      90 ≤ ({ up.sm with lowMs := 90 } : Sm).lowMs ∧ up.nowNs < up.sm.busyNs + 10000000 ∧
      up.sm.busyNs + 10000000 ≤ ({ up with nowNs := 10000000 } : State).nowNs) := by
  refine ⟨by decide +kernel, by decide +kernel, by decide +kernel, by decide +kernel, by decide +kernel, by decide +kernel, by decide +kernel⟩

/-! ### Witnesses: torus ports, lock, island -/

/-- A port that a running company uses, and one that nobody uses; a spare in use and one that is free; the last lane; the rate 10⁻⁵ itself and
just above it. -/
theorem test_witness_TorusCommandsAndLanesComplete :
    (let s : State := stage { state := .running }
     let p := fun (c : State) => !c.portQuiet true 0 && c.portQuiet true 7 && decide ((c.port 7).repoint = none) && decide ((c.port 7).spareFor = 0xF#4) &&
       !(c.port 7).swapPending && decide ((c.port 7).state ≠ .disabled)
     (served s (.torRepoint pkt 0 1 2 3) p && served s (.torRepoint pkt 7 1 2 3) p && served s (.torLaneSwap pkt 7 15) p &&
       served s (.torPortDisable pkt 0 true) p && served s (.torPortDisable pkt 7 true) p && served s (.torPortDisable pkt 7 false) p) = true ∧
     s.portQuiet false 0 = false ∧ (s.port 7).repoint = none ∧ (s.port 7).light = false ∧ (s.port 7).apr = false) ∧
    (let x : Port := { state := .disabled, spareFor := 3, swapPending := true, repoint := some (1, 2, pkt, 5), light := true, apr := true, lasers := true }
     let s : State := up.modPort 7 (fun _ => x)
     let p := fun (c : State) => decide (c.port 7 = x) && c.portQuiet true 7
     (served s (.torRepoint pkt 7 1 2 3) p && served s (.torLaneSwap pkt 7 15) p && served s (.torPortDisable pkt 7 false) p) = true ∧
       s.nowNs < 5 ∧ 5 ≤ ({ s with nowNs := 5 } : State).nowNs) ∧
    (let s : State := port0 up { swapPending := true, swapLane := 15 }
     (s.port 0).swapPending = true ∧ (s.port 0).state = .active ∧ s.portQuiet false 0 = true) ∧
    (let s : State := port0 up { lasers := true }
     (s.port 0).light = false ∧ (s.port 0).lasers = true) ∧
    (15#5).toNat < 16 ∧ (100000 ≥ 100000 * 1 ∧ 99999 < 100000 * 1) := by
  refine ⟨by decide +kernel, by decide +kernel, by decide +kernel, by decide +kernel, by decide, by decide⟩

/-- Every state of a port, with and without lasers, the third equal identity, and the latency limit of 1,152 cycles and one more. -/
theorem test_witness_TorusPortsBringUpComplete :
    ([PortState.down, .training, .identifying, .accepted, .measured, .active, .retraining, .repointing, .disabled].all (fun st => [true, false].all (fun on =>
      let i : Ident := ⟨1, 2, 3, 4⟩
      let s : State := up.modPort 7 (fun _ => { state := st, lasers := on, ident := some i, candidate := some i, candCount := 2 })
      decide ((s.port 7).state = st) && ((s.port 7).lasers == on) && decide ((s.port 7).candidate = some i) && decide (2 ≤ (s.port 7).candCount) &&
        decide ((s.port 7).ident = some i) && decide ((s.port 7).ident ≠ some { i with nport := 5 }) &&
        decide ((s.port 7).candidate ≠ some { i with nport := 5 })))) = true ∧
    ((List.replicate 64 (6582 * 2 + 5, 5)).length = 64 ∧ (175 * oneWay (List.replicate 64 (6582 * 2 + 5, 5)) + 999) / 1000 ≤ 1152 ∧
      1152 < (175 * oneWay (List.replicate 64 (6583 * 2 + 5, 5)) + 999) / 1000) := by
  refine ⟨by decide +kernel, by decide +kernel⟩

theorem test_witness_LockAndHouseEpochsComplete :
    (let s : State := (port0 up { lockState := 2, lockHops := 4, houseSeen := [(9, 5)] }).modPort 1 (fun x => { x with state := .disabled })
     let u : State := { s with tor := { s.tor with lockState := 2, parent := 0 } }
     (s.port 0).state.trained = true ∧ (s.port 0).state = .active ∧ (s.port 1).state.trained = false ∧ u.tor.root = false ∧ u.tor.lockState = 2 ∧
       u.tor.parent.toNat = 0 ∧ u.tor.parent.toNat ≠ 1) ∧
    (let s : State := port0 up { lockState := 2, lockHops := 4, houseSeen := [(9, 5)] }
     let u : State := { s with tor := { s.tor with lockState := 1, parent := 0 } }
     u.tor.root = false ∧ u.tor.lockState ≠ 2 ∧ u.tor.parent.toNat < 8 ∧ (u.port 0).lockState = 2 ∧ u.tor.everLocked = false ∧
       (u.port 0).houseSeen.getLast? = some (9, 5)) ∧
    (let s : State := { up with tor := { up.tor with lockState := 3 } }
     s.tor.lockState = 3 ∧ s.tor.holdoverLogged = false ∧ s.bestParent = none) ∧
    ([127, 128, 254, 255].all (fun n =>
      let s : State := port0 { up with tor := { up.tor with houseEpoch := BitVec.ofNat 64 n } } { houseSeen := [(BitVec.ofNat 64 (n + 1), 5)] }
      (List.range 8).all (fun p => decide ((s.port p).state ≠ .active) || (s.port p).houseSeen.contains (s.tor.houseEpoch + 1, 5)) &&
        decide ((s.port 0).state = .active) && decide ((s.port 0).houseSeen.find? (fun h => h.1 = s.tor.houseEpoch + 1) = some (s.tor.houseEpoch + 1, 5)) &&
        decide ((s.tor.houseEpoch + 1).toNat = n + 1))) = true ∧
    (let s : State := port0 up {}
     0 < 8 ∧ (s.port 0).state = .active ∧ (s.port 0).houseSeen = [] ∧ (s.port 0).houseSent ≠ some (s.tor.houseEpoch + 1) ∧
       65536 ≤ 65535 + (s.latencyNow 0 + 128) ∧ 0 + (s.latencyNow 0 + 128) < 65536 ∧ (s.port 1).state ≠ .active ∧ (s.port 1).state ≠ .measured) := by
  refine ⟨by decide +kernel, by decide +kernel, by decide +kernel, by decide +kernel, by decide +kernel⟩

/-- A call sheet of one active module with serial 5, its digest computed outside Lean from FIPS 180-4. -/
def sheetBytes : List Byte :=
  [80, 86, 56, 67, 65, 76, 76, 83, 1, 0, 32, 3, 9, 0, 0, 0, 1, 1, 1, 1, 1, 0, 0, 0, 0, 0, 0, 0, 3, 0, 0, 0, 5, 0, 0, 0, 0, 0, 0, 0] ++
    List.replicate 24 0 ++
  [207, 138, 0, 134, 166, 149, 103, 144, 72, 179, 90, 201, 12, 67, 125, 59, 242, 230, 173, 178, 253, 116, 95, 46, 115, 19, 203, 48, 80, 141, 11, 69,
   5, 0, 0, 0, 0, 0, 0, 0, 0, 0, 0, 0, 1, 0, 0, 0]

def sheet1 : Sheet := ⟨800, 9, [2, 1, 1, 1], 2, 0, 3, 5, [⟨5, 0, 1⟩, ⟨6, 1, 1⟩]⟩

theorem test_witness_CallSheetsAndCensusComplete :
    served (withDram up 0x9000 sheetBytes) (.islCallSheet pkt 0x9000 112) (fun c => decide (sheetCheck c 0x9000 112 = none)) = true ∧
    (served up (.islCallSheet pkt (BitVec.ofNat 48 dramBytes) 1) (fun c => !c.ownsDram 0 dramBytes 1) && served up (.islOverride pkt 0 true) (fun c =>
        decide (c.portCheck 0 ≠ 2)) && served up (.islOverride pkt 0 false) (fun c => !c.scriptBusy) &&
      served up (.islRoot pkt) (fun c => decide (c.island.sheet = none)) && served up (.rprAdopt pkt 9 1 5) (fun c => !c.isWarm)) = true ∧
    (let s : State := { stage { state := .armed } with island := { up.island with adopted := true } }
     served s (.islOverride pkt 0 false) (fun c => c.scriptBusy) && served s (.islRoot pkt) (fun c => c.island.adopted)) = true ∧
    (let s : State := up.modPort 0 (fun x => { x with ident := some ⟨77, 9, 1, 1⟩ })
     let s : State := { s with island := { s.island with sheet := some sheet1, role := 1, island := 9, coord := 0 } }
     served s (.islOverride pkt 0 true) (fun c => decide (c.portCheck 0 = 2) && !c.scriptBusy) &&
       served s (.islRoot pkt) (fun c => !c.island.adopted && decide (c.island.sheet ≠ none))) = true ∧
    served { up with island := { up.island with sheet := some sheet1, role := 2 } } (.rprAdopt pkt 9 1 5) (fun c => c.isWarm) = true ∧
    (sheet1.entries.find? (fun e => decide (e.serial = 6)) = some ⟨6, 1, 1⟩ ∧ sheet1.entries.find? (fun e => decide (e.serial = 7)) = none) ∧
    ([true, false].all (fun root =>
      let s : State := up.modPort 7 (fun x => { x with state := .active, child := true })
      let s : State := { s with island := { s.island with sheet := some sheet1, summing := true, roundRevision := some 3, roundNs := some 0 },
                                tor := { s.tor with root := root, parent := if root then 0xF else 2 } }
      decide (s.children = [7]) && (s.tor.root == root) && s.island.summing && decide (s.island.roundRevision = some 3) &&
        decide (s.island.sheet = some sheet1) && (root || decide (s.tor.parent.toNat = 2)) && decide (s.tor.parent.toNat ≠ 3) && !s.children.contains 6 &&
        decide (s.nowNs < 0 + 250000000) && decide (0 + 250000000 ≤ ({ s with nowNs := 250000000 } : State).nowNs))) = true ∧
    up.island.roundNs = none := by
  refine ⟨by decide +kernel, by decide +kernel, by decide +kernel, by decide +kernel, by decide +kernel, by decide +kernel, by decide +kernel, rfl⟩

/-! ### Witnesses: power, repair, module start, service side -/

theorem test_witness_PowerAndThermalComplete :
    (served up (.pwrCapSet pkt 1000) (fun _ => true) && served up (.pwrCapSet pkt 2400) (fun _ => true) && served up (.pwrCapSet pkt 999) (fun _ => true) &&
      served up (.pwrCapSet pkt 2401) (fun _ => true) && served up (.pwrNvSet pkt true) (fun _ => true) &&
      served up (.pwrFixedOp pkt 3) (fun c => (List.range 16).all (fun k => !c.runs k || (c.co k).lanes.isEmpty)) &&
      served (stage { state := .running }) (.pwrFixedOp pkt 3) (fun c => c.runs 0 && !(c.co 0).lanes.isEmpty)) = true ∧
    ([0, 654, 655].all (fun n => [true, false].all (fun critical =>
      let s : State := { stage { state := .running } with pwr := { up.pwr with overLast := true, critical := critical, stretch := n } }
      !s.pwr.throttleLogged && !s.pwr.droopLogged && s.runs 0 && (s.pwr.critical == critical) && s.pwr.overLast && decide (s.capNow < (2401#16).toNat) &&
        decide (min 65535 (2401 * s.pwr.gain.toNat / 16384) = 2401) && (decide (655 ≤ s.pwr.stretch) == decide (n = 655))))) = true ∧
    (0 + 655 ≤ 655 ∧ 655 < 0 + 656) ∧
    ((up.co 15).present = false ∧ ((up.modCo 15 (fun _ => company1)).co 15).present = true ∧
      (let s : State := (up.modCo 15 (fun c => { c with received := 7 }))
       s.receivedAll = 7 ∧ up.receivedAll = 0 ∧ up.nowNs < up.pwr.measuredNs + 1000000 ∧ up.pwr.measuredNs + 1000000 ≤ ({ s with nowNs := 1000000 } : State).nowNs)) ∧
    (let s : State := { up with nowNs := 100000000, pwr := { up.pwr with hotNs := some 99000000, coolNs := some 0 } }
     s.pwr.hotNs = some 99000000 ∧ 99000000 + 1000000 ≤ s.nowNs ∧ s.pwr.coolNs = some 0 ∧ 0 + 100000000 ≤ s.nowNs ∧ up.pwr.hotNs = none ∧
       up.pwr.coolNs = none ∧ s.pwr.trimmedNs + 1000000 ≤ s.nowNs) ∧
    (up.svc.powered = true ∧ up.pwr.shutdown = false ∧ up.pwr.ageing = false ∧ up.smHolds = false ∧
      up.nowNs < up.pwr.trimmedNs + 1000000 ∧ ({ up.pwr with ageing := true } : Pwr).ageing = true) := by
  refine ⟨by decide +kernel, by decide +kernel, by decide, by decide +kernel, by decide +kernel, by decide +kernel⟩

/-- Row 0 of die W has its spare core 16; the last unit of each kind; a row whose spare is taken; each boot phase. -/
theorem test_witness_RepairAndModuleStartComplete :
    (served up (.rprMark pkt 0 0 0) (fun c => decide (markCheck c 0 0 0 = none) && decide ((c.roleOf 0).role = 1) && decide (c.rowSpare 0 = some 16)) &&
      served up (.rprMark pkt 0 1 81919) (fun c => decide (markCheck c 0 1 81919 = none)) &&
      served up (.rprMark pkt 383 2 0) (fun c => decide (markCheck c 383 2 0 = none)) && served up (.rprMark pkt 384 2 0) (fun _ => true) &&
      served { up with roles := [(16, some ⟨2, 0x1F, 0x1F⟩)] } (.rprMark pkt 0 0 0) (fun c => decide ((c.roleOf 0).role = 1) && !c.coreSpare 0) &&
      served up (.rprPolicy pkt 1 1) (fun _ => true) && served up (.rprPolicy pkt 0 1) (fun _ => true)) = true ∧
    ([0, 1].all (fun n =>
      let a : Armed := ⟨0, 0, 0, false⟩
      let e : HoldEntry := ⟨10, 2, 0, 0, 0, 0, 5, 0⟩
      let s : State := (stage {}).modSeq 0 (fun q => { q with state := .held, held := true, image := some { img with holds := [e] } })
      let s : State := { s with rpr := { s.rpr with armed := if n = 0 then [] else [a] } }
      decide ((s.co 0).seq.hold = some e) && !(s.co 0).seq.met && decide (s.armedFor 0 = (if n = 0 then [] else [a])) && decide (a.kind = 0) &&
        decide (s.rpr.log.length < 256) && decide ((s.roleOf 0).role = 1) && decide (s.rowSpare 0 = some 16))) = true ∧
    (up.co 0).seq.hold = none ∧
    (let b : Boot := {}
     b.powerGood = false ∧ up.pwr.shutdown = false ∧ b.band ≠ .lost ∧ up.boot.powerGood = true ∧ b.phase = 0 ∧
       ({ up.boot with phase := 1 } : Boot).phase = 1 ∧ up.rpr.log = [] ∧ up.boot.found = [] ∧ up.svc.safe = false ∧
       ({ up.boot with phase := 2 } : Boot).phase = 2 ∧ up.boot.phase ≠ 2 ∧ (up.port 7).state ≠ .disabled) ∧
    (let s : State := { up with island := { up.island with sheet := some sheet1, role := 2 } }
     s.isWarm = true ∧ ¬ (424 / 425 = if true then 1 else 0)) ∧
    (40000 ≤ (40000#16).toNat ∧ (60000#16).toNat ≤ 60000 ∧ (62000#16).toNat ≤ 62000 ∧ 38000 ≤ (38000#16).toNat ∧ (37999#16).toNat < 38000 ∧
      62000 < (62001#16).toNat ∧ up.boot.band ≠ .lost ∧
      (let b : Boot := { up.boot with band := .lost, powerGood := false }
       b.band = .lost ∧ b.powerGood = false)) := by
  refine ⟨by decide +kernel, by decide +kernel, by decide +kernel, by decide +kernel, by decide +kernel, by decide +kernel⟩

theorem test_witness_ServiceSideComplete :
    (up.svc.powered = true ∧ up.sm.ready = true ∧ up.cip.sealedMode = false ∧ State.reset.sm.ready = false ∧ State.reset.svc.powered = false ∧
      3000000 ∈ [115200, 230400, 460800, 921600, 1500000, 3000000] ∧ 115201 ∉ [115200, 230400, 460800, 921600, 1500000, 3000000]) ∧
    (let r : ErrRec := { source := 5, cls := 3 }
     let s : State := { up with err := { next := 1, occ := (1 : DWord) <<< 63, ring := [(0, some r), (4095, some r)] }, svc := { up.svc with alert := true } }
     s.err.occ = (1 : DWord) <<< 63 ∧ tget none s.err.ring (4032 + 63) = some r ∧ 0 < s.err.next ∧ s.err.next ≠ 1024 ∧
       tget none s.err.ring (s.err.next - 1) = some r ∧ s.svc.alert = true) ∧
    (0x3FFFFFF < 0x4000000 ∧ 0x3FFFFFF / 8 * 8 ≠ 0x200008 ∧ 0x3FFFFFF % 0x4000 / 4 * 4 ≠ 0x14 ∧ 0x1FFFFFF < 0x2000000) ∧
    (let d : List Byte := List.replicate 248 0
     d.length ≤ 248 ∧ 248 < (0 :: d).length) := by
  refine ⟨by decide +kernel, by decide +kernel, by decide, by decide +kernel⟩

/-! ### Published test vectors of the standards that the manual names -/

/-- FIPS 180-4: SHA-256 of "abc". -/
theorem test_sha256_abc : sha256 (ascii "abc") = beBytes 32 0xba7816bf8f01cfea414140de5dae2223b00361a396177a9cb410ff61f20015ad := by decide +kernel

/-- FIPS 197 appendix C.3: AES-256, both ways. -/
theorem test_aes256 :
    let key := (List.range 32).map (BitVec.ofNat 8)
    let p := (List.range 16).map (fun i => BitVec.ofNat 8 (17 * i))
    let c := beBytes 16 0x8ea2b7ca516745bfeafc49904b496089
    aesEnc key p = c ∧ aesDec key c = p := by decide +kernel

/-- The Galois/Counter Mode specification's test case 14: AES-256 with a zero key, nonce and block. -/
theorem test_gcm_case14 :
    let z := fun n => List.replicate n (0 : Byte)
    gcmCrypt (z 32) (z 12) (z 16) = beBytes 16 0xcea7403d4d606b6e074ec5d3baf39d18 ∧
      gcmTag (z 32) (z 12) [] (beBytes 16 0xcea7403d4d606b6e074ec5d3baf39d18) = beBytes 16 0xd0d1c8a799996bf0265b98b5d48ab919 := by decide +kernel

/-- The check values of CRC-32, CRC-32C and the SMBus packet error code over "123456789". -/
theorem test_crc_check_values :
    crc32 (ascii "123456789") = 0xCBF43926 ∧ crc32c (ascii "123456789") = 0xE3069283 ∧ pec (ascii "123456789") = 0xF4 := by decide +kernel

/-! ### Values that the manual gives -/

/-- A PHASE section of one entry (R446) and a HOLDS section of a curtain hold at step cycle 0 (R155), laid out by hand. -/
theorem test_image_layout :
    let s := { stage {} with dram := [(1024, 1), (1026, 7), (1040, 7), (1306, 16)] }
    readPhase s ⟨1024, 24⟩ = some (7, [(0, 7)]) ∧
      readHolds s (s.loadCtx 0) ⟨1280, 32⟩ = some [⟨0, 1, 0, 0, 0, 0, 0, 0⟩] := by decide +kernel

/-- One rounding per operation: 1 + 2 = 3; 1 + 2⁻²⁴ is a tie and goes to the even 1 (R70). -/
theorem test_fp32_addition :
    fadd 0x3F800000 0x40000000 = 0x40400000 ∧ fadd 0x3F800000 0x33800000 = 0x3F800000 ∧ fadd 0x3F800001 0x33800000 = 0x3F800002 := by decide +kernel

/-- Module reset (R9, R443, R491): phase 0, nothing waiting, every window idle; the first step of an empty queue changes nothing. -/
theorem test_reset : State.reset.readReg 0 0x10 = 0 ∧ State.reset.pending = [] ∧ step State.reset = .next State.reset ∧
    decodeTableWord 64 0 = none := ⟨by decide +kernel, rfl, rfl, rfl⟩

/-- The house has every quarter that nobody holds (R372), and a destroyed company's queue goes back to it. -/
theorem test_house_holds_the_rest : (up.modCo 1 (fun _ => company1)).queueCo 16 = 1 ∧ (up.modCo 1 (fun _ => company1)).queueCo 15 = 0 ∧
    (up.modCo 1 (fun _ => company1)).quarterOwner 1 = 1 ∧ (up.modCo 1 (fun _ => company1)).quarterOwner 0 = 0 := by decide +kernel

end Sys2Proof.Tests
end

section
/-!
SUPPORT. The hold events of a stage (R155 to R161, R166, R258, R318, R463), the curtain's post and a report's landing (R86): what
each does where its condition is met, and where it is not; O26 is put together from them.
-/

namespace Sys2Proof.Machine

section
variable {s u : State} {k n : Nat}

/-! ### The events of an existing company -/

theorem exec_holdEnter (hk : k < 16) : exec (.holdEnter k) s = .next (s.holdEnter k) := onCompany_lt hk s (·.holdEnter k)

theorem exec_releaseReceive (hk : k < 16) (p : BitVec 3) (entry : BitVec 12) (step : BitVec 16) :
    exec (.releaseReceive k p entry step) s = .next (s.releaseReceive k p.toNat entry step) :=
  onCompany_lt hk s (·.releaseReceive k p.toNat entry step)

theorem exec_holdResume (hk : k < 16) (ns guardNs : Nat) : exec (.holdResume k ns guardNs) s = .next (s.holdResume k ns guardNs) :=
  onCompany_lt hk s (·.holdResume k ns guardNs)

theorem exec_holdLong (hk : k < 16) : exec (.holdLong k) s = .next (s.holdLong k) := onCompany_lt hk s (·.holdLong k)

theorem exec_curtainPost (hk : k < 16) : exec (.curtainPost k) s = .next (s.curtainPost k) := onCompany_lt hk s (·.curtainPost k)

theorem exec_rmonReportLanded (hk : k < 16) : exec (.rmonReportLanded k) s = .next (s.reportLanded k) := onCompany_lt hk s (·.reportLanded k)

/-! ### Entry and RELEASE frames (R157, R158) -/

/-- Where the next hold comes before every boundary, the stage goes on to its cycle and stops there. -/
theorem State.holdEnter_of_first {e : HoldEntry} (hn : (s.co k).seq.cyclesToHold = some n)
    (he : (s.co k).seq.image.bind (fun i => i.holds[(s.co k).seq.nextHold]?) = some e) (ha : (s.co k).seq.advancing = true)
    (hepoch : n < (s.co k).seq.cyclesToEpoch)
    (hstep : ((s.co k).seq.cyclesLeft (s.co k).upd.recastArmed).elim True (fun m => n < m)) (hu : s.stageBy k n = some u) :
    s.holdEnter k = u.enterHold k (s.co k).seq.nextHold e := by
  have hleft : ((s.co k).seq.cyclesLeft (s.co k).upd.recastArmed).elim true (fun m => decide (n < m)) = true := by
    cases hc : (s.co k).seq.cyclesLeft (s.co k).upd.recastArmed with
    | none => rfl
    | some m => simpa [hc] using hstep
  simp [State.holdEnter, hn, he, ha, hepoch, hleft, hu]

/-- A RELEASE for the hold in force clears the pending bit of its port. -/
theorem State.releaseReceive_in_force {p : Nat} {entry : BitVec 12} {step : BitVec 16} (hp : (s.activePorts k).contains p = true)
    (hh : (s.co k).seq.held = true) (he : (s.co k).seq.entry = entry) (hs : step = BitVec.ofNat 16 (s.co k).seq.step.toNat) :
    s.releaseReceive k p entry step =
      s.modSeq k (fun q => { q with pendingPorts := q.pendingPorts &&& ~~~((1 : Byte) <<< (7 - p)) }) := by
  simp only [State.releaseReceive, hp, Bool.not_true, Bool.false_eq_true, if_false, if_pos (And.intro hh (And.intro he hs))]

/-- A RELEASE for another hold is kept for the hold that it names. -/
theorem State.releaseReceive_kept {p : Nat} {entry : BitVec 12} {step : BitVec 16} (hp : (s.activePorts k).contains p = true)
    (ho : (s.co k).seq.held = false ∨ (s.co k).seq.entry ≠ entry ∨ step ≠ BitVec.ofNat 16 (s.co k).seq.step.toNat)
    (hnew : (p, entry, step) ∉ (s.co k).seq.releases) :
    s.releaseReceive k p entry step = s.modSeq k (fun q => { q with releases := q.releases ++ [(p, entry, step)] }) := by
  have hother : ¬ ((s.co k).seq.held = true ∧ (s.co k).seq.entry = entry ∧ step = BitVec.ofNat 16 (s.co k).seq.step.toNat) := by
    rintro ⟨hh, he, hs⟩
    simp [hh, he, hs] at ho
  have hfresh : (s.co k).seq.releases.contains (p, entry, step) = false := by simpa using hnew
  simp only [State.releaseReceive, hp, Bool.not_true, Bool.false_eq_true, if_false, if_neg hother, hfresh]

/-! ### Release and resumption (R158, R166, R258, R318) -/

/-- The stage of company `k` runs on after a hold of `ns` of wall time: its rows reopen, and dead ports count again (R157, R190). -/
def State.resumed (s : State) (k ns : Nat) : State :=
  ((s.modSeq k (fun q => { q with state := .running, held := false, holdNs := q.holdNs + BitVec.ofNat 64 ns })).reopenRows k ns).countDead k

/-- A hold whose condition and markers are met resumes the stage, and then does what its kind asks for. -/
theorem State.holdResume_of_met {e : HoldEntry} {ns : Nat} (he : (s.co k).seq.hold = some e) (hm : (s.co k).seq.met = true)
    (hp : (s.co k).seq.pendingPorts = 0) (ht : s.nowNs ≤ (s.co k).seq.heldSince + ns) (guardNs : Nat) :
    s.holdResume k ns guardNs =
      if e.kind = 1 then ((s.resumed k ns).modPak k (fun p => { p with holdNs := p.holdNs + BitVec.ofNat 64 guardNs })).curtainAct k
      else if e.kind = 3 then (s.resumed k ns).modFar k (fun f => f.leaveHold (s.roundDue k (s.co k).seq.entry.toNat))
      else s.resumed k ns := by
  simp [State.holdResume, State.resumed, he, hm, hp, ht]

/-- A hold that lacks its condition or a RELEASE goes on. -/
theorem State.holdResume_of_waiting {e : HoldEntry} (he : (s.co k).seq.hold = some e)
    (hw : (s.co k).seq.met = false ∨ (s.co k).seq.pendingPorts ≠ 0) (ns guardNs : Nat) : s.holdResume k ns guardNs = s := by
  rcases hw with hm | hp
  · simp [State.holdResume, he, hm]
  · have hpend : ¬ (s.co k).seq.pendingPorts = 0#8 := hp
    simp [State.holdResume, he, hpend]

/-! ### Long holds (R155, R161) -/

theorem HoldEntry.warnNs_eq (e : HoldEntry) : e.warnNs = 1000000 * (if e.warnMs = 0 then 10000 else e.warnMs) := Nat.mul_comm _ _

/-- A hold that has lasted WARN_MS is logged, where it has not been. -/
theorem State.holdLong_of_due {e : HoldEntry} (he : (s.co k).seq.hold = some e) (hl : (s.co k).seq.longLogged = false)
    (hd : (s.co k).seq.heldSince + e.warnNs ≤ s.nowNs) :
    s.holdLong k = (s.modSeq k (fun q => { q with longLogged := true })).log 1 k 1 k 0x0B04#16
      [(12, (s.co k).seq.entry.toNat), (8, (s.co k).seq.pendingPorts.toNat)] := by
  simp [State.holdLong, he, hl, hd]

/-- A hold that has been logged, or has not lasted WARN_MS, is not logged. -/
theorem State.holdLong_of_not_due {e : HoldEntry} (he : (s.co k).seq.hold = some e)
    (hd : (s.co k).seq.longLogged = true ∨ s.nowNs < (s.co k).seq.heldSince + e.warnNs) : s.holdLong k = s := by
  rcases hd with hl | ht
  · simp [State.holdLong, he, hl]
  · simp [State.holdLong, he, Nat.not_le.mpr ht]

/-! ### After the curtain (R86, R258) -/

/-- The post of a curtain that has acted goes out while the stage is neither held nor at a barrier. -/
theorem State.curtainPost_of_due {im : Image} {x : UpdSection} (hi : (s.co k).seq.image = some im) (hx : im.update = some x)
    (hd : (s.co k).upd.curtainPostDue = true) (hh : (s.co k).seq.held = false) (hw : (s.co k).seq.waiting = false) :
    s.curtainPost k = (s.modUpd k (fun y => { y with curtainPostDue := false })).stagePost k x.ctrIndex x.ctrGen 1 := by
  simp [State.curtainPost, hi, hx, hd, hh, hw]

end

/-- Settles O26: each event by the lemma for the case that its premises select. -/
theorem holdEventsComplete : Obligations.HoldEventsComplete := by
  intro s k hk
  refine ⟨?enter, ?release, ?resume, ?waiting, ?long, ?post, ?report⟩
  case enter =>
    intro u n e hn he ha hepoch hstep hu
    rw [exec_holdEnter hk, State.holdEnter_of_first hn he ha hepoch hstep hu]
    rfl
  case release =>
    intro p entry step hp
    rw [exec_releaseReceive hk]
    exact ⟨fun hh he hs => by rw [State.releaseReceive_in_force hp hh he hs],
      fun ho hnew => by rw [State.releaseReceive_kept hp ho hnew]⟩
  case resume =>
    intro e ns guardNs he hm hp ht
    rw [exec_holdResume hk, State.holdResume_of_met he hm hp ht]
    refine ⟨fun hkind => ?_, fun hkind => ?_, fun hkind => ?_⟩
    · rw [if_neg (by omega), if_neg (by omega)]; rfl
    · rw [if_pos hkind]; rfl
    · rw [if_neg (by omega), if_pos hkind]; rfl
  case waiting =>
    intro e ns guardNs he hw
    rw [exec_holdResume hk, State.holdResume_of_waiting he hw]
  case long =>
    intro e he warn
    rw [exec_holdLong hk, ← (e.warnNs_eq : e.warnNs = 1000000 * warn)]
    exact ⟨fun hl hd => by rw [State.holdLong_of_due he hl hd], fun hd => by rw [State.holdLong_of_not_due he hd]⟩
  case post =>
    intro im u hi hu hd hh hw
    rw [exec_curtainPost hk, State.curtainPost_of_due hi hu hd hh hw]
  case report =>
    intro im r step attempt bs rest hi hr hp
    rw [exec_rmonReportLanded hk]
    simp [State.reportLanded, hi, hr, hp]

end Sys2Proof.Machine
end

section
/-!
SUPPORT. The staged curtain commands RMON_SET_SCALE, UPD_SET_CONST, COL_RESHARD, PAK_SNAP_SET and FAR_RUN: their checks pass and they
join the open transaction (R94, R227, R266, R276, R335, R406), and what each does at its curtain (R95, R228, R267, R277, R335); O33 is put
together from them.
-/

namespace Sys2Proof.Machine

/-! ### The checks of RMON_SET_SCALE and UPD_SET_CONST (R94, R266) -/

section
variable {s : State} {k : Nat}

/-- RMON_SET_SCALE passes for a slot of an engine that exists and is the house's to name or granted. -/
theorem scaleCheck_engine {index : BitVec 10} {slot : BitVec 6} {v : BitVec 8} (hlo : -64 ≤ v.toInt) (hhi : v.toInt ≤ 63)
    (hi : index.toNat < 48) (hs : slot.toNat < 16) (hq : k = 0 ∨ (s.co k).quarters.getLsbD index.toNat = true) :
    scaleCheck true index slot v s k = none := by
  have hexp : ¬ (v.toInt < -64 ∨ 63 < v.toInt ∨ 16 ≤ slot.toNat) := by omega
  rcases hq with rfl | hq
  · simp [scaleCheck, hexp, hi]
  · simp [scaleCheck, hexp, hi, hq]

/-- RMON_SET_SCALE passes for a core of the company's rectangle. -/
theorem scaleCheck_core {index : BitVec 10} {slot : BitVec 6} {v : BitVec 8} {r : Rect} (hlo : -64 ≤ v.toInt) (hhi : v.toInt ≤ 63)
    (hk : k ≠ 0) (hr : (s.co k).rect = some r) (hrow : index.toNat / 32 < r.rows) (hcol : index.toNat % 32 < r.cols) :
    scaleCheck false index slot v s k = none := by
  have hexp : ¬ (v.toInt < -64 ∨ 63 < v.toInt) := by omega
  simp [scaleCheck, hexp, hk, hr, hrow, hcol]

/-- RMON_SET_SCALE of the house passes for a core of the grid. -/
theorem scaleCheck_house_core {index : BitVec 10} {slot : BitVec 6} {v : BitVec 8} (hlo : -64 ≤ v.toInt) (hhi : v.toInt ≤ 63)
    (hrow : index.toNat / 32 < s.grid) : scaleCheck false index slot v s 0 = none := by
  have hexp : ¬ (v.toInt < -64 ∨ 63 < v.toInt) := by omega
  simp [scaleCheck, hexp, hrow]

/-- UPD_SET_CONST passes for a finite value and a program of the image. -/
theorem constCheck_declared {program : BitVec 4} {v : Word} {im : Image} {u : UpdSection} (hi : (s.co k).seq.image = some im)
    (hu : im.update = some u) (hp : program.toNat < u.programs.length) (hv : (f32dec v).nonFinite = false) :
    constCheck program v s k = none := by
  simp [constCheck, hi, hu, hv, hp]

/-! ### At the curtain (R95, R228, R335) -/

/-- RMON_SET_SCALE of a company's core sets SCALE_EXP of the slot on the physical core at that position. -/
theorem State.applyScale_core {index slot p : Nat} (v : BitVec 8) (hk : k ≠ 0) (hp : s.relPhys k (index / 32) (index % 32) = some p) :
    s.applyScale k false index slot v =
      s.modCore p (fun c => { c with rmon := tmod {} c.rmon slot (fun r => { r with scaleExp := v }) }) := by
  simp [State.applyScale, hk, hp]

/-- After a COMMIT the re-shard, with the plans read at the curtain, waits for its phase. -/
theorem State.applyReshard_commit (s : State) (k addr len epochs ctr : Nat) (gen : BitVec 8) :
    let c := (s.applyReshard k addr len epochs ctr gen true).co k
    c.col.reshardState = 1 ∧ c.seq.phase = .reshardWait ∧
      c.col.reshard = some ((readPlans s (s.loadCtx k) true { base := addr, len := len }).getD [], epochs, ctr, gen) := by
  simp [State.applyReshard]

/-- With ENABLE clear the far run ends. -/
theorem State.applyFar_disable (s : State) (k addr len : Nat) :
    let f := ((s.applyFar k addr len false).co k).far
    f.table = none ∧ f.enabled = false ∧ f.phase = .idle ∧ f.inRound = false := by
  simp [State.applyFar, Far.off]

/-- With ENABLE set the round table read at the curtain is installed, and no round is in progress. -/
theorem State.applyFar_enable {addr len : Nat} {t : RoundTable} {ps : List (Parcel × Shard)}
    (ht : readRoundTable s k addr len = some (t, ps)) :
    let f := ((s.applyFar k addr len true).co k).far
    f.table = some t ∧ f.enabled = true ∧ f.phase = .idle ∧ f.inRound = false ∧ f.gateway = decide (t.gatewayIndex ≠ 0xFFFF) := by
  simp [State.applyFar, ht, Far.off]

end

/-- Settles O33: each command by `State.serve_staged` once its checks pass, and each curtain effect by its own rule. -/
theorem stagedCurtainCommandsComplete : Obligations.StagedCurtainCommandsComplete := by
  refine ⟨fun s c j h ht => ⟨?scale, ?const, ?reshard, ?snap, ?far⟩,
    fun s k h commit => ⟨?atConst, ?atEngine, ?atCore, ?atSkip, ?atCommit, ?atSnap, ?atDisable, ?atEnable⟩⟩
  case scale =>
    intro unit index slot v hs hlo hhi hnamed
    refine congrArg Host.Outcome.next (State.serve_staged hs ht _ (scaleCheck unit index slot v) _ ?_)
    obtain ⟨rfl, hi, hslot, hq⟩ | ⟨rfl, hk, r, hr, hrow, hcol⟩ | ⟨rfl, hk, hrow⟩ := hnamed
    · exact scaleCheck_engine hlo hhi hi hslot hq
    · exact scaleCheck_core hlo hhi hk hr hrow hcol
    · rw [hk]; exact scaleCheck_house_core hlo hhi hrow
  case const =>
    intro program index v im u hs hi hu hp hv
    exact congrArg Host.Outcome.next (State.serve_staged hs ht _ _ _ (constCheck_declared hi hu hp hv))
  case reshard =>
    intro a n e i g hs hc
    exact congrArg Host.Outcome.next (State.serve_staged hs ht _ _ _ hc)
  case snap =>
    intro en ev l d q g x p w hs hc
    exact congrArg Host.Outcome.next (State.serve_staged hs ht _ _ _ hc)
  case far =>
    intro a n en hs hc
    exact congrArg Host.Outcome.next (State.serve_staged hs ht _ _ _ hc)
  case atConst => exact fun p i v => rfl
  case atEngine => exact fun i slot v => rfl
  case atCore => exact fun i slot v p hp hk => State.applyScale_core v hk hp
  case atSkip => exact fun a n e i g => rfl
  case atCommit =>
    intro a n e i g
    obtain ⟨hstate, hphase, hplans⟩ := State.applyReshard_commit s k a.toNat n.toNat e.toNat i.toNat g
    exact ⟨hstate, hphase, _, hplans⟩
  case atSnap => exact fun en ev l d q g x p w => rfl
  case atDisable => exact fun a n => State.applyFar_disable s k a.toNat n.toNat
  case atEnable => exact fun a n x e hx => State.applyFar_enable hx

end Sys2Proof.Machine
end

section
/-!
SUPPORT. The vector slot's register forms (R99, R134, R135, R143): a form without a reserved value lands one result per written element
and counts the non-finite ones under NF; O14 and O15 are put together from them.
-/

namespace Sys2Proof.Machine

/-! ### Landing and counting -/

/-- Results landed one by one, each `lat` cycles after the core's cycle, are appended in order. -/
theorem Core.foldl_land (c : Core) (es : List Nat) (lat prio : Nat) (eff : Nat → Effect) :
    es.foldl (fun (d : Core) e => d.land (d.cycle + lat) prio (eff e)) c =
      { c with landings := c.landings ++ es.map (fun e => ⟨c.cycle + lat, prio, eff e⟩) } := by
  induction es generalizing c with
  | nil => simp
  | cons e es ih => rw [List.foldl_cons, ih]; simp [Core.land]

/-- The core `d` with one result per element that slot `w` writes, `bytes e` at element `e`, and the non-finite ones among their values
`val e` counted under NF (R100, R134, R143). -/
def Core.landElements (d : Core) (w : DWord) (lat : Nat) (bytes : Nat → List Byte) (val : Nat → Word) : Core :=
  { d with
    landings := d.landings ++ elementLandings d w lat bytes
    nonfinite := d.nonfinite + if bit w 56 then ((vecElems w).filter (fun e => (f32dec (val e)).nonFinite)).length else 0 }

/-- Landing raw bytes for the written elements and counting their values is `landElements`. -/
theorem Core.countNf_foldl_land (d : Core) (w : DWord) (lat : Nat) (bytes : Nat → List Byte) (val : Nat → Word) :
    ((vecElems w).foldl
      (fun (c : Core) e => c.land (c.cycle + lat) 1 (.vreg (bits w 47 43) ((if bit w 57 then 2 else 4) * e) (bytes e))) d).countNf
        (bit w 56) ((vecElems w).map val) = d.landElements w lat bytes val := by
  rw [Core.foldl_land]
  cases hnf : bit w 56 <;> simp [Core.countNf, Core.landElements, elementLandings, hnf, List.filter_map, Function.comp_def]

/-! ### The register forms -/

section
variable {w : DWord} {op : Nat}

/-- A register form carries no reserved bit. -/
theorem vecRegOk_of_registerForm (h : registerForm op w) : vecRegOk op w = true := by
  obtain ⟨hop, hzero⟩ := h
  simp [vecRegOk, slotOp, hop, hzero]

/-- Elementwise arithmetic lands its results, each rounded to the element format. -/
theorem Core.vecArith_of_registerForm (h : registerForm op w) (lat : Nat) (f : Word → Word → Word → Word) (c : Core) :
    Core.vecArith op lat f c w =
      let d := c.vectorCut c.cycle
      let bf := bit w 57
      let g := fun e => f (d.velem bf (bits w 42 38) e) (d.velem bf (bits w 37 33) e) (d.velem bf (bits w 32 28) e)
      some (d.landElements w lat (fun e => elemBytes bf (g e)) (fun e => if bf then bfWiden (toBf (g e)) else g e)) := by
  rw [Core.vecArith, if_pos (vecRegOk_of_registerForm h)]
  exact congrArg some (Core.countNf_foldl_land ..)

/-- VCMP with a condition code that is not reserved is elementwise arithmetic (R134). -/
theorem Core.issueVcmp_of_code (hcode : bits w 27 24 < 4) (c : Core) :
    c.issueVcmp w = Core.vecArith 0x09 2 (fun a b _ => if vcmpHolds (bits w 27 24) a b then f32one else f32zero) c w :=
  if_pos hcode

/-- A copying form lands the bits of the element picked for each written one. -/
theorem Core.vecCopy_of_registerForm (h : registerForm op w) (pick : Core → Nat → Nat × Nat) (c : Core) :
    Core.vecCopy op pick c w =
      let d := c.vectorCut c.cycle
      let bf := bit w 57
      let n := if bf then 2 else 4
      some (d.landElements w 2 (fun e => leBytes n (lineBits (tget 0 d.vregs (pick d e).1) (8 * n * (pick d e).2) (8 * n)))
        (fun e => d.velem bf (pick d e).1 (pick d e).2)) := by
  rw [Core.vecCopy, if_pos (vecRegOk_of_registerForm h)]
  exact congrArg some (Core.countNf_foldl_land ..)

/-- VFN of a defined function lands it 12 cycles after issue, or 20 with N (R97, R104). -/
theorem Core.vecFn_of_registerForm (h : registerForm 0x0C w) (hcode : fnDefined (bits w 27 24) = true) (c : Core) :
    c.vecFn w =
      let d := c.vectorCut c.cycle
      let bf := bit w 57
      let g := fun e => vfn (bits w 27 24) (bit w 55) (d.velem bf (bits w 42 38) e)
      some (d.landElements w (if bit w 55 then 20 else 12) (fun e => elemBytes bf (g e))
        (fun e => if bf then bfWiden (toBf (g e)) else g e)) := by
  rw [Core.vecFn, if_pos (by simp [vecRegOk_of_registerForm h, hcode])]
  exact congrArg some (Core.countNf_foldl_land ..)

/-- VAGEN.DESC with an even ELEM lands two FP32 elements of VA as the descriptor (R113). -/
theorem Core.vecDesc_of_registerForm (h : registerForm 0x0D w) (heven : bits w 53 48 % 2 = 0) (c : Core) :
    c.vecDesc w =
      let d := c.vectorCut c.cycle
      some (d.land (d.cycle + 2) 1 (.agenDesc (BitVec.ofNat 64 (lineBits (tget 0 d.vregs (bits w 42 38)) (32 * bits w 53 48) 64)))) := by
  rw [Core.vecDesc, if_pos (by simp [vecRegOk_of_registerForm h, heven])]

end

/-- Settles O14: each operation is elementwise arithmetic with its own function and latency. -/
theorem vectorArithmeticCompletes : Obligations.VectorArithmeticCompletes := by
  intro s t p cycle w hp hi
  have lands {op : Nat} (h : registerForm op w) (lat : Nat) (f : Word → Word → Word → Word) :=
    slotOutcome_effect (f := fun _ c w => Core.vecArith op lat f c w) hp hi (Core.vecArith_of_registerForm h lat f)
  refine ⟨fun h => ?add, fun h => ?sub, fun h => ?mul, fun h => ?fma, fun h => ?max, fun h => ?min, fun h => ?abs, fun h => ?neg,
    fun h hcode => ?cmp⟩
  case add => exact lands h 4 (fun a b _ => fadd a b)
  case sub => exact lands h 4 (fun a b _ => fsub a b)
  case mul => exact lands h 4 (fun a b _ => fmul a b)
  case fma => exact lands h 4 ffma
  case max => exact lands h 2 (fun a b _ => fmax a b)
  case min => exact lands h 2 (fun a b _ => fmin a b)
  case abs => exact lands h 2 (fun a _ _ => fabs a)
  case neg => exact lands h 2 (fun a _ _ => fneg a)
  case cmp =>
    exact slotOutcome_effect hp hi (fun c => (Core.issueVcmp_of_code hcode c).trans (Core.vecArith_of_registerForm h 2 _ c))

/-- Settles O15: VSEL and VBCAST are copying forms, VFN and VAGEN.DESC have their own rules. -/
theorem vectorSelectAndFunctionComplete : Obligations.VectorSelectAndFunctionComplete := by
  intro s t p cycle w hp hi
  refine ⟨fun h => ?sel, fun h => ?bcast, fun h hcode => ?fn, fun h heven => ?desc⟩
  case sel => exact slotOutcome_effect hp hi (Core.vecCopy_of_registerForm h _)
  case bcast => exact slotOutcome_effect hp hi (Core.vecCopy_of_registerForm h _)
  case fn => exact slotOutcome_effect hp hi (Core.vecFn_of_registerForm h hcode)
  case desc => exact slotOutcome_effect hp hi (Core.vecDesc_of_registerForm h heven)

end Sys2Proof.Machine
end

section
/-!
SUPPORT. The vector slot's row forms (R134 to R138): a form whose rows exist starts its operation, one on a cast descriptor only where
that names a target; what VAGEN.TABLE does in its issue cycle (R112, R116, R143). O16 is put together from them.
-/

namespace Sys2Proof.Machine

/-- A row form with opcode `op` names tile lines that exist (R130, R134). -/
def rowForm (op : Nat) (w : DWord) : Prop := bits w 63 58 = op ∧ bits w 54 38 ≤ 81919 ∧ bits w 37 21 ≤ 81919

section
variable {w : DWord} {op : Nat}

/-- A row form carries no reserved line address. -/
theorem vecRowOk_of_rowForm (h : rowForm op w) : vecRowOk op w = true := by
  obtain ⟨hop, hsrc, hdst⟩ := h
  simp [vecRowOk, slotOp, lineOk, tileLines, hop, Nat.lt_succ_of_le hsrc, Nat.lt_succ_of_le hdst]

/-! ### Forms without a cast descriptor -/

/-- VWIDEN starts; from P4 only with N a multiple of 32 (R135). -/
theorem Core.rowWiden_of_rowForm (h : rowForm 0x20 w) (hfmt : bits w 1 0 = 3 → bits w 9 5 = 31) (x : SlotCtx) (c : Core) :
    c.rowWiden x w = some (c.startRow x w (.widen (bits w 1 0)) 64 0 0 0) := by
  have hok : (decide (bits w 1 0 ≠ 3) || decide (bits w 9 5 = 31)) = true := by
    rw [Bool.or_eq_true, decide_eq_true_iff, decide_eq_true_iff]
    exact Decidable.imp_iff_not_or.mp hfmt
  rw [Core.rowWiden, if_pos (by simp only [vecRowOk_of_rowForm h, hok, Bool.and_self])]

theorem Core.rowStat_of_rowForm (h : rowForm 0x22 w) (x : SlotCtx) (c : Core) :
    c.rowStat x w = some (c.startRow x w (.rowstat (bits w 4 0)) 64 0 0 0) := if_pos (vecRowOk_of_rowForm h)

/-- VFN of a defined function on a row starts at 32 elements per cycle, or 16 with N (R104). -/
theorem Core.rowFn_of_rowForm (h : rowForm 0x23 w) (hcode : fnDefined (bits w 3 0) = true) (x : SlotCtx) (c : Core) :
    c.rowFn x w = some (c.startRow x w (.fn (bits w 3 0)) (if bit w 55 then 16 else 32) 0 0 0) := by
  rw [Core.rowFn, if_pos (by simp [vecRowOk_of_rowForm h, hcode])]

theorem Core.rowSmMax_of_rowForm (h : rowForm 0x24 w) (x : SlotCtx) (c : Core) :
    c.rowSmMax x w = some (c.startRow x w (.smmax (bits w 4 0)) 64 0 0 0) := if_pos (vecRowOk_of_rowForm h)

/-- VSMEXP samples m and k (R137). -/
theorem Core.rowSmExp_of_rowForm (h : rowForm 0x25 w) (x : SlotCtx) (c : Core) :
    c.rowSmExp x w = some (c.startRow x w (.smexp (bits w 4 0)) 32 (c.vword 30 0) (c.vword 31 0) 0) := if_pos (vecRowOk_of_rowForm h)

theorem Core.rowTable_of_rowForm (h : rowForm 0x27 w) (c : Core) :
    c.rowTable w = some { c.vectorCut c.cycle with table := some (bits w 54 38, bits w 4 0) } := if_pos (vecRowOk_of_rowForm h)

/-! ### Forms with a cast descriptor (R138) -/

/-- The core after an operation of `n` elements has taken cast descriptor `i`: its ELEMENT_BASE has grown by `n`. -/
def Core.castTaken (c : Core) (i n : Nat) : Core :=
  { c with cdescs := tset 0 c.cdescs i (tget 0 c.cdescs i + (BitVec.ofNat 128 n <<< 88)) }

@[simp] theorem Core.castTaken_vregs (c : Core) (i n : Nat) : (c.castTaken i n).vregs = c.vregs := by
  simp only [Core.castTaken]

theorem Core.castTaken_vword (c : Core) (i n r e : Nat) : (c.castTaken i n).vword r e = c.vword r e := by
  simp only [Core.vword, Core.castTaken_vregs]

/-- A cast descriptor that names a target is taken as it stands. -/
theorem Core.useCast_of_target {c : Core} {i : Nat} (h : castTarget (tget 0 c.cdescs i) ≠ none) (n : Nat) :
    c.useCast i n = some (tget 0 c.cdescs i, c.castTaken i n) := by
  obtain ⟨target, ht⟩ := Option.ne_none_iff_exists'.mp h
  simp only [Core.useCast, Core.castTaken, ht, Option.map_some]

/-- A cast descriptor that names no target is not taken (log 29). -/
theorem Core.useCast_of_no_target {c : Core} {i : Nat} (h : castTarget (tget 0 c.cdescs i) = none) (n : Nat) : c.useCast i n = none := by
  simp only [Core.useCast, h, Option.map_none]

/-- A row operation through cast descriptor AUX issues with the descriptor's old value, or runs as a reserved slot where that names no
target (R130, R138). -/
theorem Core.issue_useCast (x : SlotCtx) (c : Core) (row : RowOp) {m : Core → Word} (hm : ∀ c i n, m (Core.castTaken c i n) = m c) :
    c.issue 2 (fun c => (c.useCast (bits w 4 0) (rowLen w)).map (fun dc => dc.2.startRow x w row 64 (m dc.2) 0 dc.1)) =
      if castTarget (tget 0 c.cdescs (bits w 4 0)) ≠ none then
        (c.castTaken (bits w 4 0) (rowLen w)).startRow x w row 64 (m c) 0 (tget 0 c.cdescs (bits w 4 0))
      else c.reserved 2 := by
  split
  next h => simp only [Core.issue, Core.useCast_of_target h, Option.map_some, hm]
  next h => simp only [Core.issue, Core.useCast_of_no_target (Decidable.not_not.mp h), Option.map_none]

theorem Core.rowCast_of_rowForm (h : rowForm 0x21 w) (x : SlotCtx) (c : Core) :
    c.rowCast x w = (c.useCast (bits w 4 0) (rowLen w)).map (fun dc => dc.2.startRow x w (.cast (bits w 4 0)) 64 0 0 dc.1) :=
  if_pos (vecRowOk_of_rowForm h)

/-- VSMNORM samples r (R137). -/
theorem Core.rowSmNorm_of_rowForm (h : rowForm 0x26 w) (x : SlotCtx) (c : Core) :
    c.rowSmNorm x w =
      (c.useCast (bits w 4 0) (rowLen w)).map (fun dc => dc.2.startRow x w (.smnorm (bits w 4 0)) 64 (dc.2.vword 31 1) 0 dc.1) :=
  if_pos (vecRowOk_of_rowForm h)

/-- A slot whose effect is a row operation through cast descriptor AUX starts it where the descriptor names a target, and is reserved
elsewhere. -/
theorem slotOutcome_useCast {s t : State} {p cycle : Nat} {f : SlotCtx → Core → DWord → Option Core} (hp : p < 850)
    (hi : s.slotReady p cycle 2 w = some t) (row : RowOp) {m : Core → Word}
    (hm : ∀ c i n, m (Core.castTaken c i n) = m c)
    (hf : ∀ c : Core, f (t.slotCtx p) c w =
      (c.useCast (bits w 4 0) (rowLen w)).map (fun dc => dc.2.startRow (t.slotCtx p) w row 64 (m dc.2) 0 dc.1)) :
    slotOutcome s p cycle 2 w f = .next (t.slotNext p 2 (fun c =>
      if castTarget (tget 0 c.cdescs (bits w 4 0)) ≠ none then
        (c.castTaken (bits w 4 0) (rowLen w)).startRow (t.slotCtx p) w row 64 (m c) 0 (tget 0 c.cdescs (bits w 4 0))
      else c.reserved 2)) := by
  rw [slotOutcome_issues hp hi]
  simp only [hf, Core.issue_useCast _ _ row hm]

end

/-! ### VAGEN.TABLE in its issue cycle -/

/-- A read that no inbound line has overtaken in a stall takes what the line holds (R37). -/
theorem Core.portRead_of_unseen {c : Core} (h : c.seen = []) (order port line : Nat) :
    c.portRead order port line = ((c.tileRead (256 * line) 256).1, (c.tileRead (256 * line) 256).2.touch order port line) := by
  simp [Core.portRead, h]

/-- Settles O16: each operation by the rule of its row form, and VAGEN.TABLE's read by `Core.portRead_of_unseen`. -/
theorem rowOperationsStart : Obligations.RowOperationsStart := by
  intro s t p cycle w hp hi hsrc hdst
  have form : ∀ {op}, bits w 63 58 = op → rowForm op w := fun hop => ⟨hop, hsrc, hdst⟩
  refine ⟨fun hop hfmt => ?widen, fun hop => ?cast, fun hop => ?rowstat, fun hop hcode => ?fn, fun hop => ?smmax, fun hop => ?smexp,
    fun hop => ?smnorm, fun hop => ?agenTable, fun c t line aux htable hseen => ?tableCycle⟩
  case widen => exact slotOutcome_effect hp hi (Core.rowWiden_of_rowForm (form hop) hfmt _)
  case cast =>
    exact slotOutcome_useCast hp hi (.cast (bits w 4 0)) (m := fun _ => 0) (fun _ _ _ => rfl) (Core.rowCast_of_rowForm (form hop) _)
  case rowstat => exact slotOutcome_effect hp hi (Core.rowStat_of_rowForm (form hop) _)
  case fn => exact slotOutcome_effect hp hi (Core.rowFn_of_rowForm (form hop) hcode _)
  case smmax => exact slotOutcome_effect hp hi (Core.rowSmMax_of_rowForm (form hop) _)
  case smexp => exact slotOutcome_effect hp hi (Core.rowSmExp_of_rowForm (form hop) _)
  case smnorm =>
    exact slotOutcome_useCast hp hi (.smnorm (bits w 4 0)) (m := fun c => c.vword 31 1) (fun c i n => c.castTaken_vword i n 31 1)
      (Core.rowSmNorm_of_rowForm (form hop) _)
  case agenTable => exact slotOutcome_effect hp hi (Core.rowTable_of_rowForm (form hop))
  case tableCycle =>
    simp only [Core.tableCycle, htable, Core.portRead_of_unseen hseen, Core.land]

end Sys2Proof.Machine
end

section
/-!
SUPPORT. The sum of a collective: how the shards of a half cover it (R212), and add() element by element (R214). A line is rebuilt from the bytes
of its elements, so the second part rests on what one field of a little-endian list of fields reads.
-/

namespace Sys2Proof.Machine

/-! ### Halves and shards (R212) -/

theorem plusHalf_append_minusHalf (ls : List Nat) : plusHalf ls ++ minusHalf ls = ls :=
  List.take_append_drop _ ls

theorem plusHalf_length (ls : List Nat) : (plusHalf ls).length = (ls.length + 1) / 2 := by
  simp only [plusHalf, cdiv, List.length_take]
  omega

/-- Shard bounds do not decrease. -/
theorem shardBound_mono (h len : Nat) {j k : Nat} (hjk : j ≤ k) : j * h / len ≤ k * h / len :=
  Nat.div_le_div_right (Nat.mul_le_mul_right h hjk)

theorem shardBound_le_length (half : List Nat) {len j : Nat} (hj : j < len) : (j + 1) * half.length / len ≤ half.length :=
  Nat.div_le_of_le_mul (Nat.mul_le_mul_right half.length hj)

/-- The first `n` shards are the lines up to the bound of shard `n`: each shard begins where the one before it ends. -/
theorem flatMap_shardLines_range (half : List Nat) (len n : Nat) :
    (List.range n).flatMap (shardLines half len) = half.take (n * half.length / len) := by
  induction n with
  | zero => simp
  | succ n ih =>
    have hmono := shardBound_mono half.length len n.le_succ
    have hprefix : half.take (n * half.length / len) = (half.take ((n + 1) * half.length / len)).take (n * half.length / len) := by
      rw [List.take_take, Nat.min_eq_left hmono]
    rw [List.range_succ, List.flatMap_append, ih, hprefix]
    simp only [List.flatMap_singleton, shardLines, List.take_append_drop]

theorem flatMap_shardLines (half : List Nat) {len : Nat} (hlen : 1 ≤ len) : (List.range len).flatMap (shardLines half len) = half := by
  rw [flatMap_shardLines_range, Nat.mul_div_cancel_left _ hlen, List.take_length]

theorem shardLines_length (half : List Nat) {len j : Nat} (hj : j < len) :
    (shardLines half len j).length = (j + 1) * half.length / len - j * half.length / len := by
  simp only [shardLines, List.length_drop, List.length_take, Nat.min_eq_left (shardBound_le_length half hj)]

/-- A line between the bounds of shard `j` stands in it, counted from the lower bound. -/
theorem getElem?_shardLines (half : List Nat) {len j i : Nat} (hlow : j * half.length / len ≤ i) (hhigh : i < (j + 1) * half.length / len) :
    (shardLines half len j)[i - j * half.length / len]? = half[i]? := by
  simp only [shardLines, List.getElem?_drop, Nat.add_sub_cancel' hlow, List.getElem?_take_of_lt hhigh]

/-! ### Fields of a little-endian list (R510) -/

theorem leNat_leBytes_append (n v : Nat) (bs : List Byte) : leNat (leBytes n v ++ bs) = v % 256 ^ n + 256 ^ n * leNat bs := by
  induction n generalizing v with
  | zero => simp [leBytes, Nat.mod_one]
  | succ n ih =>
    have hsplit : v % 256 ^ (n + 1) = v % 256 + 256 * (v / 256 % 256 ^ n) := by rw [Nat.pow_succ', Nat.mod_mul]
    have hbyte : (BitVec.ofNat 8 v).toNat = v % 256 := rfl
    rw [leBytes, List.cons_append, leNat, ih, hbyte, hsplit, Nat.mul_add, ← Nat.mul_assoc, ← Nat.pow_succ', Nat.add_assoc]

/-- Field `i` of the bytes of equally wide numbers is number `i`. -/
theorem leNat_flatMap_leBytes_field {α : Type} (n : Nat) (g : α → Nat) {xs : List α} {i : Nat} {x : α} (hx : xs[i]? = some x) :
    leNat (xs.flatMap (fun y => leBytes n (g y))) / (256 ^ n) ^ i % 256 ^ n = g x % 256 ^ n := by
  induction xs generalizing i with
  | nil => simp at hx
  | cons y ys ih =>
    rw [List.flatMap_cons, leNat_leBytes_append]
    cases i with
    | zero =>
      obtain rfl : y = x := by simpa using hx
      simp
    | succ i =>
      have hpos : 0 < 256 ^ n := Nat.pow_pos (by decide)
      have hfirst : g y % 256 ^ n / 256 ^ n = 0 := Nat.div_eq_of_lt (Nat.mod_lt _ hpos)
      rw [Nat.pow_succ', ← Nat.div_div_eq_div_mul, Nat.add_mul_div_left _ _ hpos, hfirst, Nat.zero_add]
      exact ih (by simpa using hx)

/-! ### Elements of a line -/

/-- Cutting a number to the bits of a line keeps its fields inside the line. -/
theorem lineBits_ofNat (v : Nat) {i n : Nat} (h : i + n ≤ 2048) : lineBits (BitVec.ofNat 2048 v) i n = v / 2 ^ i % 2 ^ n := by
  refine Nat.eq_of_testBit_eq fun k => ?_
  simp only [lineBits, BitVec.toNat_ofNat, Nat.testBit_mod_two_pow, Nat.testBit_div_two_pow]
  by_cases hk : k < n
  · simp [show k + i < 2048 by omega]
  · simp [hk]

/-- An element of two lines combined is the combination of their elements there. -/
theorem lineBits_zipLine {width : Nat} (hbytes : 8 ∣ width) {f : Nat → Nat → Nat} (hf : ∀ x y, f x y < 2 ^ width) (a b : Line) {i : Nat}
    (hi : i < 2048 / width) :
    lineBits (zipLine width f a b) (width * i) width = f (lineBits a (width * i) width) (lineBits b (width * i) width) := by
  have hinside : width * i + width ≤ 2048 := Nat.le_trans (Nat.mul_le_mul_left width hi) (Nat.mul_div_le 2048 width)
  have hbase : 256 ^ (width / 8) = 2 ^ width := by rw [show 256 = 2 ^ 8 from rfl, ← Nat.pow_mul, Nat.mul_div_cancel' hbytes]
  have hfield := leNat_flatMap_leBytes_field (width / 8)
    (fun i => f (lineBits a (width * i) width) (lineBits b (width * i) width)) (List.getElem?_range hi)
  rw [hbase, ← Nat.pow_mul] at hfield
  rw [zipLine, lineBits_ofNat _ hinside, hfield, Nat.mod_eq_of_lt (hf _ _)]

/-! ### The formats of add() (R214) -/

theorem addLines_fp32 (a b : Line) :
    addLines 0 a b = zipLine 32 (fun x y => (fadd (BitVec.ofNat 32 x) (BitVec.ofNat 32 y)).toNat) a b := rfl

theorem addLines_bf16 (a b : Line) :
    addLines 1 a b = zipLine 16 (fun x y => (bfpack ((bfdec (BitVec.ofNat 16 x)).add (bfdec (BitVec.ofNat 16 y)))).toNat) a b := rfl

theorem addLines_int32 (a b : Line) : addLines 2 a b = zipLine 32 (fun x y => (x + y) % 2 ^ 32) a b := rfl

theorem addLines_int64 (a b : Line) : addLines 3 a b = zipLine 64 (fun x y => (x + y) % 2 ^ 64) a b := rfl

/-- Settles O31: the shards by the bounds they share, each format of add() by `lineBits_zipLine` at its element width. -/
theorem sumPartitionAndAddition : Obligations.SumPartitionAndAddition := by
  refine ⟨fun ls len hlen => ⟨plusHalf_append_minusHalf ls, plusHalf_length ls, fun half => ⟨flatMap_shardLines half hlen, fun j hj =>
    ⟨shardLines_length half hj, fun i hlow hhigh => (getElem?_shardLines half hlow hhigh).symm⟩⟩⟩,
    fun a b => ⟨fun i hi => ?fp32, fun i hi => ?bf16, fun i hi => ?int32, fun i hi => ?int64⟩⟩
  case fp32 => rw [addLines_fp32, lineBits_zipLine (by decide) (fun _ _ => BitVec.isLt _) a b hi]
  case bf16 => rw [addLines_bf16, lineBits_zipLine (by decide) (fun _ _ => BitVec.isLt _) a b hi]
  case int32 => rw [addLines_int32, lineBits_zipLine (by decide) (fun _ _ => Nat.mod_lt _ (Nat.two_pow_pos 32)) a b hi]
  case int64 => rw [addLines_int64, lineBits_zipLine (by decide) (fun _ _ => Nat.mod_lt _ (Nat.two_pow_pos 64)) a b hi]

end Sys2Proof.Machine
end

section
/-!
SUPPORT. The curtain of a script with an UPDATE section (R247, R257 to R259, R263): what its steps before the verdict leave alone, what the
verdict changes, and what the steps after it leave alone; O27 is put together from them.
-/

namespace Sys2Proof.Machine

section
variable {s : State} {k : Nat}

/-! ### Before the verdict: steps 1 and 2 and the late count (R85, R257, R264) -/

/-- A part of every engine that a change keeps is kept by making the change on engines one after another. -/
theorem State.foldl_modEngine_engine {β : Type} (m : Engine → β) {f : Engine → Engine} (hf : ∀ x, m (f x) = m x) (l : List Nat) (s : State)
    (i : Nat) : m ((l.foldl (fun s e => s.modEngine e f) s).engine i) = m (s.engine i) := by
  refine foldl_keeps (fun t => m (t.engine i) = m (s.engine i)) _ l s rfl fun t e _ ht => ?_
  rw [State.modEngine_engine]
  split
  · next h => rw [hf, ← h, ht]
  · exact ht

/-- What every step of a fold over states keeps, the fold keeps. -/
theorem State.foldl_same {α β : Type} (m : State → β) (f : State → α → State) (h : ∀ t a, m (f t a) = m t) (l : List α) (s : State) :
    m (l.foldl f s) = m s := by
  induction l generalizing s with
  | nil => rfl
  | cons a l ih => rw [List.foldl_cons, ih, h]

theorem State.foldl_modEngine_co (f : Engine → Engine) (l : List Nat) (s : State) (j : Nat) :
    (l.foldl (fun s e => s.modEngine e f) s).co j = s.co j :=
  State.foldl_same (fun t => t.co j) (fun t e => t.modEngine e f) (fun _ _ => rfl) l s

theorem State.foldl_modCore_co (f : Core → Core) (l : List Nat) (s : State) (j : Nat) :
    (l.foldl (fun s p => s.modCore p f) s).co j = s.co j :=
  State.foldl_same (fun t => t.co j) (fun t p => t.modCore p f) (fun _ _ => rfl) l s

theorem State.foldl_modCore_engine (f : Core → Core) (l : List Nat) (s : State) (e : Nat) :
    (l.foldl (fun s p => s.modCore p f) s).engine e = s.engine e :=
  State.foldl_same (fun t => t.engine e) (fun t p => t.modCore p f) (fun _ _ => rfl) l s

/-- The report takes the counters of the company's cores and engines and no other register of the company. -/
theorem State.copyCounts_co (s : State) (k : Nat) (im : Image) : ∃ mon, (s.copyCounts k im).co k = { s.co k with mon := mon } := by
  rw [State.copyCounts]
  cases im.rmon <;> simp only [State.foldl_modEngine_co, State.foldl_modCore_co, State.modCo_co_self] <;> exact ⟨_, rfl⟩

/-- The report clears counters of the range monitor only. -/
theorem State.copyCounts_engine {β : Type} (m : Engine → β) (hm : ∀ x : Engine, m { x with rmon := clearSlots x.rmon } = m x) (s : State)
    (k : Nat) (im : Image) (e : Nat) : m ((s.copyCounts k im).engine e) = m (s.engine e) := by
  rw [State.copyCounts, State.foldl_modEngine_engine m hm, State.foldl_modCore_engine]
  cases im.rmon <;> rfl

/-- The comparison of replica digests changes DIVERGED and whether a comparison is due. -/
theorem State.compareDigests_co (s : State) (k : Nat) (u : UpdSection) : ∃ due diverged,
    (s.compareDigests k u).co k = { s.co k with upd := { (s.co k).upd with digestDue := due, diverged := diverged } } := by
  rw [State.compareDigests]
  split
  · dsimp only
    split
    · exact ⟨_, _, State.modUpd_co_self ..⟩
    · rw [State.log_co, State.modUpd_co_self, State.modUpd_co_self]
      exact ⟨_, _, rfl⟩
  · exact ⟨_, _, rfl⟩

theorem State.compareDigests_engine (s : State) (k : Nat) (u : UpdSection) (e : Nat) : (s.compareDigests k u).engine e = s.engine e := by
  rw [State.compareDigests]
  split
  · dsimp only
    split
    · rfl
    · exact State.log_engine ..
  · rfl

/-- The late count of non-finite values changes LATE_NONFINITE. -/
theorem State.lateCount_co (s : State) (k : Nat) : ∃ n,
    (s.lateCount k).co k = { s.co k with upd := { (s.co k).upd with lateNonfinite := n } } := by
  rw [State.lateCount]
  dsimp only
  split
  · exact ⟨_, rfl⟩
  · rw [State.log_co, State.modUpd_co_self]
    exact ⟨_, rfl⟩

/-- The state in which the curtain of image `im` and section `u` finds out whether it is complete. -/
def State.beforeVerdict (s : State) (k : Nat) (im : Image) (u : UpdSection) : State :=
  ((s.modSeq k (fun q => { q with curtainActed := true })).copyCounts k im).compareDigests k u

theorem State.beforeVerdict_co (s : State) (k : Nat) (im : Image) (u : UpdSection) : ∃ mon due diverged,
    (s.beforeVerdict k im u).co k = { s.co k with
      seq := { (s.co k).seq with curtainActed := true }, mon := mon,
      upd := { (s.co k).upd with digestDue := due, diverged := diverged } } := by
  obtain ⟨mon, hmon⟩ := State.copyCounts_co (s.modSeq k (fun q => { q with curtainActed := true })) k im
  obtain ⟨due, diverged, h⟩ := State.compareDigests_co ((s.modSeq k (fun q => { q with curtainActed := true })).copyCounts k im) k u
  exact ⟨mon, due, diverged, by rw [State.beforeVerdict, h, hmon, State.modSeq_co_self]⟩

theorem State.beforeVerdict_passComplete (s : State) (k : Nat) (im : Image) (u : UpdSection) :
    (s.beforeVerdict k im u).passComplete k u = s.passComplete k u := by
  obtain ⟨mon, due, diverged, hco⟩ := s.beforeVerdict_co k im u
  have hengine (e : Nat) {β : Type} (m : Engine → β) (hm : ∀ x : Engine, m { x with rmon := clearSlots x.rmon } = m x) :
      m ((s.beforeVerdict k im u).engine e) = m (s.engine e) := by
    rw [State.beforeVerdict, State.compareDigests_engine, State.copyCounts_engine m hm, State.modSeq_engine]
  simp only [State.passComplete, State.engineList, hco, hengine _ Engine.pipe fun _ => rfl, hengine _ Engine.writes fun _ => rfl,
    hengine _ Engine.shard fun _ => rfl]

/-- The state in which a complete curtain gives its verdict. -/
def State.atVerdict (s : State) (k : Nat) (im : Image) (u : UpdSection) : State := (s.beforeVerdict k im u).lateCount k

theorem State.atVerdict_co (s : State) (k : Nat) (im : Image) (u : UpdSection) : ∃ mon due diverged n,
    (s.atVerdict k im u).co k = { s.co k with
      seq := { (s.co k).seq with curtainActed := true }, mon := mon,
      upd := { (s.co k).upd with digestDue := due, diverged := diverged, lateNonfinite := n } } := by
  obtain ⟨mon, due, diverged, hco⟩ := s.beforeVerdict_co k im u
  obtain ⟨n, hn⟩ := (s.beforeVerdict k im u).lateCount_co k
  exact ⟨mon, due, diverged, n, by rw [State.atVerdict, hn, hco]⟩

/-! ### The verdict (R247, R258, R259) -/

/-- The test of R259, entry by entry. -/
theorem tailCommits_iff (members : Nat) (tail : List DWord) :
    tailCommits members tail = true ↔ tail.getD 0 0 = 0 ∧ tail.getD 1 0 = 0 ∧ tail.getD 2 0 = 0 ∧ (tail.getD 3 0).toNat = members ∧
      tail.getD 4 0 = 0 := by
  simp only [tailCommits, Bool.and_eq_true, decide_eq_true_eq, and_assoc]

/-- A COMMIT changes the committed bank, and of the sequencer nothing. -/
theorem State.commitBank_co (s : State) (k : Nat) (u : UpdSection) (digest : DWord) : ∃ powers due posted,
    (s.commitBank k u digest).co k = { s.co k with upd := { (s.co k).upd with
      committed := !(s.co k).upd.committed, commits := (s.co k).upd.commits + 1, digest := digest, verdict := .commit, skipsRun := 0,
      powers := powers, digestDue := due, posted := posted } } :=
  ⟨_, _, _, State.modUpd_co_self ..⟩

/-- A SKIP arms a recast and begins the step's next attempt. -/
theorem State.skipStep_co (s : State) (k : Nat) :
    (s.skipStep k).co k = { s.co k with
      seq := { (s.co k).seq with attempt := (s.co k).seq.attempt + 1 },
      upd := { (s.co k).upd with
        verdict := .skip, recastArmed := true, skipsRun := satAdd (s.co k).upd.skipsRun 1, skipsTotal := (s.co k).upd.skipsTotal + 1 } } := by
  rw [State.skipStep]
  dsimp only
  rw [State.modUpd_co_self, State.modSeq_co_self, State.log_co]

/-! ### After the verdict: rounds, snapshots and transactions (R258, R278, R307, R330) -/

/-- Between `s` and `t` the curtain unit of company `k` keeps its registers, but for the constants in force, and its step keeps its attempt. -/
def State.CurtainKept (k : Nat) (s t : State) : Prop :=
  (∃ consts, (t.co k).upd = { (s.co k).upd with consts := consts }) ∧ (t.co k).seq.attempt = (s.co k).seq.attempt

theorem State.CurtainKept.of_eq {t : State} (hu : (t.co k).upd = (s.co k).upd) (ha : (t.co k).seq.attempt = (s.co k).seq.attempt) :
    State.CurtainKept k s t := ⟨⟨_, hu⟩, ha⟩

theorem State.CurtainKept.refl (k : Nat) (s : State) : State.CurtainKept k s s := .of_eq rfl rfl

theorem State.CurtainKept.trans {t r : State} (h : State.CurtainKept k s t) (h' : State.CurtainKept k t r) : State.CurtainKept k s r := by
  obtain ⟨⟨_, hu⟩, ha⟩ := h
  obtain ⟨⟨_, hu'⟩, ha'⟩ := h'
  exact ⟨⟨_, by rw [hu', hu]⟩, by rw [ha', ha]⟩

theorem State.CurtainKept.foldl {α : Type} (l : List α) (f : State → α → State) (h : ∀ s a, State.CurtainKept k s (f s a)) (s : State) :
    State.CurtainKept k s (l.foldl f s) :=
  foldl_keeps (State.CurtainKept k s) f l s (.refl k s) fun t a _ ht => ht.trans (h t a)

/-- A change to company `k` outside its curtain unit and its sequencer. -/
theorem State.modCo_curtainKept {f : Co → Co} (hu : ∀ c, (f c).upd = c.upd) (hs : ∀ c, (f c).seq = c.seq) (s : State) :
    State.CurtainKept k s (s.modCo k f) :=
  .of_eq (by rw [State.modCo_co_self, hu]) (by rw [State.modCo_co_self, hs])

theorem State.modFar_curtainKept (f : Far → Far) (s : State) : State.CurtainKept k s (s.modFar k f) :=
  State.modCo_curtainKept (f := fun c => { c with far := f c.far }) (fun _ => rfl) (fun _ => rfl) s

theorem State.modCol_curtainKept (f : Col → Col) (s : State) : State.CurtainKept k s (s.modCol k f) :=
  State.modCo_curtainKept (f := fun c => { c with col := f c.col }) (fun _ => rfl) (fun _ => rfl) s

theorem State.modPak_curtainKept (f : Pak → Pak) (s : State) : State.CurtainKept k s (s.modPak k f) :=
  State.modCo_curtainKept (f := fun c => { c with pak := f c.pak }) (fun _ => rfl) (fun _ => rfl) s

theorem State.installRound_curtainKept (s : State) : State.CurtainKept k s (s.installRound k) := by
  rw [State.installRound]
  split
  · exact .refl k s
  · split
    · exact State.modFar_curtainKept _ s
    · exact .refl k s

theorem State.startRound_curtainKept (s : State) : State.CurtainKept k s (s.startRound k) := by
  rw [State.startRound]
  split
  · exact .refl k s
  · split
    · extract_lets r cause
      cases cause
      · exact State.modFar_curtainKept _ s
      · refine (State.modFar_curtainKept (fun f => { f with deferred := true }) s).trans (.of_eq ?_ ?_) <;> rw [State.log_co]
    · exact .refl k s

theorem State.startSnapshot_curtainKept (s : State) : State.CurtainKept k s (s.startSnapshot k) := by
  rw [State.startSnapshot]
  split
  · exact .refl k s
  · split
    · exact State.modPak_curtainKept _ s
    · exact .refl k s

/-! ### Curtain transactions (R95, R228, R267, R277, R335, R407) -/

theorem State.msgForget_co (s : State) (mine : CipClient → Bool) (j : Nat) : (s.msgForget mine).co j = s.co j :=
  State.foldl_same (fun t => t.co j) (fun t (m : Message) => t.msgEnd m.chan) (fun _ _ => rfl) _ s

theorem State.wingsDrop_co (s : State) (m : WingsMaster) (j : Nat) : (s.wingsDrop m).co j = s.co j :=
  State.foldl_same (fun t => t.co j)
    (fun t c => t.modChan c (fun x => { x with waiting := x.waiting.filter (fun r => decide (r.master ≠ m)) })) (fun _ _ => rfl) _ s

/-- The far exchange gives up its messages and accesses; no company's registers change. -/
theorem State.farDrop_co (s : State) (k j : Nat) : (s.farDrop k).co j = s.co j := by
  rw [State.farDrop, State.wingsDrop_co, State.msgForget_co]

theorem State.applyScale_curtainKept (unit : Bool) (index slot : Nat) (v : BitVec 8) (s : State) :
    State.CurtainKept k s (s.applyScale k unit index slot v) := by
  rw [State.applyScale]
  split
  · exact .refl k s
  · dsimp only
    split
    · exact .refl k s
    · exact .of_eq rfl rfl

theorem State.applyReshard_curtainKept (addr len epochs ctr : Nat) (gen : BitVec 8) (commit : Bool) (s : State) :
    State.CurtainKept k s (s.applyReshard k addr len epochs ctr gen commit) := by
  rw [State.applyReshard]
  split
  · exact .of_eq (by simp) (by simp)
  · exact .of_eq (by simp) (by simp)

theorem State.applyFar_curtainKept (addr len : Nat) (enable : Bool) (s : State) :
    State.CurtainKept k s (s.applyFar k addr len enable) := by
  have hdrop : State.CurtainKept k s (s.farDrop k) := .of_eq (by rw [State.farDrop_co]) (by rw [State.farDrop_co])
  rw [State.applyFar]
  split
  · split
    · exact .refl k s
    · exact hdrop.trans (State.modFar_curtainKept _ _)
  · exact hdrop.trans (State.modFar_curtainKept _ _)

/-- Of the staged curtain commands only UPD_SET_CONST reaches the curtain unit, and there only a constant. -/
theorem State.applyCurtain_curtainKept (commit : Bool) (i : Instr) (s : State) : State.CurtainKept k s (State.applyCurtain k commit i s) := by
  unfold State.applyCurtain
  split
  · exact State.applyScale_curtainKept ..
  · exact ⟨⟨_, by rw [State.modUpd_co_self]⟩, by rw [State.modUpd_co_self]⟩
  · exact State.applyReshard_curtainKept ..
  · exact State.modPak_curtainKept _ s
  · exact State.applyFar_curtainKept ..
  · exact .refl k s

theorem State.applyTxns_curtainKept (due : CommittedTxn → Bool) (commit : Bool) (s : State) :
    State.CurtainKept k s (s.applyTxns k due (State.applyCurtain k commit)) := by
  rw [State.applyTxns]
  refine .trans (.of_eq (by rw [State.modCo_co_self]) (by rw [State.modCo_co_self])) (State.CurtainKept.foldl _ _ (fun t x => ?_) _)
  have hpost (r : State) : State.CurtainKept k r (r.txnPost k x.ctr) := by
    cases x.ctr with
    | none => exact .refl k r
    | some _ => exact .of_eq rfl rfl
  exact (State.CurtainKept.foldl x.staged _ (fun r i => State.applyCurtain_curtainKept commit i r) t).trans (hpost _)

/-- What a COMMIT starts and installs leaves the curtain unit as the verdict left it. -/
theorem State.afterCommit_curtainKept (s : State) : State.CurtainKept k s (((s.installRound k).startRound k).startSnapshot k) :=
  ((State.installRound_curtainKept s).trans (State.startRound_curtainKept _)).trans (State.startSnapshot_curtainKept _)

/-- The end of a curtain clears the live counts and TAIL_SEEN and makes the post due (R258). -/
theorem State.curtainEnd_spec (s : State) (k : Nat) (commit post : Bool) :
    (∃ consts, ((s.curtainEnd k commit post).co k).upd =
      { (s.co k).upd with consts := consts, nonfinite := 0, faults := 0, tailSeen := false, curtainPostDue := post }) ∧
    ((s.curtainEnd k commit post).co k).seq.attempt = (s.co k).seq.attempt := by
  obtain ⟨⟨consts, hu⟩, ha⟩ := State.applyTxns_curtainKept (k := k) (fun t => t.step = some (s.co k).seq.step) commit s
  rw [State.curtainEnd]
  exact ⟨⟨consts, by rw [State.modUpd_co_self, hu]⟩, by rw [State.modUpd_co_self, ha]⟩

/-! ### A complete curtain (R258, R263) -/

section
variable {im : Image} {u : UpdSection} (hi : (s.co k).seq.image = some im) (hu : im.update = some u) (ht : (s.co k).upd.tailSeen = true)
  (hp : s.passComplete k u = true) (hf : (s.co k).upd.faults.toNat ≤ (s.co k).upd.placedFaults.toNat)
include hi hu ht hp hf

/-- A curtain with its tail seen, its pass complete and no late fault gives a verdict on the tail, and ends. -/
theorem State.curtainAct_of_complete :
    let v := s.atVerdict k im u
    let commit := tailCommits (im.axes.foldl (· * ·) 1) (s.co k).upd.tail
    s.curtainAct k =
      (if commit then (((v.commitBank k u (s.co k).upd.passDigest).installRound k).startRound k).startSnapshot k
        else v.skipStep k).curtainEnd k commit true := by
  obtain ⟨mon, due, diverged, hb⟩ := s.beforeVerdict_co k im u
  obtain ⟨_, _, _, n, hv⟩ := s.atVerdict_co k im u
  have hcause : (s.beforeVerdict k im u).incompleteCause k u = none := by
    simp [State.incompleteCause, s.beforeVerdict_passComplete, hb, ht, hp, hf]
  have hmembers : ((s.atVerdict k im u).co k).seq.members = im.axes.foldl (· * ·) 1 := by simp [Seq.members, hv, hi]
  have htail : ((s.atVerdict k im u).co k).upd.tail = (s.co k).upd.tail := by rw [hv]
  have hdigest : ((s.atVerdict k im u).co k).upd.passDigest = (s.co k).upd.passDigest := by rw [hv]
  rw [State.beforeVerdict] at hcause
  rw [State.atVerdict, State.beforeVerdict] at hmembers htail hdigest
  simp only [State.curtainAct, hi, hu, hcause, hmembers, htail, hdigest]
  rfl

/-- What a curtain that commits leaves in the curtain unit and in the attempt counter. -/
theorem State.curtainAct_of_commit (hc : tailCommits (im.axes.foldl (· * ·) 1) (s.co k).upd.tail = true) :
    (∃ consts powers due diverged posted n, ((s.curtainAct k).co k).upd = { (s.co k).upd with
      committed := !(s.co k).upd.committed, commits := (s.co k).upd.commits + 1, digest := (s.co k).upd.passDigest, verdict := .commit,
      skipsRun := 0, nonfinite := 0, faults := 0, tailSeen := false, curtainPostDue := true,
      consts := consts, powers := powers, digestDue := due, diverged := diverged, posted := posted, lateNonfinite := n }) ∧
    ((s.curtainAct k).co k).seq.attempt = (s.co k).seq.attempt := by
  rw [State.curtainAct_of_complete hi hu ht hp hf, if_pos hc]
  obtain ⟨_, _, _, _, hv⟩ := s.atVerdict_co k im u
  obtain ⟨_, _, _, hbank⟩ := (s.atVerdict k im u).commitBank_co k u (s.co k).upd.passDigest
  obtain ⟨⟨_, hafter⟩, hattempt⟩ := State.afterCommit_curtainKept (k := k) ((s.atVerdict k im u).commitBank k u (s.co k).upd.passDigest)
  obtain ⟨⟨_, hend⟩, hendAttempt⟩ := State.curtainEnd_spec
    (((((s.atVerdict k im u).commitBank k u (s.co k).upd.passDigest).installRound k).startRound k).startSnapshot k) k
    (tailCommits (im.axes.foldl (· * ·) 1) (s.co k).upd.tail) true
  exact ⟨⟨_, _, _, _, _, _, by rw [hend, hafter, hbank, hv]⟩, by rw [hendAttempt, hattempt, hbank, hv]⟩

/-- What a curtain that skips leaves in the curtain unit and in the attempt counter. -/
theorem State.curtainAct_of_skip (hc : tailCommits (im.axes.foldl (· * ·) 1) (s.co k).upd.tail ≠ true) :
    (∃ consts due diverged n, ((s.curtainAct k).co k).upd = { (s.co k).upd with
      verdict := .skip, recastArmed := true, skipsRun := satAdd (s.co k).upd.skipsRun 1, skipsTotal := (s.co k).upd.skipsTotal + 1,
      nonfinite := 0, faults := 0, tailSeen := false, curtainPostDue := true,
      consts := consts, digestDue := due, diverged := diverged, lateNonfinite := n }) ∧
    ((s.curtainAct k).co k).seq.attempt = (s.co k).seq.attempt + 1 := by
  rw [State.curtainAct_of_complete hi hu ht hp hf, if_neg hc]
  obtain ⟨_, _, _, _, hv⟩ := s.atVerdict_co k im u
  obtain ⟨⟨_, hend⟩, hendAttempt⟩ := State.curtainEnd_spec ((s.atVerdict k im u).skipStep k) k
    (tailCommits (im.axes.foldl (· * ·) 1) (s.co k).upd.tail) true
  exact ⟨⟨_, _, _, _, by rw [hend, State.skipStep_co, hv]⟩, by rw [hendAttempt, State.skipStep_co, hv]⟩

end

end

/-- Settles O27: the tail's test decides between `State.curtainAct_of_commit` and `State.curtainAct_of_skip`. -/
theorem curtainFlipsBankOnlyOnCommit : Obligations.CurtainFlipsBankOnlyOnCommit := by
  intro s k im u q x hi hu ht hp hf t y commits
  have hverdict : tailCommits (im.axes.foldl (· * ·) 1) x.tail = true ↔ commits := tailCommits_iff _ _
  by_cases hc : commits
  · obtain ⟨⟨_, _, _, _, _, _, hupd⟩, hattempt⟩ := State.curtainAct_of_commit hi hu ht hp hf (hverdict.mpr hc)
    have hy : y = _ := hupd
    rw [hy]
    exact ⟨rfl, rfl, rfl, rfl, fun _ => ⟨rfl, rfl, rfl, rfl, rfl, hattempt⟩, fun hn => absurd hc hn⟩
  · obtain ⟨⟨_, _, _, _, hupd⟩, hattempt⟩ := State.curtainAct_of_skip hi hu ht hp hf (mt hverdict.mp hc)
    have hy : y = _ := hupd
    rw [hy]
    exact ⟨rfl, rfl, rfl, rfl, fun h => absurd h hc, fun _ => ⟨rfl, rfl, rfl, rfl, rfl, rfl, rfl, hattempt⟩⟩

end Sys2Proof.Machine
end

section
/-!
SUPPORT. Registers of an update engine stay finite (R67, R250, R251): what packing to FP32 gives, and what an instruction leaves in the
registers of a lane; the special inputs of RCP, RSQ and SQRT.
-/

namespace Sys2Proof.Machine

/-! ### FP32 patterns by their exponent field (R66, R67) -/

/-- A pattern is infinite or not a number exactly when its exponent field is all ones. -/
theorem f32dec_nonFinite (w : Word) : (f32dec w).nonFinite = decide (bits w 30 23 = 255) := by
  unfold f32dec
  by_cases hones : bits w 30 23 = 255
  · by_cases hfr : bits w 22 0 = 0 <;> simp [hones, hfr, Fp.nonFinite]
  · by_cases hzero : bits w 30 23 = 0 <;> simp [hones, hzero, Fp.nonFinite]

theorem bits_exponent_ofNat (v : Nat) : bits (BitVec.ofNat 32 v) 30 23 = v / 2 ^ 23 % 256 := by
  simp only [bits, BitVec.extractLsb'_toNat, BitVec.toNat_ofNat, Nat.shiftRight_eq_div_pow]
  omega

/-- A pattern put together of its three fields is finite below the exponent of the infinities. -/
theorem f32_fields_finite (s : Bool) {ex fr : Nat} (hex : ex < 255) (hfr : fr < 2 ^ 23) :
    (f32dec (BitVec.ofNat 32 (fld 31 (b2n s) + fld 23 ex + fr))).nonFinite = false := by
  have hfield : (fld 31 (b2n s) + fld 23 ex + fr) / 2 ^ 23 % 256 = ex := by
    cases s <;> simp only [fld, b2n, Bool.false_eq_true, if_false, if_true] <;> omega
  simp only [f32dec_nonFinite, bits_exponent_ofNat, hfield, decide_eq_false_iff_not]
  omega

/-! ### Packing (R67) -/

/-- The significand of `packTo` fits in `p` bits: shifted to `p` bits, a magnitude leaves less than its leading bit behind that bit. -/
theorem significand_lt (n : Nat) {p : Nat} (hp : 1 ≤ p) :
    (if n.log2 < p then n * 2 ^ (p - 1 - n.log2) else n / 2 ^ (n.log2 + 1 - p)) - 2 ^ (p - 1) < 2 ^ (p - 1) := by
  have htwice : 2 ^ p = 2 ^ (p - 1) + 2 ^ (p - 1) := by rw [← Nat.two_mul, ← Nat.pow_succ', Nat.succ_eq_add_one, Nat.sub_add_cancel hp]
  have hlt : n < 2 ^ (n.log2 + 1) := Nat.lt_log2_self
  suffices h : (if n.log2 < p then n * 2 ^ (p - 1 - n.log2) else n / 2 ^ (n.log2 + 1 - p)) < 2 ^ p by
    have hpos : 0 < 2 ^ (p - 1) := Nat.two_pow_pos _
    omega
  split
  · next h =>
    calc n * 2 ^ (p - 1 - n.log2) < 2 ^ (n.log2 + 1) * 2 ^ (p - 1 - n.log2) := Nat.mul_lt_mul_of_pos_right hlt (Nat.two_pow_pos _)
      _ = 2 ^ p := by rw [← Nat.pow_add]; congr 1; omega
  · next h =>
    refine Nat.div_lt_of_lt_mul ?_
    rwa [← Nat.pow_add, show n.log2 + 1 - p + p = n.log2 + 1 by omega]

/-- A value packs to a finite pattern, or beyond the largest exponent to an infinity of its sign. -/
theorem f32pack_fin (s : Bool) (mag : Nat) (e : Int) :
    (f32dec (f32pack (.fin s mag e))).nonFinite = false ∨
      127 < (rne 24 mag e).2 + ((rne 24 mag e).1.log2 : Nat) ∧ f32pack (.fin s mag e) = f32pack (.inf s) := by
  simp only [f32pack, packTo]
  generalize rne 24 mag e = r
  by_cases hsmall : r.1 = 0 ∨ r.2 + (r.1.log2 : Nat) < -126
  · rw [if_pos hsmall]
    exact .inl (by cases s <;> decide)
  · rw [if_neg hsmall]
    by_cases hbig : 127 < r.2 + (r.1.log2 : Nat)
    · rw [if_pos hbig]
      exact .inr ⟨hbig, rfl⟩
    · rw [if_neg hbig]
      exact .inl (f32_fields_finite s (by omega) (significand_lt _ (by decide)))

/-- A magnitude of at most `p` bits rounds to itself. -/
theorem rne_of_lt {p mag : Nat} (h : mag < 2 ^ p) (e : Int) : rne p mag e = (mag, e) := by
  rw [rne, if_pos]
  split
  · exact Nat.zero_le p
  · next hm => exact (Nat.log2_lt hm).mpr h

/-- A finite pattern, with a subnormal one taken as zero, packs to a finite pattern. -/
theorem f32pack_f32dec_finite {w : Word} (h : (f32dec w).nonFinite = false) : (f32dec (f32pack (f32dec w))).nonFinite = false := by
  have hex : bits w 30 23 ≠ 255 := by simpa [f32dec_nonFinite] using h
  have hfr : bits w 22 0 < 2 ^ 23 := BitVec.isLt _
  have hbyte : bits w 30 23 < 2 ^ 8 := BitVec.isLt _
  by_cases hzero : bits w 30 23 = 0
  · have hdec : f32dec w = .fin (bit w 31) 0 0 := by simp [f32dec, hzero]
    rw [hdec]
    cases bit w 31 <;> decide
  · have hdec : f32dec w = .fin (bit w 31) (2 ^ 23 + bits w 22 0) ((bits w 30 23 : Int) - 150) := by simp [f32dec, hex, hzero]
    have hmag : 2 ^ 23 + bits w 22 0 < 2 ^ 24 := by omega
    have hlog : (2 ^ 23 + bits w 22 0).log2 = 23 := (Nat.log2_eq_iff (by omega)).mpr ⟨by omega, by omega⟩
    rw [hdec]
    refine (f32pack_fin _ _ _).resolve_right fun ⟨htop, _⟩ => ?_
    rw [rne_of_lt hmag, hlog] at htop
    omega

/-! ### What an engine writes (R251) -/

/-- Of the infinities an engine keeps the largest finite value of their sign. -/
theorem finiteOf_finite {w : Word} (h : w = f32inf ∨ w = f32ninf ∨ (f32dec w).nonFinite = false) : (f32dec (finiteOf w)).nonFinite = false := by
  obtain rfl | rfl | hw := h
  · decide
  · decide
  · rw [finiteOf]
    split
    · decide
    · split
      · decide
      · exact hw

theorem finiteOf_f32pack_finite {x : Fp} (h : x.isNan = false) : (f32dec (finiteOf (f32pack x))).nonFinite = false := by
  have hinf (s : Bool) : f32pack (.inf s) = f32inf ∨ f32pack (.inf s) = f32ninf := by cases s <;> decide
  refine finiteOf_finite ?_
  cases x with
  | nan => simp [Fp.isNan] at h
  | inf s => exact (hinf s).imp_right .inl
  | fin s mag e =>
    obtain hfin | ⟨_, heq⟩ := f32pack_fin s mag e
    · exact .inr (.inr hfin)
    · rw [heq]
      exact (hinf s).imp_right .inl

/-- Whatever an operation computes, what the engine writes is finite. -/
theorem updFinite_finite (op : Nat) (a b c r : Word) : (f32dec (updFinite op a b c r)).nonFinite = false := by
  unfold updFinite
  cases hnan : (f32dec r).isNan with
  | false => simpa using finiteOf_f32pack_finite hnan
  | true =>
    cases hopen : (f32dec (Config.updOpen op a b c)).nonFinite with
    | true => simp only [hopen, if_true]; decide
    | false => simpa [hopen] using f32pack_f32dec_finite hopen

/-- The lane tree answers what its operation gave last. -/
theorem tree32_finite {f : Word → Word → Word} (hf : ∀ a b, (f32dec (f a b)).nonFinite = false) (xs : List Word) :
    (f32dec (tree32 f xs)).nonFinite = false := hf _ _

/-- An instruction writes at most one register of each lane, and there a finite value. -/
theorem updInstr_cases {block : Bool} {ks bs : List Word} {w : DWord} {lanes out : List (List Word)}
    (h : updInstr block ks bs w lanes = some out) :
    out = lanes ∨ ∃ (dst : Nat) (val : List Word → Word), (∀ us, (f32dec (val us)).nonFinite = false) ∧
      out = lanes.map (fun us => us.set dst (val us)) := by
  unfold updInstr at h
  dsimp only at h
  split at h
  · cases h
  · split at h
    · exact .inl (Option.some.inj h).symm
    · split at h
      · exact .inr ⟨_, _, fun _ => tree32_finite (fun _ _ => updFinite_finite ..) _, (Option.some.inj h).symm⟩
      · cases h
    · split at h
      · exact .inr ⟨_, _, fun _ => tree32_finite (fun _ _ => updFinite_finite ..) _, (Option.some.inj h).symm⟩
      · cases h
    · split at h
      · exact .inr ⟨_, _, fun _ => updFinite_finite .., (Option.some.inj h).symm⟩
      · cases h

/-- An instruction that runs on finite lanes leaves finite lanes. -/
theorem updInstr_finite {block : Bool} {ks bs : List Word} {w : DWord} {lanes out : List (List Word)}
    (hin : ∀ us ∈ lanes, ∀ u ∈ us, (f32dec u).nonFinite = false) (h : updInstr block ks bs w lanes = some out) :
    ∀ us ∈ out, ∀ u ∈ us, (f32dec u).nonFinite = false := by
  obtain rfl | ⟨dst, val, hval, rfl⟩ := updInstr_cases h
  · exact hin
  · intro us hus u hu
    obtain ⟨vs, hvs, rfl⟩ := List.mem_map.mp hus
    obtain hold | rfl := List.mem_or_eq_of_mem_set hu
    · exact hin vs hvs u hold
    · exact hval vs

/-! ### Zeros and negative inputs (R251) -/

/-- A zero is not above zero. -/
theorem fpos_of_isZero {a : Word} (h : (f32dec a).isZero = true) : fpos a = false := by
  rw [fpos]
  cases hdec : f32dec a with
  | nan => rfl
  | inf s => simp [hdec, Fp.isZero] at h
  | fin s m e =>
    obtain rfl : m = 0 := by simpa [hdec, Fp.isZero] using h
    cases s <;> simp [Fp.lt, scaled]

/-- A negative value is not above zero. -/
theorem fpos_of_sign {a : Word} (h : (f32dec a).sign = true) : fpos a = false := by
  rw [fpos]
  cases hdec : f32dec a with
  | nan => rfl
  | inf s =>
    obtain rfl : s = true := by simpa [hdec, Fp.sign] using h
    rfl
  | fin s m e =>
    obtain rfl : s = true := by simpa [hdec, Fp.sign] using h
    have hneg : (0 : Int) ≤ (m * pow2 (e - min 0 e) : Nat) := Int.natCast_nonneg _
    simp only [Fp.lt, scaled, Bool.false_eq_true, if_false, if_true, Nat.zero_mul, decide_eq_false_iff_not]
    omega

/-- RSQ of a negative input that is not zero. -/
theorem updRsq_of_sign {a : Word} (hz : (f32dec a).isZero = false) (hs : (f32dec a).sign = true) : updRsq a = 0 := by
  simp [updRsq, hz, hs, f32zero]

/-- SQRT of an input that is not above zero. -/
theorem updLaneOp_sqrt_of_not_fpos {a : Word} (h : fpos a = false) (b c : Word) : updLaneOp 0x0E a b c = some 0 := by
  simp [updLaneOp, h, f32zero]

end Sys2Proof.Machine
end

section
/-!
SUPPORT. The writes of the new fields of a line (R239, R252): one access of 64 bytes per field and sixteen elements, at their place in the
group layout of a bank; O29 is put together from them and from the engine's finite registers.
-/

namespace Sys2Proof.Machine

/-! ### Bytes of equally long pieces (R510) -/

theorem leBytes_length (n v : Nat) : (leBytes n v).length = n := by
  induction n generalizing v with
  | zero => rfl
  | succ n ih => rw [leBytes, List.length_cons, ih]

theorem leNat_leBytes (n v : Nat) : leNat (leBytes n v) = v % 256 ^ n := by
  simpa [leNat] using leNat_leBytes_append n v []

theorem length_flatMap_of_length {α β : Type} {n : Nat} {g : α → List β} (hg : ∀ x, (g x).length = n) (xs : List α) :
    (xs.flatMap g).length = n * xs.length := by
  induction xs with
  | nil => rfl
  | cons x xs ih => rw [List.flatMap_cons, List.length_append, ih, hg, List.length_cons, Nat.mul_succ, Nat.add_comm]

/-- Piece `i` of equally long pieces joined stands at its multiple of their length. -/
theorem take_drop_flatMap {α β : Type} {n : Nat} {g : α → List β} (hg : ∀ x, (g x).length = n) {xs : List α} {i : Nat} {x : α}
    (hx : xs[i]? = some x) : ((xs.flatMap g).drop (n * i)).take n = g x := by
  induction xs generalizing i with
  | nil => simp at hx
  | cons y ys ih =>
    rw [List.flatMap_cons]
    cases i with
    | zero =>
      obtain rfl : y = x := by simpa using hx
      simp [← hg y]
    | succ i =>
      have hskip : n * (i + 1) = (g y).length + n * i := by rw [hg, Nat.mul_succ, Nat.add_comm]
      rw [hskip, List.drop_length_add_append, ih (by simpa using hx)]

/-! ### One access (R239) -/

section
variable (sh : Shard) (base first leaves : Nat) (news : List (List Word))

/-- The access that writes field `f` of the sixteen elements from 16 × `j` on. -/
def fieldWrite (j f : Nat) : EngineWrite :=
  { addr := base + 256 * (sh.fields * (first / 64 + j / 4) + f) + 64 * (j % 4),
    data := ((news.drop (16 * j)).take 16).flatMap (fun us => leBytes 4 (us.getD f 0).toNat), due := leaves + j / 2 }

theorem mem_fieldWrites {w : EngineWrite} : w ∈ fieldWrites sh base first leaves news ↔
    ∃ j f, j < cdiv news.length 16 ∧ f < sh.fields ∧ w = fieldWrite sh base first leaves news j f := by
  simp only [fieldWrites, fieldWrite, List.mem_flatMap, List.mem_map, List.mem_range]
  exact ⟨fun ⟨j, hj, f, hf, hw⟩ => ⟨j, f, hj, hf, hw.symm⟩, fun ⟨j, f, hj, hf, hw⟩ => ⟨j, hj, f, hf, hw.symm⟩⟩

theorem fieldWrite_data_length (j f : Nat) :
    (fieldWrite sh base first leaves news j f).data.length = 4 * min 16 (news.length - 16 * j) := by
  rw [fieldWrite, length_flatMap_of_length (fun _ => leBytes_length 4 _), List.length_take, List.length_drop]

/-- The bytes of element `i` in the access that writes it. -/
theorem fieldWrite_element {i : Nat} (hi : i < news.length) (f : Nat) :
    leNat (((fieldWrite sh base first leaves news (i / 16) f).data.drop (4 * (i % 16))).take 4) = ((news.getD i []).getD f 0).toNat := by
  have hget : ((news.drop (16 * (i / 16))).take 16)[i % 16]? = some (news.getD i []) := by
    rw [List.getElem?_take_of_lt (Nat.mod_lt _ (by decide)), List.getElem?_drop, Nat.div_add_mod,
      List.getD_eq_getElem?_getD, List.getElem?_eq_getElem hi, Option.getD_some]
  have hword : ((news.getD i []).getD f 0).toNat < 256 ^ 4 := BitVec.isLt _
  rw [fieldWrite, take_drop_flatMap (fun _ => leBytes_length 4 _) hget, leNat_leBytes, Nat.mod_eq_of_lt hword]

/-- An access of elements from a multiple of 64 onward lies within the lines of their groups. -/
theorem fieldWrite_within (g : Nat) {j f : Nat} (hj : j < cdiv news.length 16) (hf : f < sh.fields) :
    let w := fieldWrite sh base (64 * g) leaves news j f
    base + 256 * (sh.fields * g) ≤ w.addr ∧ w.addr + w.data.length ≤ base + 256 * (sh.fields * (g + (news.length + 63) / 64)) := by
  have haddr : (fieldWrite sh base (64 * g) leaves news j f).addr = base + 256 * (sh.fields * (g + j / 4) + f) + 64 * (j % 4) := by
    rw [fieldWrite, Nat.mul_div_cancel_left g (by decide)]
  have hgroup : j / 4 + 1 ≤ (news.length + 63) / 64 := by rw [cdiv] at hj; omega
  have hlow : sh.fields * g ≤ sh.fields * (g + j / 4) := Nat.mul_le_mul_left _ (by omega)
  have hhigh : sh.fields * (g + j / 4) + sh.fields ≤ sh.fields * (g + (news.length + 63) / 64) :=
    Nat.mul_succ .. ▸ Nat.mul_le_mul_left _ (by omega)
  have hlength := fieldWrite_data_length sh base (64 * g) leaves news j f
  dsimp only
  omega

end

/-- Settles O29: the layout by `mem_fieldWrites` and the lemmas about one access, finiteness by `updInstr_finite`, and each special input
by the lemma about its operation. -/
theorem updateFieldsStayFiniteAndInTheirLayout : Obligations.UpdateFieldsStayFiniteAndInTheirLayout := by
  refine ⟨fun sh base g leaves news _ _ => ⟨?element, ?within⟩, fun _ _ _ _ _ _ hin h => updInstr_finite hin h, by decide, by decide,
    by decide, by decide, fun a b c hz hs _ => ⟨?rsq, updLaneOp_sqrt_of_not_fpos (fpos_of_sign hs) b c⟩,
    fun a b c hz => updLaneOp_sqrt_of_not_fpos (fpos_of_isZero hz) b c⟩
  case element =>
    intro i f hi hf a
    have haddr : (fieldWrite sh base (64 * g) leaves news (i / 16) f).addr + 4 * (i % 16) = a := by
      have hgroup : i / 16 / 4 = i / 64 := Nat.div_div_eq_div_mul ..
      simp only [fieldWrite, a, Nat.mul_div_cancel_left g (show 0 < 64 by decide), hgroup]
      omega
    have hlength := fieldWrite_data_length sh base (64 * g) leaves news (i / 16) f
    refine ⟨_, (mem_fieldWrites sh base (64 * g) leaves news).mpr ⟨i / 16, f, by rw [cdiv]; omega, hf, rfl⟩, by omega, by omega, ?_, ?_⟩
    · simp only [fieldWrite, Nat.div_div_eq_div_mul]
    · rw [show a - (fieldWrite sh base (64 * g) leaves news (i / 16) f).addr = 4 * (i % 16) by omega]
      exact fieldWrite_element sh base (64 * g) leaves news hi f
  case within =>
    intro w hw
    obtain ⟨j, f, hj, hf, rfl⟩ := (mem_fieldWrites sh base (64 * g) leaves news).mp hw
    exact fieldWrite_within sh base leaves news g hj hf
  case rsq => exact congrArg some (updRsq_of_sign hz hs)

end Sys2Proof.Machine
end

section
/-!
SUPPORT. Restores (R275, R297, R298) and the roll forward (R299): how each command's body answers where the check that decides is met, and
how each event ends a restore; O43 is put together from them.
-/

namespace Sys2Proof.Machine

/-! ### The start of a restore (R275, R297) -/

section
variable {c : State} {h : Pkt} {sending : Bool} {k p : Nat} {image bank : Bool} {a ms n : Nat} {l : BankList}

/-- The image of a restore, where it names one, lies in the company's DRAM (R384). -/
def State.ownsImage (c : State) (k : Nat) (image bank : Bool) (l : BankList) : Prop :=
  image = true → c.ownsDram k (if bank then l.imageB else l.imageA) (256 * l.lines) = true

theorem State.ownsImage.not_denied (hown : c.ownsImage k image bank l) :
    ¬ (image = true ∧ c.ownsDram k (if bank then l.imageB else l.imageA) (256 * l.lines) = false) :=
  fun hd => Bool.eq_false_iff.mp hd.2 (hown hd.1)

/-- A port on which a company steps or another restore is in progress locks a restore out. -/
theorem restoreBody_of_busy (hl : c.readBankList k a = some l) (hown : c.ownsImage k image bank l) (hfree : c.restoreFree p = false) :
    restoreBody h sending k p image bank a ms c n = { state := c, status := 0x09 } := by
  simp only [restoreBody, hl, if_neg hown.not_denied, if_pos hfree, stLocked]

/-- A restore does not start on a port that is not ACTIVE. -/
theorem restoreBody_of_not_active (hl : c.readBankList k a = some l) (hown : c.ownsImage k image bank l) (hfree : c.restoreFree p = true)
    (hport : (c.port p).state ≠ .active) : restoreBody h sending k p image bank a ms c n = { state := c, status := 0x0A } := by
  simp only [restoreBody, hl, if_neg hown.not_denied, hfree, Bool.true_eq_false, if_false, if_pos hport, stFault]

/-- `c` with restore `x` begun and shown in RPR_RESTORE (R297, R304). -/
def State.restoreBegun (c : State) (x : RestoreSession) : State :=
  { c with restore := { lines := 0, company := BitVec.ofNat 4 x.company, port := BitVec.ofNat 3 x.port,
                        state := if x.sending then 2 else 1, sessions := c.restore.sessions ++ [x] } }

/-- On a free ACTIVE port a restore starts and its command waits; the sender makes its offer. -/
theorem restoreBody_of_free (hl : c.readBankList k a = some l) (hown : c.ownsImage k image bank l) (hfree : c.restoreFree p = true)
    (hport : (c.port p).state = .active) :
    let x : RestoreSession := { sending := sending, company := k, port := p, image := image, bank := bank, list := l, cmd := h,
                                deadline := c.nowNs + 1000000 * ms }
    restoreBody h sending k p image bank a ms c n =
      { state := if sending then (c.restoreBegun x).send p (.restoreOffer k l.lines) else c.restoreBegun x, waits := true } := by
  simp only [restoreBody, hl, if_neg hown.not_denied, hfree, Bool.true_eq_false, if_false, hport, ne_eq, not_true_eq_false, State.restoreBegun]

end

/-! ### The commands (R297, R299) -/

section
variable {s c : State} {j : Journal} {h : Pkt}

/-- RPR_RESTORE_SEND that is served in full ends in the answer of its body. -/
theorem exec_rprRestoreSend {k : BitVec 4} {p : BitVec 3} {source bank : Bool} {a : BitVec 48}
    (hs : s.serving (.rprRestoreSend h k p source bank a) = some (j, c)) :
    exec (.rprRestoreSend h k p source bank a) s =
      .next (State.finish j (restoreBody h true k.toNat p.toNat (!source) bank a.toNat 0 c (c.queueCo h.queue))) :=
  congrArg Host.Outcome.next (State.serve_full hs _)

/-- RPR_RESTORE_RECV that is served in full ends in the answer of its body. -/
theorem exec_rprRestoreRecv {k : BitVec 4} {p : BitVec 3} {target bank : Bool} {a : BitVec 48} {ms : BitVec 16}
    (hs : s.serving (.rprRestoreRecv h k p target bank a ms) = some (j, c)) :
    exec (.rprRestoreRecv h k p target bank a ms) s =
      .next (State.finish j (restoreBody h false k.toNat p.toNat target bank a.toNat ms.toNat c (c.queueCo h.queue))) :=
  congrArg Host.Outcome.next (State.serve_full hs _)

/-- RPR_ROLL_FORWARD that is served in full ends in the answer of its body. -/
theorem exec_rprRollForward {k : BitVec 4} {a : BitVec 48} (hs : s.serving (.rprRollForward h k a) = some (j, c)) :
    exec (.rprRollForward h k a) s = .next (State.finish j (rollBody k a c (c.queueCo h.queue))) :=
  congrArg Host.Outcome.next (State.serve_full hs _)

/-- A restore command, of either end, that is served in full ends in the answer of the one body. -/
theorem exec_restoreCommand {sending : Bool} {k : BitVec 4} {p : BitVec 3} {image bank : Bool} {a : BitVec 48} {ms : BitVec 16}
    (hs : s.serving (if sending then .rprRestoreSend h k p (!image) bank a else .rprRestoreRecv h k p image bank a ms) = some (j, c)) :
    exec (if sending then .rprRestoreSend h k p (!image) bank a else .rprRestoreRecv h k p image bank a ms) s =
      .next (State.finish j (restoreBody h sending k.toNat p.toNat image bank a.toNat (if sending then 0 else ms.toNat) c (c.queueCo h.queue))) := by
  cases sending with
  | true => simpa using exec_rprRestoreSend hs
  | false => exact exec_rprRestoreRecv hs

end

section
variable {s : State} {k : BitVec 4} {a : BitVec 48} {im : Image} {u : UpdSection}

/-- A roll forward of a stopped, incomplete company with its pass complete commits where the tail does, and is DENIED where it does not. -/
theorem rollBody_of_passComplete (hi : (s.co k.toNat).seq.image = some im) (hu : im.update = some u)
    (hstop : (s.co k.toNat).seq.state = .stopped) (hverdict : (s.co k.toNat).upd.verdict = .incomplete)
    (hpass : s.passComplete k.toNat u = true) (n : Nat) :
    rollBody k a s n =
      if tailCommits (s.co k.toNat).seq.members (tailEntries (mline s.dram a.toNat)) then
        { state := (s.commitBank k.toNat u (if (s.co k.toNat).upd.restored then 0 else (s.co k.toNat).upd.passDigest)).flushPosted k.toNat }
      else { state := s, status := 0x02 } := by
  simp only [rollBody, hi, Option.bind_some, hu, hstop, hverdict, hpass, and_self, if_true, stDenied]

end

/-! ### The end of a restore (R297, R298, R304, R305) -/

section
variable {s : State} {p : Nat} {x : RestoreSession}

/-- With every line there and the CRC-32 of all lines equal, a restore ends with DONE; a received bank takes its header and state. -/
theorem State.restoreComplete_of_crc_eq (hx : s.restore.sessions.find? (fun r => r.port = p) = some x) (header : List Byte) {crc : Word}
    (hcount : x.count = x.list.lines) (hcrc : crc = ~~~x.crc) :
    s.restoreComplete p (.ok header crc) =
      (if x.sending = false ∧ x.image = false then s.restoreBank x header else s).restoreEnd x 4 0x00 := by
  simp only [State.restoreComplete, hx, if_pos hcount, if_pos hcrc, stDone]

/-- With every line there and the CRC-32 of all lines different, a restore fails. -/
theorem State.restoreComplete_of_crc_ne (hx : s.restore.sessions.find? (fun r => r.port = p) = some x) (header : List Byte) {crc : Word}
    (hcount : x.count = x.list.lines) (hcrc : crc ≠ ~~~x.crc) : s.restoreComplete p (.ok header crc) = s.restoreFail x 1 := by
  simp only [State.restoreComplete, hx, if_pos hcount, if_neg hcrc]

/-- What the events but a complete image do to the restore of their port. -/
theorem State.restoreComplete_of_end (hx : s.restore.sessions.find? (fun r => r.port = p) = some x) :
    s.restoreComplete p .linesDiffer = s.restoreEnd x 5 0x04 ∧ s.restoreComplete p .frameLost = s.restoreFail x 0 ∧
      s.restoreComplete p .crcMismatch = s.restoreFail x 1 ∧ s.restoreComplete p .portLost = s.restoreFail x 2 := by
  simp only [State.restoreComplete, hx, stBadArg, and_self]

/-- A receiver that has no line by its deadline fails. -/
theorem State.restoreTimeout_of_due (hx : s.restore.sessions.find? (fun r => r.port = p) = some x) (hrecv : x.sending = false)
    (hcount : x.count = 0) (hdue : x.deadline ≤ s.nowNs) : s.restoreTimeout p = s.restoreFail x 3 := by
  simp only [State.restoreTimeout, hx, hrecv, hcount, hdue, and_self, if_true]

/-- A sender, a receiver with a line, and one before its deadline do not time out. -/
theorem State.restoreTimeout_of_not_due (hx : s.restore.sessions.find? (fun r => r.port = p) = some x)
    (hnot : x.sending = true ∨ x.count ≠ 0 ∨ s.nowNs < x.deadline) : s.restoreTimeout p = s := by
  have hdue : ¬ (x.sending = false ∧ x.count = 0 ∧ x.deadline ≤ s.nowNs) := by
    rintro ⟨hrecv, hcount, hdue⟩
    rcases hnot with hs | hc | ht
    · exact Bool.eq_false_iff.mp hrecv hs
    · exact hc hcount
    · exact Nat.not_lt.mpr hdue ht
  simp only [State.restoreTimeout, hx, if_neg hdue]

end

/-- Settles O43: the commands by how their bodies answer, the events by how they end the restore of their port. -/
theorem restoresAndRollForwardComplete : Obligations.RestoresAndRollForwardComplete := by
  refine ⟨fun s c j h => ⟨?start, ?roll⟩, fun s p x hx => ?stop⟩
  case start =>
    intro sending k p image bank a ms l i hs hl hown x
    have hexec : exec i s = _ := exec_restoreCommand hs
    refine ⟨fun hfree => ?_, fun hfree hport => ?_, fun hfree hport => ?_⟩
    · rw [hexec, restoreBody_of_busy hl hown hfree]; rfl
    · rw [hexec, restoreBody_of_not_active hl hown hfree hport]; rfl
    · rw [hexec, restoreBody_of_free hl hown hfree hport]
      have hcompany : BitVec.ofNat 4 k.toNat = k := BitVec.ofNat_toNat 4 k
      have hport : BitVec.ofNat 3 p.toNat = p := BitVec.ofNat_toNat 3 p
      refine ⟨c.restoreBegun x, ?_, rfl, rfl, hcompany, hport, rfl, rfl⟩
      cases sending <;> rfl
  case roll =>
    intro k a im u hs hi hu hstop hverdict hpass e commits
    have hiff : tailCommits (c.co k.toNat).seq.members (tailEntries (mline c.dram a.toNat)) = true ↔ commits := tailCommits_iff ..
    rw [exec_rprRollForward hs, rollBody_of_passComplete hi hu hstop hverdict hpass]
    refine ⟨fun hc => ?_, fun hc => ?_⟩
    · rw [if_pos (hiff.mpr hc)]; rfl
    · rw [if_neg (mt hiff.mp hc)]; rfl
  case stop =>
    intro ended failed
    have hended (s : State) (shown : BitVec 4) (status : Byte) : s.restoreEnd x shown status = ended s shown status := by
      simp only [State.restoreEnd, State.restoreShown, decide_eq_true_eq, ended]
    have hfailed (cause : Nat) : s.restoreFail x cause = failed cause := hended ..
    obtain ⟨hdiffer, hlost, hmismatch, hport⟩ := State.restoreComplete_of_end hx
    have hcomplete (outcome : RestoreEnd) : exec (.restoreComplete p outcome) s = .next (s.restoreComplete p.toNat outcome) := rfl
    have htimeout : exec (.restoreTimeout p) s = .next (s.restoreTimeout p.toNat) := rfl
    rw [hcomplete, hcomplete, hcomplete, hcomplete, htimeout, hdiffer, hlost, hmismatch, hport, hended, hfailed, hfailed, hfailed]
    refine ⟨fun header crc hcount => ⟨fun hcrc hside => ?_, fun hcrc hrecv hbank => ?_, fun hcrc => ?_⟩, rfl, rfl, rfl, rfl,
      fun hrecv hcount hdue => ?_, fun hnot => ?_⟩
    · have hnone : ¬ (x.sending = false ∧ x.image = false) := by
        rintro ⟨hs, hi⟩
        simp [hs, hi] at hside
      rw [hcomplete, State.restoreComplete_of_crc_eq hx header hcount hcrc, if_neg hnone, hended]
    · rw [hcomplete, State.restoreComplete_of_crc_eq hx header hcount hcrc, if_pos ⟨hrecv, hbank⟩, hended]
    · rw [hcomplete, State.restoreComplete_of_crc_ne hx header hcount hcrc, hfailed]
    · rw [State.restoreTimeout_of_due hx hrecv hcount hdue, hfailed]
    · rw [State.restoreTimeout_of_not_due hx hnot]

end Sys2Proof.Machine
end

section
/-!
SUPPORT. The mark that a coded block leaves (R281): what a flush can do to the oldest stream's marks, and a stream whose block is marked with
the stream byte that comes after it, where O42 states the one before it; O42 is refuted from them.
-/

namespace Sys2Proof.Machine

/-! ### A flush keeps or drops marks, and makes none (R281) -/

section
variable {s : State} {k : Nat} {x : Stream} {xs : List Stream}

@[simp] theorem State.ringWrite_co (s : State) (loc : Bool) (a : Nat) (bs : List Byte) (j : Nat) : (s.ringWrite loc a bs).co j = s.co j :=
  (s.ringWrite_rings loc a bs).co j

@[simp] theorem State.ringStream_co (s : State) (q limit : Nat) (bs : List Byte) (j : Nat) : (s.ringStream q limit bs).2.co j = s.co j := by
  simp [State.ringStream]

theorem State.snapSegments_co (n : Nat) (s : State) (bs : List Byte) (sent j : Nat) : (s.snapSegments k x n bs sent).2.co j = s.co j := by
  induction n generalizing s bs sent with
  | zero => rfl
  | succ n ih =>
    simp only [State.snapSegments]
    split
    · rfl
    · exact ih ..

/-- A change of the oldest stream leaves those behind it. -/
theorem State.modStream_streams (hx : (s.co k).pak.streams = x :: xs) (f : Stream → Stream) :
    ((s.modStream k f).co k).pak.streams = f x :: xs := by
  simp [State.modStream, hx]

/-- The state in which what can leave of the oldest stream `x` has left (R281, R283). -/
def State.streamLeft (s : State) (k limit : Nat) (x : Stream) : State :=
  let move := fun (r : Nat × State) => r.2.modStream k (fun _ => x.passed r.1)
  if x.dest = 0 then
    (s.streamQueue k x).elim (s.streamDropped k x) (fun q => if s.entryWaits q then s else move (s.ringStream q limit x.buf))
  else if s.farUp (destPort x.dest) then
    (if s.hasShare k (destPort x.dest) then move (s.snapSegments k x (cdiv x.buf.length 8192) x.buf x.sent) else s)
  else s.streamDropped k x

/-- A stream that is not whole is not completed when bytes of it have left. -/
theorem State.streamOut_of_not_whole {y : Stream} (hx : (s.co k).pak.streams = x :: xs) {limit : Nat}
    (hy : ((s.streamLeft k limit x).co k).pak.streams = y :: xs) (hopen : y.whole = false) : s.streamOut k limit = s.streamLeft k limit x := by
  simp only [State.streamLeft] at hy ⊢
  simp only [State.streamOut, hx, hy, hopen, Bool.false_eq_true, false_and, if_false]

/-- Before its trailer is made, bytes of the oldest stream pass on, or nothing happens. -/
theorem State.streamLeft_streams (hx : (s.co k).pak.streams = x :: xs) (hopen : x.result = none) (limit : Nat) :
    ∃ y, ((s.streamLeft k limit x).co k).pak.streams = y :: xs ∧ (y = x ∨ ∃ n, y = x.passed n) := by
  have hmoved {r : Nat × State} (hr : r.2.co k = s.co k) :
      ∃ y, ((r.2.modStream k (fun _ => x.passed r.1)).co k).pak.streams = y :: xs ∧ (y = x ∨ ∃ n, y = x.passed n) :=
    ⟨_, State.modStream_streams (by rw [hr, hx]) _, .inr ⟨_, rfl⟩⟩
  have hdropped : s.streamDropped k x = s := by simp [State.streamDropped, hopen]
  rw [State.streamLeft, hdropped]
  split
  · cases s.streamQueue k x with
    | none => exact ⟨x, hx, .inl rfl⟩
    | some q =>
      dsimp only [Option.elim]
      split
      · exact ⟨x, hx, .inl rfl⟩
      · exact hmoved (State.ringStream_co ..)
  · split
    · split
      · exact hmoved (State.snapSegments_co ..)
      · exact ⟨x, hx, .inl rfl⟩
    · exact ⟨x, hx, .inl rfl⟩

/-- A flush before the trailer is made does no more. -/
theorem State.streamFlush_streams (hx : (s.co k).pak.streams = x :: xs) (hopen : x.result = none) :
    ∃ y, ((s.streamFlush k).co k).pak.streams = y :: xs ∧ (y = x ∨ ∃ n, y = x.passed n) := by
  obtain ⟨y, hy, hyx⟩ := State.streamLeft_streams hx hopen (((s.co k).pak.streams.head?.bind (fun x => s.streamQueue k x)).elim 0
    (fun q => (s.queue q).streamLimit))
  have hwhole : y.whole = false := by
    obtain rfl | ⟨n, rfl⟩ := hyx <;> simp [Stream.whole, Stream.passed, hopen]
  exact ⟨y, by rw [State.streamFlush, State.streamOut_of_not_whole hx hy hwhole, hy], hyx⟩

/-- A flush before the trailer leaves the oldest stream no mark that it did not have. -/
theorem State.streamFlush_marks (hx : (s.co k).pak.streams = x :: xs) (hopen : x.result = none) :
    ∃ y, ((s.streamFlush k).co k).pak.streams = y :: xs ∧ y.marks ⊆ x.marks := by
  obtain ⟨y, hy, rfl | ⟨n, rfl⟩⟩ := State.streamFlush_streams hx hopen
  · exact ⟨y, hy, fun _ h => h⟩
  · exact ⟨_, hy, List.drop_subset _ _⟩

end

/-! ### The block of a stream to a far port -/

/-- A begun stream of an empty bank to far port 0, with nothing in its captured header. -/
def markedStream : Stream :=
  { kind := 0, commits := 1, bank := false, list := { lines := 0, imageA := 0, imageB := 0, company := 0, coord := 0, records := [] },
    header := [], begun := true, queue := 0, queueGen := 0, dest := 1, cipher := 0x1FF#9, pack := false, width := 0 }

/-- The reset state with that stream in the house; its far port is down, so that nothing leaves. -/
def markedState : State := State.reset.modPak 0 (fun p => { p with streams := [markedStream] })

/-- Its block is marked with the 16 stream bytes made once it is coded. -/
theorem markedState_block :
    ∃ t y, exec (.snapshotBlock 0) markedState = .next t ∧ (t.co 0).pak.streams = [y] ∧ (16, 512) ∈ y.marks :=
  ⟨_, { markedStream with read := 512, blocks := 1, buf := codeBlock false 1 [], made := 16, marks := [(16, 512)] }, rfl,
    by decide +kernel, by decide⟩

/-- Refutes O42: a coded block is marked with the stream bytes made once it is made (`markedState_block`), where the statement marks it with
those made before; a flush makes up for no mark that is missing. -/
theorem not_snapshotStreamEventsComplete : ¬ Obligations.SnapshotStreamEventsComplete := by
  intro hall
  obtain ⟨t, y, ht, hy, hmark⟩ := markedState_block
  have hstreams : (markedState.co 0).pak.streams = [markedStream] := by decide +kernel
  have hturn : markedState.blockTurn 0 = true := by decide +kernel
  obtain ⟨-, -, -, hblock, -⟩ := hall.1 markedState 0 markedStream [] (by decide) hstreams
  obtain ⟨u, hu, -, -, hmarked⟩ := hblock rfl rfl (.inl (by decide)) hturn
  obtain ⟨z, hz, hsub⟩ := State.streamFlush_marks hmarked rfl
  obtain rfl : t = u.streamFlush 0 := by rw [ht] at hu; injection hu
  obtain rfl : y = z := by simpa [hy] using hz
  exact absurd (hsub hmark) (by decide)

end Sys2Proof.Machine
end

section
/-!
SUPPORT. A far port that goes down writes the PAK set of every company, with or without streams (R283, R337). A write of what an unlisted
company reads as takes the company off the table, and the statement does not ask for a table without such an entry; O41 is refuted from a
state that has one.
-/

namespace Sys2Proof.Machine

/-- The reset state with far port 0 trained, and with company 1 listed at the values of an unlisted one. -/
def listedDefault : State := { State.reset with cos := [(1, {})], farPorts := [(0, { link := 1 })] }

/-- The loss of the far port takes company 1 off the table. -/
theorem listedDefault_farDown_cos : (listedDefault.farDown 0).cos = [] := by decide +kernel

/-- Refutes O41: no company of `listedDefault` has a stream, so the loss of far port 0 would leave the table of companies as it is, and it
takes company 1 off (`listedDefault_farDown_cos`). -/
theorem not_farCommandsAndPortsComplete : ¬ Obligations.FarCommandsAndPortsComplete := by
  intro hall
  have h : Pkt := { queue := 0, flags := 0, company := 0, reserved := 0, length := 0, tag := 0, txn := 0 }
  obtain ⟨-, -, -, hports⟩ := hall listedDefault listedDefault { pkt := h, payload := 0, gen := 0, opcode := 0, txn := 0 } h
  obtain ⟨-, -, hdown⟩ := hports false
  have hlink : (listedDefault.farPort 0).link ≠ 0 := by decide
  have hstreams : ∀ k, k < 16 → (listedDefault.co k).pak.streams = [] := by decide
  have hcos : (listedDefault.farDown 0).cos = listedDefault.cos := by
    injection hdown hlink hstreams with hnext
    exact (congrArg State.cos hnext).trans (State.log_cos ..)
  exact absurd (listedDefault_farDown_cos.symm.trans hcos) (by decide)

end Sys2Proof.Machine
end

section
/-!
SUPPORT. The island (R296, R473 to R484): what trying the torus ports changes, which is frames sent and ports, but no override, and of the
lock and the island nothing; what a new call sheet, an override, a new root and an adoption leave behind; and what a module sends in a census
round once it has, or has not, the sums of its children. O57 is put together from them.
-/

namespace Sys2Proof.Machine

/-- `t` has the island of `s`, and its torus but for frames sent and for ports, of which only those in `P` may have changed; every port has
the identity for which an override was given. -/
structure State.LockKept (P : Nat → Prop) (s t : State) : Prop where
  island : t.island = s.island
  tor : t.tor = { s.tor with ports := t.tor.ports, tx := t.tor.tx }
  port : ∀ q, ¬ P q → t.port q = s.port q
  overridden : ∀ q, (t.port q).overridden = (s.port q).overridden

section
variable {P : Nat → Prop} {s t u : State}

theorem State.LockKept.refl (s : State) : State.LockKept P s s := ⟨rfl, rfl, fun _ _ => rfl, fun _ => rfl⟩

theorem State.LockKept.trans (h : State.LockKept P s t) (k : State.LockKept P t u) : State.LockKept P s u where
  island := k.island.trans h.island
  tor := k.tor.trans (congrArg (fun x : Tor => { x with ports := u.tor.ports, tx := u.tor.tx }) h.tor)
  port q hq := (k.port q hq).trans (h.port q hq)
  overridden q := (k.overridden q).trans (h.overridden q)

theorem State.LockKept.foldl {α : Type} (l : List α) (f : State → α → State) (h : ∀ (s : State) a, State.LockKept P s (f s a)) (s : State) :
    State.LockKept P s (l.foldl f s) := by
  induction l generalizing s with
  | nil => exact .refl s
  | cons a l ih => exact (h s a).trans (ih _)

/-- A change of other parts than torus and island. -/
theorem State.LockKept.other (hi : t.island = s.island) (ht : t.tor = s.tor) : State.LockKept P s t := by
  have hport (q : Nat) : t.port q = s.port q := by rw [State.port, ht, State.port]
  exact ⟨hi, by rw [ht], fun q _ => hport q, fun q => by rw [hport]⟩

theorem State.LockKept.root (h : State.LockKept P s t) : t.tor.root = s.tor.root := by rw [h.tor]
theorem State.LockKept.hops (h : State.LockKept P s t) : t.tor.hops = s.tor.hops := by rw [h.tor]
theorem State.LockKept.parent (h : State.LockKept P s t) : t.tor.parent = s.tor.parent := by rw [h.tor]
theorem State.LockKept.lockState (h : State.LockKept P s t) : t.tor.lockState = s.tor.lockState := by rw [h.tor]
theorem State.LockKept.everLocked (h : State.LockKept P s t) : t.tor.everLocked = s.tor.everLocked := by rw [h.tor]

/-! ### Records and answers (R385, R386, R422) -/

theorem State.log_lockKept (s : State) (kind index : Nat) (cls : BitVec 2) (k : Nat) (code : BitVec 16) (d : List (Nat × Nat)) :
    State.LockKept P s (s.log kind index cls k code d) := .other (State.log_island ..) (State.log_tor ..)

theorem State.reply_lockKept (s : State) (j : Journal) (status detail : Byte) (retry : Nat) (txn : Word) (result : List Byte) :
    State.LockKept P s (s.reply j status detail retry txn result) := by
  unfold State.reply
  dsimp only
  split
  · exact .other rfl rfl
  · exact .other (State.post_island ..) (State.post_tor ..)

theorem State.takeEntries_lockKept (s : State) (q n : Nat) : State.LockKept P s (s.takeEntries q n) := by
  unfold State.takeEntries
  dsimp only
  split
  · exact (State.LockKept.foldl _ (fun s i => s.wingsUse ..) (fun _ _ => .other rfl rfl) s).trans (.other rfl rfl)
  · exact .other rfl rfl

theorem State.fetchOne_lockKept {q : Nat} (h : s.fetchOne q = some t) : State.LockKept P s t := by
  unfold State.fetchOne at h
  split at h
  · obtain ⟨c, -, rfl⟩ := Option.map_eq_some_iff.mp h
    have hentered (j : Journal) : State.LockKept P s ((s.takeEntries q (pktEntries c.1)).enter j) :=
      (s.takeEntries_lockKept q _).trans (.other rfl rfl)
    dsimp only
    split
    · exact (hentered _).trans (State.reply_lockKept ..)
    · exact hentered _
  · cases h

theorem State.fetchMany_lockKept (q n : Nat) (s : State) : State.LockKept P s (State.fetchMany q n s) := by
  induction n generalizing s with
  | zero => exact .refl s
  | succ n ih =>
    unfold State.fetchMany
    cases h : s.fetchOne q with
    | none => exact .refl s
    | some t => exact (State.fetchOne_lockKept h).trans (ih t)

theorem State.answer_lockKept (s : State) (h : Pkt) (status detail : Byte) (result : List Byte) :
    State.LockKept P s (s.answer h status detail result) := by
  unfold State.answer
  split
  · exact .refl s
  · exact (State.reply_lockKept ..).trans (State.fetchMany_lockKept ..)

/-! ### Frames and ports (R180, R184 to R186, R191) -/

theorem State.send_lockKept (s : State) (p : Nat) (f : Frame) : State.LockKept P s (s.send p f) := ⟨rfl, rfl, fun _ _ => rfl, fun _ => rfl⟩

theorem State.modPort_lockKept {p : Nat} (hp : P p) {f : Port → Port} (hf : ∀ x, (f x).overridden = x.overridden) (s : State) :
    State.LockKept P s (s.modPort p f) where
  island := rfl
  tor := rfl
  port q hq := State.modPort_port_ne s p q f (fun hqp => hq (hqp ▸ hp))
  overridden q := by
    rw [State.modPort_port]
    split
    · next h => rw [hf, h]
    · rfl

theorem State.deferredRelease_lockKept (s : State) (p : Nat) : State.LockKept P s (s.deferredRelease p) :=
  State.LockKept.foldl _ _ (fun s k => by
    dsimp only
    split
    · split
      · exact s.send_lockKept ..
      · exact .refl s
    · exact .refl s) s

theorem State.probe_lockKept (s : State) (p : Nat) : State.LockKept P s (s.probe p) :=
  State.LockKept.foldl (List.range 64) (fun s _ => s.send p .probe) (fun s _ => s.send_lockKept p .probe) s

theorem State.sendLock_lockKept (s : State) : State.LockKept P s s.sendLock :=
  State.LockKept.foldl _ _ (fun s p => by
    unfold State.sendLockOn
    split
    · exact s.send_lockKept ..
    · exact .refl s) s

theorem State.logCheck_lockKept (s : State) (p : Nat) : State.LockKept P s (s.logCheck p) := by
  unfold State.logCheck
  split
  · split
    · exact s.log_lockKept ..
    · exact .refl s
  · exact .refl s

/-- Port `p` is ACTIVE, its deferred RELEASE markers and its PROBE frames have left (R158, R184, R186). -/
def State.activated (s : State) (p : Nat) : State :=
  ((s.modPort p (fun x => { x with state := .active, measured := false })).deferredRelease p).probe p

/-- The TOR_REPOINT that waits on the ACTIVE port `p`, which was `x`, is done (R194). -/
def State.repointDone (s : State) (p : Nat) (x : Port) : State :=
  match x.repoint with
  | some (serial, _, h, _) =>
    if s.repointMet p then (s.modPort p (fun x => { x with repoint := none, expectSerial := some serial })).answer h stDone 0 [] else s
  | none => s

/-- The lane swap that waits on the ACTIVE port `p`, which was `x`, is done (R193). -/
def State.swapDone (s : State) (p : Nat) (x : Port) : State :=
  match x.swapCmd with
  | some h => if x.swapPending then s else (s.modPort p (fun x => { x with swapCmd := none })).answer h stDone 0 []
  | none => s

theorem State.tryActive_eq (s : State) (p : Nat) :
    s.tryActive p =
      if decide ((s.port p).state = .measured) && s.bothLocked p && !(s.port p).latDue && !(s.port p).barred && s.agrees p then
        ((s.activated p).repointDone p (s.port p)).swapDone p (s.port p)
      else s := rfl

section
variable {p : Nat} (hp : P p)
include hp

/-- A port changes, and a command that waited for it is answered. -/
theorem State.modPort_answer_lockKept {f : Port → Port} (hf : ∀ x, (f x).overridden = x.overridden) (s : State) (h : Pkt) :
    State.LockKept P s ((s.modPort p f).answer h stDone 0 []) :=
  (s.modPort_lockKept hp hf).trans (State.answer_lockKept ..)

theorem State.activated_lockKept (s : State) : State.LockKept P s (s.activated p) :=
  ((s.modPort_lockKept hp (by intro _; rfl)).trans (State.deferredRelease_lockKept _ p)).trans (State.probe_lockKept _ p)

theorem State.repointDone_lockKept (s : State) (x : Port) : State.LockKept P s (s.repointDone p x) := by
  unfold State.repointDone
  split
  · split
    · exact s.modPort_answer_lockKept hp (by intro _; rfl) _
    · exact .refl s
  · exact .refl s

theorem State.swapDone_lockKept (s : State) (x : Port) : State.LockKept P s (s.swapDone p x) := by
  unfold State.swapDone
  split
  · split
    · exact .refl s
    · exact s.modPort_answer_lockKept hp (by intro _; rfl) _
  · exact .refl s

theorem State.tryActive_lockKept (s : State) : State.LockKept P s (s.tryActive p) := by
  rw [State.tryActive_eq]
  split
  · exact ((s.activated_lockKept hp).trans (State.repointDone_lockKept hp ..)).trans (State.swapDone_lockKept hp ..)
  · exact .refl s

end

theorem State.tryAll_lockKept (hP : ∀ p, P p) (s : State) : State.LockKept P s s.tryAll :=
  State.LockKept.foldl _ _ (fun s p => s.tryActive_lockKept (hP p)) s

end

/-! ### The call sheet (R473, R476 to R479) -/

/-- A change of the first `n` ports leaves the rest of the machine alone. -/
theorem State.foldl_modPort_range (f : Port → Port) (n : Nat) (s : State) :
    ∃ ps, (List.range n).foldl (fun s p => s.modPort p f) s = { s with tor := { s.tor with ports := ps } } ∧
      ∀ q, tget {} ps q = if q < n then f (s.port q) else s.port q := by
  induction n with
  | zero => exact ⟨_, rfl, fun q => rfl⟩
  | succ n ih =>
    obtain ⟨ps, hfold, hport⟩ := ih
    refine ⟨tmod {} ps n f, by rw [List.range_succ, List.foldl_append, hfold]; rfl, fun q => ?_⟩
    rw [tget_tmod, hport, hport]
    rcases Nat.lt_trichotomy q n with hlt | rfl | hgt
    · rw [if_neg (by omega), if_pos hlt, if_pos (by omega)]
    · rw [if_pos rfl, if_neg (by omega), if_pos (by omega)]
    · rw [if_neg (by omega), if_neg (by omega), if_neg (by omega)]

section
variable {s : State}

theorem State.selectParent_of_root (hr : s.tor.root = true) : s.selectParent = s := by simp [State.selectParent, hr]

/-- The choice of a parent changes the parent and the state of the lock. -/
theorem State.selectParent_eq (s : State) :
    ∃ parent lockState, s.selectParent = { s with tor := { s.tor with parent := parent, lockState := lockState } } := by
  unfold State.selectParent
  split
  · exact ⟨_, _, rfl⟩
  · split
    · exact ⟨_, _, rfl⟩
    · exact ⟨_, _, rfl⟩

/-- `s` with the place of the module and of the root that sheet `sh` gives (R473, R479, R481). -/
def State.sheetPlaced (s : State) (sh : Sheet) : State :=
  let me := sh.mine s.serial
  let root := decide (sh.root = s.serial)
  let lost := s.tor.root && !root
  { s with
    grid := if me.isSome then sh.coreCount / 32 else s.grid,
    island := { s.island with
      sheet := some sh, role := me.elim 0 (fun e => e.role), coord := me.elim 0xFFFFFFFF#32 (fun e => e.coord), island := sh.island },
    tor := { s.tor with
      root := root, hops := if root then 0 else if lost then 0xFF#8 else s.tor.hops, parent := if root then 0xF#4 else s.tor.parent,
      lockState := if root then 2 else if lost then 3 else s.tor.lockState, everLocked := s.tor.everLocked || root } }

/-- A new sheet ends every override and every expectation of a TOR_REPOINT (R477, R478). -/
def State.sheetCleared (s : State) (sh : Sheet) : State :=
  (List.range 8).foldl (fun s p => s.modPort p (fun x => { x with overridden := none, expectSerial := none })) (s.sheetPlaced sh)

/-- The ports are checked against the new sheet, and a new or former root says so (R477, R481). -/
def State.sheetChecked (s : State) (sh : Sheet) : State :=
  let root := decide (sh.root = s.serial)
  let t := (List.range 8).foldl (fun s p => s.logCheck p) (s.sheetCleared sh)
  if root || (s.tor.root && !root) then t.sendLock else t

theorem State.installSheet_eq (s : State) (sh : Sheet) : s.installSheet sh = (s.sheetChecked sh).selectParent.tryAll := rfl

theorem State.sheetChecked_lockKept (P : Nat → Prop) (s : State) (sh : Sheet) : State.LockKept P (s.sheetCleared sh) (s.sheetChecked sh) := by
  have hlogged : State.LockKept P (s.sheetCleared sh) ((List.range 8).foldl (fun s p => s.logCheck p) (s.sheetCleared sh)) :=
    State.LockKept.foldl _ _ (fun s p => s.logCheck_lockKept p) _
  unfold State.sheetChecked
  dsimp only
  split
  · exact hlogged.trans (State.sendLock_lockKept _)
  · exact hlogged

/-- What a new sheet gives the island, the root and the overrides. -/
theorem State.installSheet_spec (s : State) (sh : Sheet) :
    (s.installSheet sh).island = (s.sheetPlaced sh).island ∧ (s.installSheet sh).tor.root = decide (sh.root = s.serial) ∧
      (sh.root = s.serial → (s.installSheet sh).tor.hops = 0 ∧ (s.installSheet sh).tor.lockState = 2) ∧
      ∀ p, p < 8 → ((s.installSheet sh).port p).overridden = none := by
  obtain ⟨ps, hcleared, hports⟩ := State.foldl_modPort_range (fun x => { x with overridden := none, expectSerial := none }) 8 (s.sheetPlaced sh)
  have hchecked := s.sheetChecked_lockKept (fun _ => True) sh
  rw [State.sheetCleared, hcleared] at hchecked
  have htried := (s.sheetChecked sh).selectParent.tryAll_lockKept (fun _ => trivial)
  rw [← State.installSheet_eq] at htried
  obtain ⟨parent, lockState, hparent⟩ := (s.sheetChecked sh).selectParent_eq
  refine ⟨?island, ?root, fun hroot => ?lock, fun p hp => ?override⟩
  case island => rw [htried.island, hparent]; exact hchecked.island
  case root => rw [htried.root, hparent]; exact hchecked.root
  case lock =>
    have hplaced : (s.sheetPlaced sh).tor.root = true := decide_eq_true hroot
    have hroot' : (s.sheetChecked sh).tor.root = true := hchecked.root.trans hplaced
    rw [State.selectParent_of_root hroot'] at htried
    rw [htried.hops, htried.lockState, hchecked.hops, hchecked.lockState]
    simp [State.sheetPlaced, hroot]
  case override =>
    rw [htried.overridden, hparent]
    refine (hchecked.overridden p).trans ?_
    rw [State.port, hports, if_pos hp]

end

/-! ### The commands of the island (R296, R473, R478, R481) -/

section
variable {s c : State} {j : Journal} {h : Pkt}

/-- An answer with a status and its detail is the reply that carries both. -/
theorem State.finish_detail (t : State) (j : Journal) (status detail : Byte) :
    State.finish j { state := t, status := status, detail := detail } = (t.reply j status detail 0 j.txn []).fetch j.pkt.queue := rfl

/-- ISL_CALL_SHEET of a sheet that passes every check installs it and answers the module's role. -/
theorem exec_islCallSheet_of_checked {a : BitVec 48} {n : Word} (hs : s.serving (.islCallSheet h a n) = some (j, c))
    (hc : sheetCheck c a.toNat n.toNat = none) :
    exec (.islCallSheet h a n) s = .next ((c.installSheet (readSheet c a.toNat)).answered j 0x00
      [(c.installSheet (readSheet c a.toNat)).island.role.setWidth 8]) := by
  have hbody (k : Nat) : sheetBody a.toNat n.toNat c k =
      { state := c.installSheet (readSheet c a.toNat), result := [(c.installSheet (readSheet c a.toNat)).island.role.setWidth 8] } := by
    rw [sheetBody, hc]
  exact congrArg Host.Outcome.next ((State.serve_full hs _).trans (by rw [hbody, State.finish_reply]))

/-- ISL_CALL_SHEET of a sheet outside the house's DRAM is logged and DENIED with reason 0x01. -/
theorem exec_islCallSheet_of_not_owned {a : BitVec 48} {n : Word} (hs : s.serving (.islCallSheet h a n) = some (j, c))
    (hown : c.ownsDram 0 a.toNat n.toNat = false) :
    exec (.islCallSheet h a n) s = .next
      (((c.log 0xD 0 1 0 0x0011#16 [(8, 1), (32, c.rd (a.toNat + 0x1C) 4)]).reply j 0x02 0x01 0 j.txn []).fetch j.pkt.queue) := by
  have hcheck : sheetCheck c a.toNat n.toNat = some (0x01, stDenied) := by simp [sheetCheck, hown]
  have hbody (k : Nat) : sheetBody a.toNat n.toNat c k =
      { state := c.log 0xD 0 1 0 0x0011#16 [(8, 1), (32, c.rd (a.toNat + 0x1C) 4)], status := stDenied, detail := 0x01 } := by
    rw [sheetBody, hcheck]; rfl
  exact congrArg Host.Outcome.next ((State.serve_full hs _).trans (by rw [hbody, State.finish_detail]; rfl))

/-- ISL_OVERRIDE that sets an override is for a port that disagrees. -/
theorem exec_islOverride_of_agreeing {port : BitVec 3} {set : Bool} (hs : s.serving (.islOverride h port set) = some (j, c))
    (hset : set = true) (hcheck : c.portCheck port.toNat ≠ 2) : exec (.islOverride h port set) s = .next (c.answered j 0x04 []) :=
  congrArg Host.Outcome.next ((State.serve_full hs _).trans (by simp only [hset, hcheck, ne_eq, not_false_eq_true, and_self, if_true]; exact State.finish_reply ..))

/-- ISL_OVERRIDE is LOCKED out by a script that is armed, running or held. -/
theorem exec_islOverride_of_busy {port : BitVec 3} {set : Bool} (hs : s.serving (.islOverride h port set) = some (j, c))
    (hset : ¬ (set = true ∧ c.portCheck port.toNat ≠ 2)) (hbusy : c.scriptBusy = true) :
    exec (.islOverride h port set) s = .next (c.answered j 0x09 []) :=
  congrArg Host.Outcome.next ((State.serve_full hs _).trans (by simp only [if_neg hset, hbusy, if_true]; exact State.finish_reply ..))

/-- `c` with the identity of port `p` overridden, or its override ended, and the port tried (R478). -/
def State.overrideSet (c : State) (p : Nat) (set : Bool) : State :=
  (State.log (c.modPort p (fun x => { x with overridden := if set then x.ident else none })) 0xD 0 1 0 0x0013#16
    [(3, p), (64, ((c.port p).ident).elim 0 (fun i => i.serial.toNat)), (1, b2n set)]).tryActive p

/-- ISL_OVERRIDE sets or ends the override, and tries the port. -/
theorem exec_islOverride_of_free {port : BitVec 3} {set : Bool} (hs : s.serving (.islOverride h port set) = some (j, c))
    (hset : ¬ (set = true ∧ c.portCheck port.toNat ≠ 2)) (hbusy : c.scriptBusy = false) :
    exec (.islOverride h port set) s = .next ((c.overrideSet port.toNat set).answered j 0x00 []) :=
  congrArg Host.Outcome.next ((State.serve_full hs _).trans (by simp only [if_neg hset, hbusy, Bool.false_eq_true, if_false]; exact State.finish_reply ..))

/-- An override is for the identity that the port shows; the other ports stay as they are. -/
theorem State.overrideSet_spec (c : State) (p : Nat) (set : Bool) :
    ((c.overrideSet p set).port p).overridden = (if set then (c.port p).ident else none) ∧
      ∀ q, q ≠ p → (c.overrideSet p set).port q = c.port q := by
  have hkept : State.LockKept (· = p) (c.modPort p (fun x => { x with overridden := if set then x.ident else none })) (c.overrideSet p set) :=
    (State.log_lockKept ..).trans (State.tryActive_lockKept (P := (· = p)) (p := p) rfl _)
  refine ⟨(hkept.overridden p).trans ?_, fun q hq => (hkept.port q hq).trans (State.modPort_port_ne c p q _ hq)⟩
  rw [State.modPort_port_self]

/-- `c` as the root of its island, with LOCK frames sent and the ports tried (R481). -/
def State.rooted (c : State) : State :=
  (State.sendLock { c with tor := { c.tor with root := true, hops := 0, parent := 0xF#4, lockState := 2, everLocked := true,
                                               holdoverLogged := false } }).tryAll

theorem State.rooted_lockKept (c : State) : State.LockKept (fun _ => True)
    { c with tor := { c.tor with root := true, hops := 0, parent := 0xF#4, lockState := 2, everLocked := true, holdoverLogged := false } }
    c.rooted :=
  (State.sendLock_lockKept _).trans (State.tryAll_lockKept (fun _ => trivial) _)

/-- ISL_ROOT is LOCKED to a module without a sheet and to one that has adopted a place. -/
theorem exec_islRoot_of_locked (hs : s.serving (.islRoot h) = some (j, c)) (hl : c.island.adopted = true ∨ c.island.sheet = none) :
    exec (.islRoot h) s = .next (c.answered j 0x09 []) := by
  have hl' : c.island.adopted = true ∨ c.island.sheet.isNone = true := by simpa using hl
  exact congrArg Host.Outcome.next ((State.serve_full hs _).trans (by simp only [if_pos hl']; exact State.finish_reply ..))

/-- ISL_ROOT makes a module with a sheet of its own place the root. -/
theorem exec_islRoot_of_sheet (hs : s.serving (.islRoot h) = some (j, c)) (ha : c.island.adopted = false) (hsh : c.island.sheet ≠ none) :
    exec (.islRoot h) s = .next (c.rooted.answered j 0x00 []) := by
  have hl : ¬ (c.island.adopted = true ∨ c.island.sheet.isNone = true) := by simpa [ha] using hsh
  exact congrArg Host.Outcome.next ((State.serve_full hs _).trans (by simp only [if_neg hl]; exact State.finish_reply ..))

/-- `c` in the place of a failed module, with the ports checked and tried (R296). -/
def State.adoptedAs (c : State) (island coord : Word) (failed : DWord) : State :=
  ((List.range 8).foldl (fun s p => s.logCheck p)
    (State.log { c with island := { c.island with island := island, coord := coord, role := 1, adopted := true, failedSerial := failed } }
      0xD 0 1 0 0x0482#16 [(32, coord.toNat), (64, failed.toNat)])).tryAll

theorem State.adoptedAs_island (c : State) (island coord : Word) (failed : DWord) : (c.adoptedAs island coord failed).island =
    { c.island with island := island, coord := coord, role := 1, adopted := true, failedSerial := failed } := by
  have hchecked (s : State) : State.LockKept (fun _ => True) s ((List.range 8).foldl (fun s p => s.logCheck p) s) :=
    State.LockKept.foldl _ _ (fun s p => s.logCheck_lockKept p) s
  rw [State.adoptedAs, (State.tryAll_lockKept (P := fun _ => True) (fun _ => trivial) _).island, (hchecked _).island, State.log_island]

/-- RPR_ADOPT is LOCKED to a module that is no warm understudy. -/
theorem exec_rprAdopt_of_not_warm {island coord : Word} {failed : DWord} (hs : s.serving (.rprAdopt h island coord failed) = some (j, c))
    (hw : c.isWarm = false) : exec (.rprAdopt h island coord failed) s = .next (c.answered j 0x09 []) :=
  congrArg Host.Outcome.next ((State.serve_full hs _).trans (by simp only [hw, if_true]; exact State.finish_reply ..))

/-- RPR_ADOPT puts a warm understudy in the failed module's place. -/
theorem exec_rprAdopt_of_warm {island coord : Word} {failed : DWord} (hs : s.serving (.rprAdopt h island coord failed) = some (j, c))
    (hw : c.isWarm = true) : exec (.rprAdopt h island coord failed) s = .next ((c.adoptedAs island coord failed).answered j 0x00 []) :=
  congrArg Host.Outcome.next ((State.serve_full hs _).trans (by simp only [hw, Bool.true_eq_false, if_false]; exact State.finish_reply ..))

end

/-! ### The census (R482 to R484) -/

/-- `t` has what the census vector of `s` rests on: only the sums of its ports' children may differ (R482, R483). -/
structure State.CensusKept (s t : State) : Prop where
  boot : t.boot = s.boot
  cip : t.cip = s.cip
  sheet : t.island.sheet = s.island.sheet
  role : t.island.role = s.island.role
  coord : t.island.coord = s.island.coord
  island : t.island.island = s.island.island
  port : ∀ p, ∃ sum, t.port p = { s.port p with childSum := sum }

section
variable {s t : State}

theorem State.CensusKept.children (h : s.CensusKept t) : t.children = s.children :=
  List.filter_congr fun p _ => by
    obtain ⟨sum, hp⟩ := h.port p
    rw [hp]

theorem State.CensusKept.facing (h : s.CensusKept t) (sh : Sheet) (p : Nat) : t.facing sh p = s.facing sh p := by
  simp only [State.facing, State.coordOn, h.coord]

theorem State.CensusKept.expectedSerial (h : s.CensusKept t) (sh : Sheet) (p : Nat) : t.expectedSerial sh p = s.expectedSerial sh p := by
  obtain ⟨sum, hp⟩ := h.port p
  rw [State.expectedSerial, h.facing, hp, State.expectedSerial]

theorem State.CensusKept.portCheck (h : s.CensusKept t) (p : Nat) : t.portCheck p = s.portCheck p := by
  obtain ⟨sum, hp⟩ := h.port p
  unfold State.portCheck
  rw [h.sheet, h.role, h.island, hp]
  cases s.island.sheet with
  | none => rfl
  | some sh =>
    dsimp only
    rw [h.expectedSerial, h.facing]

theorem State.CensusKept.disagrees (h : s.CensusKept t) (p : Nat) : t.disagrees p = s.disagrees p := by
  obtain ⟨sum, hp⟩ := h.port p
  simp only [State.disagrees, h.portCheck, hp]

theorem State.CensusKept.agrees (h : s.CensusKept t) (p : Nat) : t.agrees p = s.agrees p := by
  obtain ⟨sum, hp⟩ := h.port p
  simp only [State.agrees, State.repointMet, h.portCheck, h.disagrees, hp]

theorem State.CensusKept.disagreeing (h : s.CensusKept t) : t.disagreeing = s.disagreeing :=
  congrArg List.length (List.filter_congr fun p _ => h.disagrees p)

theorem State.CensusKept.censusReadyNow (h : s.CensusKept t) (rev : Word) : t.censusReadyNow rev = s.censusReadyNow rev := by
  have hport (p : Nat) : (t.port p).state = (s.port p).state ∧ (t.port p).measured = (s.port p).measured := by
    obtain ⟨sum, hp⟩ := h.port p
    rw [hp]
    exact ⟨rfl, rfl⟩
  simp only [State.censusReadyNow, h.sheet, h.boot, h.role, h.cip, h.agrees, hport]

/-- One frame on each of some ports. -/
theorem State.foldl_send (ps : List Nat) (f : Frame) (s : State) :
    ps.foldl (fun s p => s.send p f) s = { s with tor := { s.tor with tx := (ps.map (fun p => (p, f))).reverse ++ s.tor.tx } } := by
  induction ps generalizing s with
  | nil => rfl
  | cons p ps ih =>
    rw [List.foldl_cons, ih, List.map_cons, List.reverse_cons, List.append_assoc]
    rfl

/-- A completed round is kept, and passed on to every child. -/
theorem State.censusResult_spec (s : State) (rev : Word) (r d : Nat) :
    (s.censusResult rev r d).island = { s.island with
      censusRevision := rev, censusReady := BitVec.ofNat 16 (min r 65535), censusDisagree := BitVec.ofNat 8 (min d 255),
      ready := s.island.sheet.elim false (fun sh => decide (r = sh.active)), roundRevision := none, summing := false } ∧
    ∀ q, q ∈ s.children → (q, Frame.censusResult rev r d) ∈ (s.censusResult rev r d).tor.tx := by
  unfold State.censusResult
  dsimp only
  rw [State.foldl_send]
  exact ⟨rfl, fun q hq => List.mem_append_left _ (List.mem_reverse.mpr (List.mem_map_of_mem hq))⟩

/-- A module with a child whose sum is not there waits. -/
theorem State.censusTotal_of_missing {p : Nat} (hp : p ∈ s.children) (hsum : (s.port p).childSum = none) : s.censusTotal = s := by
  have hall : s.children.all (fun p => (s.port p).childSum.isSome) = false :=
    List.all_eq_false.mpr ⟨p, hp, by simp [hsum]⟩
  unfold State.censusTotal
  split
  · rfl
  · simp only [hall, Bool.and_false, Bool.false_eq_true, if_false]

/-- The module's members, ready members and disagreeing ports, with those of its children (R482, R483). -/
def State.censusSums (s : State) (rev : Word) : Nat × Nat × Nat :=
  s.children.foldl (fun (t : Nat × Nat × Nat) p =>
    let v := ((s.port p).childSum).getD (0, 0, 0)
    (t.1 + v.1, t.2.1 + v.2.1, t.2.2 + v.2.2)) (1, b2n (s.censusReadyNow rev), s.disagreeing)

section
variable {rev : Word} (hrev : s.island.roundRevision = some rev) (hsum : s.island.summing = true)
  (hall : ∀ p ∈ s.children, (s.port p).childSum.isSome = true)
include hrev hsum hall

/-- With every child's sum there, the root completes its round. -/
theorem State.censusTotal_of_root (hroot : s.tor.root = true) :
    s.censusTotal = s.censusResult rev (s.censusSums rev).2.1 (s.censusSums rev).2.2 := by
  have hall' : s.children.all (fun p => (s.port p).childSum.isSome) = true := List.all_eq_true.mpr hall
  simp only [State.censusTotal, hrev, hsum, hall', Bool.and_self, if_true, hroot, State.censusSums]

/-- With every child's sum there, another module sends its sums to its parent. -/
theorem State.censusTotal_of_child (hroot : s.tor.root = false) (hparent : s.tor.parent.toNat < 8) :
    s.censusTotal = ({ s with island := { s.island with summing := false } } : State).send s.tor.parent.toNat
      (.censusSum (s.censusSums rev).1 (s.censusSums rev).2.1 (s.censusSums rev).2.2) := by
  have hall' : s.children.all (fun p => (s.port p).childSum.isSome) = true := List.all_eq_true.mpr hall
  simp only [State.censusTotal, hrev, hsum, hall', Bool.and_self, if_true, hroot, Bool.false_eq_true, if_false, State.censusSums, hparent]

end

/-- `s` in a new round: no child's sum is there, and START has gone to every child (R482). -/
def State.censusAsked (s : State) (round : Nat) (rev : Word) : State :=
  let s := { s with island := { s.island with round := round, roundRevision := some rev, roundNs := some s.nowNs, summing := true } }
  let s := (List.range 8).foldl (fun s p => s.modPort p (fun x => { x with childSum := none })) s
  s.children.foldl (fun s p => s.send p (.censusStart round rev)) s

theorem State.censusBegin_eq (s : State) (round : Nat) (rev : Word) : s.censusBegin round rev = (s.censusAsked round rev).censusTotal := rfl

theorem State.censusAsked_spec (s : State) (round : Nat) (rev : Word) :
    let t := s.censusAsked round rev
    s.CensusKept t ∧
      t.island = { s.island with round := round, roundRevision := some rev, roundNs := some s.nowNs, summing := true } ∧
      t.tor.root = s.tor.root ∧ t.tor.parent = s.tor.parent ∧ (∀ p, p < 8 → (t.port p).childSum = none) ∧
      ∀ q, q ∈ s.children → (q, Frame.censusStart round rev) ∈ t.tor.tx := by
  obtain ⟨ps, hcleared, hports⟩ := State.foldl_modPort_range (fun x => { x with childSum := none }) 8
    { s with island := { s.island with round := round, roundRevision := some rev, roundNs := some s.nowNs, summing := true } }
  have hport (p : Nat) : ∃ sum, tget {} ps p = { s.port p with childSum := sum } := by
    rw [hports]
    split
    · exact ⟨none, rfl⟩
    · exact ⟨(s.port p).childSum, rfl⟩
  have hchildren := State.CensusKept.children (s := s) (t := { s with tor := { s.tor with ports := ps } }) ⟨rfl, rfl, rfl, rfl, rfl, rfl, hport⟩
  unfold State.censusAsked
  dsimp only
  rw [hcleared, State.foldl_send]
  refine ⟨⟨rfl, rfl, rfl, rfl, rfl, rfl, hport⟩, rfl, rfl, rfl, fun p hp => ?_, fun q hq => ?_⟩
  · exact (congrArg Port.childSum (hports p)).trans (by rw [if_pos hp])
  · exact List.mem_append_left _ (List.mem_reverse.mpr (List.mem_map_of_mem (hchildren ▸ hq)))

end

section
variable {s : State}

theorem State.lt_of_mem_children {p : Nat} (hp : p ∈ s.children) : p < 8 := List.mem_range.mp (List.mem_filter.mp hp).1

/-- A module below the root passes a new round to its children; without children it answers for itself at once. -/
theorem State.censusBegin_of_child (round : Nat) (rev : Word) (hroot : s.tor.root = false) (hparent : s.tor.parent.toNat < 8) :
    (s.censusBegin round rev).island.round = round ∧
      (∀ q, q ∈ s.children → (q, Frame.censusStart round rev) ∈ (s.censusBegin round rev).tor.tx) ∧
      (s.children = [] → (s.tor.parent.toNat, Frame.censusSum 1 (if s.censusReadyNow rev then 1 else 0) s.disagreeing) ∈
        (s.censusBegin round rev).tor.tx) := by
  obtain ⟨hkept, hisland, hroot', hparent', hcleared, hasked⟩ := s.censusAsked_spec round rev
  rw [State.censusBegin_eq]
  cases hc : s.children with
  | nil =>
    have hchildren := hkept.children.trans hc
    have hsums : (s.censusAsked round rev).censusSums rev = (1, if s.censusReadyNow rev then 1 else 0, s.disagreeing) := by
      rw [State.censusSums, hchildren, hkept.censusReadyNow, hkept.disagreeing]
      rfl
    rw [State.censusTotal_of_child (rev := rev) (by rw [hisland]) (by rw [hisland]) (by simp [hchildren]) (hroot'.trans hroot)
      (by rw [hparent']; exact hparent), hsums, hparent']
    exact ⟨by simp [hisland], by simp, fun _ => List.mem_cons_self ..⟩
  | cons p ps =>
    have hp : p ∈ (s.censusAsked round rev).children := by simp [hkept.children, hc]
    rw [State.censusTotal_of_missing hp (hcleared p (State.lt_of_mem_children hp))]
    exact ⟨by rw [hisland], fun q hq => hasked q (by rw [hc]; exact hq), nofun⟩

/-- `s` with the sums of the child on port `p` (R483). -/
def State.childSummed (s : State) (p : Nat) (sums : Nat × Nat × Nat) : State := s.modPort p (fun x => { x with childSum := some sums })

theorem State.childSummed_censusKept (s : State) (p : Nat) (sums : Nat × Nat × Nat) : s.CensusKept (s.childSummed p sums) := by
  refine ⟨rfl, rfl, rfl, rfl, rfl, rfl, fun q => ?_⟩
  rw [State.childSummed, State.modPort_port]
  split
  · next h => exact ⟨some sums, by rw [h]⟩
  · exact ⟨(s.port q).childSum, rfl⟩

section
variable {p : Nat} {rev : Word} (hc : s.children = [p])
include hc

/-- The sums of an only child are all that a module waits for. -/
theorem State.childSummed_all (sums : Nat × Nat × Nat) :
    ∀ q ∈ (s.childSummed p sums).children, ((s.childSummed p sums).port q).childSum.isSome = true := by
  rw [(s.childSummed_censusKept p sums).children, hc]
  intro q hq
  rw [List.mem_singleton.mp hq, State.childSummed, State.modPort_port_self]
  rfl

/-- A module adds the sums of an only child to its own. -/
theorem State.childSummed_censusSums (m r d : Nat) : (s.childSummed p (m, r, d)).censusSums rev =
    (1 + m, (if s.censusReadyNow rev then 1 else 0) + r, s.disagreeing + d) := by
  have hkept := s.childSummed_censusKept p (m, r, d)
  rw [State.censusSums, hkept.children, hc, hkept.censusReadyNow, hkept.disagreeing, List.foldl_cons, List.foldl_nil, State.childSummed,
    State.modPort_port_self]
  rfl

end

end

/-! ### The census commands (R482 to R484) -/

section
variable {s : State}

/-- The root begins its next round once it is due. -/
theorem exec_censusRoundStart_of_due {sh : Sheet} (hsh : s.island.sheet = some sh) (hroot : s.tor.root = true) (hdue : s.censusDue = true) :
    exec .censusRoundStart s = .next (s.censusBegin (s.island.round + 1) sh.revision) :=
  congrArg Host.Outcome.next (by simp only [hsh, hroot, hdue, Bool.and_self, if_true])

/-- Another module, one without a sheet, and a root whose next round is not due begin no round. -/
theorem exec_censusRoundStart_of_not_due (hnot : s.tor.root = false ∨ s.island.sheet = none ∨ s.censusDue = false) :
    exec .censusRoundStart s = .next s := by
  refine congrArg Host.Outcome.next ?_
  split
  · next sh hsh =>
    rcases hnot with hr | hn | hd
    · simp [hr]
    · rw [hn] at hsh; cases hsh
    · simp [hd]
  · rfl

/-- A round is due where none has begun, and its time after the last one that has. -/
theorem State.censusDue_iff (s : State) :
    s.censusDue = true ↔ ∀ t, s.island.roundNs = some t → t + (if s.island.ready then 1000000000 else 250000000) ≤ s.nowNs := by
  cases h : s.island.roundNs <;> simp [State.censusDue, h]

/-- A round ends after 3 ms for each of 65 hops, and not before. -/
theorem exec_censusRoundAbandon {t : Nat} (ht : s.island.roundNs = some t) :
    exec .censusRoundAbandon s = .next (if t + 3000000 * 65 ≤ s.nowNs then
      { s with island := { s.island with roundRevision := none, summing := false } } else s) :=
  congrArg Host.Outcome.next (by simp only [ht, Option.elim, decide_eq_true_eq])

theorem exec_censusStartReceive (port : BitVec 3) (round : Nat) (rev : Word) : exec (.censusStartReceive port round rev) s =
    .next (if s.tor.root = false ∧ s.tor.parent.toNat = port.toNat then s.censusBegin round rev else s) := rfl

theorem exec_censusResultReceive (port : BitVec 3) (rev : Word) (r d : Nat) : exec (.censusResultReceive port rev r d) s =
    .next (if s.tor.root = false ∧ s.tor.parent.toNat = port.toNat then s.censusResult rev r d else s) := rfl

theorem exec_censusSumReceive_of_child {port : BitVec 3} (hp : port.toNat ∈ s.children) (hs : s.island.summing = true) (m r d : Nat) :
    exec (.censusSumReceive port m r d) s = .next (s.childSummed port.toNat (m, r, d)).censusTotal :=
  congrArg Host.Outcome.next (if_pos ⟨List.contains_iff_mem.mpr hp, hs⟩)

theorem exec_censusSumReceive_of_other {port : BitVec 3} (hp : port.toNat ∉ s.children) (m r d : Nat) :
    exec (.censusSumReceive port m r d) s = .next s :=
  congrArg Host.Outcome.next (if_neg (fun h => hp (List.contains_iff_mem.mp h.1)))

end

/-- Settles O57: each command by how its body answers, the new sheet by `State.installSheet_spec`, and the census by what a module sends once it
has, or has not, the sums of its children. -/
theorem callSheetsAndCensusComplete : Obligations.CallSheetsAndCensusComplete := by
  refine ⟨fun s c j h => ⟨?sheet, ?override, ?root, ?adopt⟩, fun s sh => ?install, fun s => ?census⟩
  case sheet =>
    intro a n hs
    exact ⟨exec_islCallSheet_of_checked hs, fun hown =>
      ⟨_, exec_islCallSheet_of_not_owned hs hown, State.log_island .., State.log_tor .., State.log_dram ..⟩⟩
  case override =>
    intro port set hs p
    have hset (h : set = false ∨ c.portCheck p = 2) : ¬ (set = true ∧ c.portCheck p ≠ 2) := by
      rintro ⟨hs, hp⟩
      simp [hs, hp] at h
    exact ⟨exec_islOverride_of_agreeing hs, fun h => exec_islOverride_of_busy hs (hset h), fun h hbusy =>
      ⟨_, exec_islOverride_of_free hs (hset h) hbusy, c.overrideSet_spec p set⟩⟩
  case root =>
    intro hs
    have hkept := c.rooted_lockKept
    exact ⟨exec_islRoot_of_locked hs, fun ha hsh => ⟨_, exec_islRoot_of_sheet hs ha hsh, hkept.root, hkept.hops, hkept.parent, hkept.lockState,
      hkept.everLocked⟩⟩
  case adopt =>
    intro island coord failed hs
    exact ⟨exec_rprAdopt_of_not_warm hs, fun hw => ⟨_, exec_rprAdopt_of_warm hs hw, c.adoptedAs_island ..⟩⟩
  case install =>
    obtain ⟨hisland, hroot, hlock, hoverride⟩ := s.installSheet_spec sh
    dsimp only
    rw [hisland, hroot]
    refine ⟨rfl, rfl, hoverride, fun h => ⟨decide_eq_true h, hlock h⟩, fun h => decide_eq_false h, fun e he => ?_, fun hnone => ?_⟩
    · simp [State.sheetPlaced, Sheet.mine, he]
    · simp [State.sheetPlaced, Sheet.mine, hnone]
  case census =>
    intro due
    have hdue : s.censusDue = true ↔ due := s.censusDue_iff
    refine ⟨fun sh hsh hroot h => exec_censusRoundStart_of_due hsh hroot (hdue.mpr h), fun h => exec_censusRoundStart_of_not_due ?_,
      fun t ht => ?_, fun port rev m r d => ⟨fun hroot hparent => ?_, fun hother => ?_, fun hc hsum hrev => ?_, fun hp => ?_⟩⟩
    · simpa only [← hdue, Bool.not_eq_true] using h
    · rw [exec_censusRoundAbandon ht]
      exact ⟨fun h => by rw [if_pos h], fun h => by rw [if_neg (by omega)]⟩
    · have hfrom : s.tor.root = false ∧ s.tor.parent.toNat = port.toNat := ⟨hroot, hparent⟩
      rw [exec_censusStartReceive, exec_censusResultReceive, if_pos hfrom, if_pos hfrom]
      obtain ⟨hkeeps, hsent⟩ := s.censusResult_spec rev r d
      refine ⟨⟨_, rfl, State.censusBegin_of_child m rev hroot (hparent ▸ port.isLt)⟩, _, rfl, ?_, ?_, ?_, fun sh hsh => ?_, hsent⟩
      · rw [hkeeps]
      · rw [hkeeps]
      · rw [hkeeps]
      · simp [hkeeps, hsh]
    · have hfrom : ¬ (s.tor.root = false ∧ s.tor.parent.toNat = port.toNat) := by
        rintro ⟨hr, hp⟩
        simp [hr, hp] at hother
      rw [exec_censusStartReceive, exec_censusResultReceive, if_neg hfrom, if_neg hfrom]
      exact ⟨rfl, rfl⟩
    · have hall := State.childSummed_all hc (m, r, d)
      rw [exec_censusSumReceive_of_child (hc ▸ List.mem_singleton_self _) hsum]
      refine ⟨fun hroot hparent => ⟨_, rfl, ?_⟩, fun hroot => ⟨_, rfl, ?_⟩⟩
      · rw [State.censusTotal_of_child (s := s.childSummed port.toNat (m, r, d)) hrev hsum hall hroot hparent, State.childSummed_censusSums hc]
        exact ⟨rfl, List.mem_cons_self ..⟩
      · rw [State.censusTotal_of_root (s := s.childSummed port.toNat (m, r, d)) hrev hsum hall hroot, State.childSummed_censusSums hc, (State.censusResult_spec ..).1]
        exact ⟨rfl, rfl⟩
    · exact exec_censusSumReceive_of_other hp m r d

end Sys2Proof.Machine
end

section
/-!
SUPPORT. The FAR unit's own steps: the increments that it asks for (R309), what it has still to write (R17), and that a write of the far run
leaves the channel map of every company.
-/

namespace Sys2Proof.Machine

section
variable {s : State} {k : Nat}

/-- Two writes of the far run that give it the same value are the same. -/
theorem State.modFar_congr {f g : Far → Far} (h : f (s.co k).far = g (s.co k).far) : s.modFar k f = s.modFar k g :=
  congrArg (fun y => { s with cos := tset {} s.cos k { s.co k with far := y } }) h

theorem State.modFar_absChan (s : State) (j : Nat) (f : Far → Far) (k c : Nat) : (s.modFar j f).absChan k c = s.absChan k c := by
  have hkept {β : Type} (m : Co → β) (hm : ∀ (c : Co) y, m { c with far := y } = m c) (i : Nat) : m ((s.modFar j f).co i) = m (s.co i) := by
    rw [State.modFar_co]
    by_cases hi : i = j
    · rw [if_pos hi, hm, hi]
    · rw [if_neg hi]
  have hchans := hkept (fun c => c.chans) (fun _ _ => rfl)
  have hpresent := hkept (fun c => c.present) (fun _ _ => rfl)
  have howner : (s.modFar j f).owner (fun c => c.chans) c = s.owner (fun c => c.chans) c := by simp only [State.owner, hchans, hpresent]
  rw [State.absChan, State.absChan, State.absIndex, State.absIndex, howner, hchans]

/-- A master that has no bytes to write is not busy. -/
theorem State.wingsBusy_eq_false {m : WingsMaster} (h : ∀ w ∈ s.wingsOut, w.master ≠ m) : s.wingsBusy m = false := by
  simpa [State.wingsBusy] using h

theorem State.wingsPut_co (s : State) (m : WingsMaster) (a : Nat) (bs : List Byte) (j : Nat) : (s.wingsPut m a bs).co j = s.co j := rfl

/-- The increment that `State.farPost` asks for: counter `i` of the round table, by one. -/
def State.farInc (s : State) (k : Nat) (t : RoundTable) (i : Nat) : Inc :=
  { src := .engine k ((s.absChan k t.channel).getD 0), index := t.ctrs.getD i 0, gen := t.gens.getD i 0, amount := 1 }

theorem State.farPost_incWings (s : State) (k : Nat) (t : RoundTable) (i : Nat) :
    (s.farPost k t i).incWings = s.incWings ++ [s.farInc k t i] := rfl

theorem State.farPost_farInc (s : State) (k : Nat) (t : RoundTable) (i j : Nat) : (s.farPost k t i).farInc k t j = s.farInc k t j := rfl

theorem State.modFar_farInc (s : State) (k : Nat) (f : Far → Far) (t : RoundTable) (i : Nat) :
    (s.modFar k f).farInc k t i = s.farInc k t i := by
  rw [State.farInc, State.modFar_absChan]; rfl

end

end Sys2Proof.Machine
end

section
/-!
SUPPORT. The passes of a round (R316 to R319, R328, R329, R332): what each does in the phase in which it is due; O37 is put together from
them.
-/

namespace Sys2Proof.Machine

section
variable {s t : State} {k : Nat} {x : FarCtx} {d : Decision}

/-! ### The events of an existing company -/

theorem exec_formPass (hk : k < 16) : exec (.formPass k) s = .next (s.formPass k) := onCompany_lt hk s (·.formPass k)
theorem exec_formDone (hk : k < 16) : exec (.formDone k) s = .next (s.formDone k) := onCompany_lt hk s (·.formDone k)
theorem exec_sealComplete (hk : k < 16) : exec (.sealComplete k) s = .next (s.sealComplete k) := onCompany_lt hk s (·.sealComplete k)
theorem exec_openComplete (hk : k < 16) : exec (.openComplete k) s = .next (s.openRound k) := onCompany_lt hk s (·.openRound k)
theorem exec_applyPass (hk : k < 16) : exec (.applyPass k) s = .next (s.applyRound k) := onCompany_lt hk s (·.applyRound k)

/-! ### Form and seal (R316, R317, R319) -/

/-- In the step after the round curtain, with the update pass complete, every parcel is formed at FORM_START. -/
theorem State.formPass_of_due {u : UpdSection} (hx : s.roundCtx k = some x) (hu : (s.co k).seq.image.bind (fun i => i.update) = some u)
    (hdue : (s.co k).far.phase = .form ∧ (s.co k).far.formDone = false ∧ (s.co k).seq.step.toNat = (s.co k).far.s0 + 1 ∧
      (s.co k).seq.phase = .step ∧ s.passComplete k u = true)
    (ht : s.stageFrom k ((s.co k).seq.cycleAt x.t.formStart) = some t) :
    s.formPass k = (x.ps.foldl (fun v p => v.formParcel k x.r (s.co k).far.copy (v.co k).upd.committed p.1 p.2) t).modFar k
      (fun f => { f with formDone := true }) := by
  simp only [State.formPass, hx, hu, if_pos hdue, ht, Option.elim]

/-- Once every parcel is formed the FAR unit begins to seal. -/
theorem State.formDone_of_formed (h : (s.co k).far.inRound = true ∧ (s.co k).far.phase = .form ∧ (s.co k).far.formDone = true) :
    s.formDone k = s.modFar k (fun f => { f.fresh with phase := .sealing }) := if_pos h

/-- Once every parcel is sealed and written SEAL_CTR is posted, and LAND_CTR where the module is no gateway. -/
theorem State.sealComplete_of_sealed (hx : s.roundCtx k = some x)
    (hdue : (s.co k).far.phase = .sealing ∧ (s.co k).far.finished = x.ps.length ∧ s.wingsBusy (.far k) = false) :
    s.sealComplete k = (if (s.co k).far.gateway then s.farPost k x.t 0 else (s.farPost k x.t 0).farPost k x.t 1).modFar k
      (fun f => { f with phase := .send }) := by
  simp only [State.sealComplete, hx, if_pos hdue]

/-! ### Opening and the vote (R328) -/

/-- The vote vector of an owner whose slots are all opened: its failures in entry 17, and 1 in entry 19. -/
def Far.openVotes (f : Far) : Table Nat := tset 0 (tset 0 f.votes 17 f.tagFails) 19 1

theorem Far.openVotes_failures (f : Far) : tget 0 f.openVotes 17 = f.tagFails := by
  rw [Far.openVotes, tget_tset_ne _ _ _ (by decide), tget_tset_self]

theorem Far.openVotes_member (f : Far) : tget 0 f.openVotes 19 = 1 := tget_tset_self ..

theorem Far.openVotes_ne (f : Far) {i : Nat} (h17 : i ≠ 17) (h19 : i ≠ 19) : tget 0 f.openVotes i = tget 0 f.votes i := by
  rw [Far.openVotes, tget_tset_ne _ _ _ h19, tget_tset_ne _ _ _ h17]

/-- Once every marked slot has been opened or has failed, the owner takes the record and its vote vector goes out. -/
theorem State.openRound_of_opened (hx : s.roundCtx k = some x) (hd : (s.co k).far.ownerRecord = some d)
    (hdue : (s.co k).far.phase = .opening ∧ (s.co k).far.put = false ∧ tget 0 (s.co k).far.votes 19 = 0 ∧
      (s.co k).far.finished = (openList x d).length) :
    s.openRound k = (s.modFar k (fun f => { f with decision := some d, votes := (s.co k).far.openVotes, put := true })).wingsPut
      (.far k) x.t.voteSrc (voteBytes (s.co k).far.openVotes) := by
  simp only [State.openRound, hx, hd, if_pos hdue, Far.openVotes]

/-- An owner whose vote vector is written posts OPEN_CTR. -/
theorem State.farSettle_of_opening (hphase : (s.co k).far.phase = .opening) (hput : (s.co k).far.put = true)
    (hbusy : s.wingsBusy (.far k) = false) : s.farSettle k x = (s.modFar k (fun f => { f with put := false })).farPost k x.t 2 := by
  simp [State.farSettle, hphase, hput, hbusy]

end

/-- Settles O37: each pass by the lemma for the phase in which it is due; the apply pass is the body of `State.applyRound` once its guard and
the stage cycle are met. -/
theorem farRoundPassesComplete : Obligations.FarRoundPassesComplete := by
  intro s k x hk hx
  refine ⟨?form, ?formed, ?sealed, ?opened, ?voted, ?apply⟩
  case form =>
    intro u t hu hphase hdone hstep hstage hpass ht
    rw [exec_formPass hk, State.formPass_of_due hx hu ⟨hphase, hdone, hstep, hstage, hpass⟩ ht]
  case formed =>
    intro hround hphase hdone
    refine ⟨_, exec_formDone hk, ?_⟩
    rw [State.formDone_of_formed ⟨hround, hphase, hdone⟩, State.modFar_co_self]
    exact ⟨rfl, rfl, rfl, rfl⟩
  case sealed =>
    intro hphase hall hout
    refine ⟨_, exec_sealComplete hk, ?_⟩
    rw [State.sealComplete_of_sealed hx ⟨hphase, hall, State.wingsBusy_eq_false hout⟩, State.modFar_co_self]
    refine ⟨rfl, ?_⟩
    rw [State.modFar_incWings]
    split
    · exact State.farPost_incWings ..
    · rw [State.farPost_incWings, State.farPost_incWings, State.farPost_farInc, List.append_assoc]
      rfl
  case opened =>
    intro d hd hphase hput hvote hall
    refine ⟨_, exec_openComplete hk, ?_⟩
    rw [State.openRound_of_opened hx hd ⟨hphase, hput, hvote, hall⟩, State.wingsPut_co, State.modFar_co_self]
    exact ⟨rfl, rfl, Far.openVotes_failures _, Far.openVotes_member _, fun i => Far.openVotes_ne _, rfl⟩
  case voted =>
    intro hphase hput hout
    rw [State.farSettle_of_opening hphase hput (State.wingsBusy_eq_false hout), State.farPost_incWings, State.modFar_farInc]
    rfl
  case apply =>
    intro d t hd hphase happlied hstep hstage ht
    have hdue : (s.co k).far.phase = .apply ∧ (s.co k).far.applied = false ∧ (s.co k).seq.step.toNat = (s.co k).far.s0 + x.t.land + 1 ∧
        (s.co k).seq.phase = .step := ⟨hphase, happlied, hstep, hstage⟩
    have hcycle : s.stageFrom k ((s.co k).seq.cycleAt x.t.applyStart) = some t := ht
    rw [exec_applyPass hk]
    simp only [State.applyRound, hx, hd, if_pos hdue, hcycle, Option.elim]

end Sys2Proof.Machine
end

section
/-!
SUPPORT. The decision (R324 to R327, R333): what the leader decides at each moment, what it leaves behind beside the record's message, and
how a gateway, decided or not, comes to be done with its slots; O39 is put together from them.
-/

namespace Sys2Proof.Machine

section
variable {s : State} {k : Nat} {x : FarCtx} {d : Decision}

/-! ### The events of an existing company -/

theorem exec_farDecision (hk : k < 16) : exec (.farDecision k) s = .next ((s.farGo k).farDecide k) :=
  onCompany_lt hk s (fun s => (s.farGo k).farDecide k)

theorem exec_gatewayDecided (hk : k < 16) : exec (.gatewayDecided k) s = .next ((s.farGo k).gatewayDecide k) :=
  onCompany_lt hk s (fun s => (s.farGo k).gatewayDecide k)

theorem exec_gatewayUndecided (hk : k < 16) : exec (.gatewayUndecided k) s = .next ((s.farGo k).gatewayUndecide k) :=
  onCompany_lt hk s (fun s => (s.farGo k).gatewayUndecide k)

/-! ### The leader's moments (R325) -/

section
variable {f : Far} {ms : Nat}

/-- The leader has a site's contribution to the round: its own, or one that has arrived whole. -/
def Far.hasSite (f : Far) (x : FarCtx) (site : Nat) : Bool := decide (site = x.t.site) || (f.complete x.r site).isSome

/-- How many sites' contributions the leader has. -/
def Far.siteCount (f : Far) (x : FarCtx) : Nat := ((List.range x.t.sites).filter (f.hasSite x)).length

/-- With every site's contribution all are accepted. -/
theorem decideRound_of_all (hall : f.siteCount x = x.t.sites) (hms : ms ≤ x.t.hardMs) :
    ∃ d, decideRound f x ms = some d ∧ d.round = x.r ∧ d.verdict = 0x00 ∧ d.current = siteWord x.t.sites (fun _ => 1) :=
  ⟨_, if_pos ⟨hms, hall⟩, rfl, rfl, rfl⟩

/-- From DEADLINE_MS to HARD_MS a quorum is accepted. -/
theorem decideRound_of_quorum (hsome : f.siteCount x ≠ x.t.sites) (hdead : x.t.deadlineMs ≤ ms) (hms : ms ≤ x.t.hardMs)
    (hquorum : x.t.quorum ≤ f.siteCount x) :
    ∃ d, decideRound f x ms = some d ∧ d.verdict = 0x00 ∧
      d.current = siteWord x.t.sites (fun i => if f.hasSite x i then 1 else if x.t.carry then 2 else 0) :=
  ⟨_, (if_neg (fun h => hsome h.2)).trans (if_pos ⟨hdead, hms, hquorum⟩), rfl, rfl⟩

/-- From HARD_MS on the round is void where it is not accepted. -/
theorem decideRound_of_void (hms : x.t.hardMs ≤ ms) (hall : ¬ (ms ≤ x.t.hardMs ∧ f.siteCount x = x.t.sites))
    (hquorum : ¬ (x.t.deadlineMs ≤ ms ∧ ms ≤ x.t.hardMs ∧ x.t.quorum ≤ f.siteCount x)) :
    ∃ d, decideRound f x ms = some d ∧ d.verdict = 0x01 ∧ d.current = siteWord x.t.sites (fun _ => 0) :=
  ⟨_, (if_neg hall).trans ((if_neg hquorum).trans (if_pos hms)), rfl, rfl⟩

/-- Before these moments there is no decision. -/
theorem decideRound_of_early (hms : ms < x.t.hardMs) (hall : f.siteCount x ≠ x.t.sites)
    (hquorum : ms < x.t.deadlineMs ∨ f.siteCount x < x.t.quorum) : decideRound f x ms = none :=
  (if_neg (fun h => hall h.2)).trans ((if_neg (by rintro ⟨hdead, -, hq⟩; exact hquorum.elim (Nat.not_lt.mpr hdead) (Nat.not_lt.mpr hq))).trans
    (if_neg (Nat.not_le.mpr hms)))

end

/-! ### The leader's record (R324, R325) -/

/-- The log entry of a round decided from the far run `f`: void, or late for some site; none where every site is accepted. -/
def State.logDecision (s : State) (k : Nat) (x : FarCtx) (f : Far) (d : Decision) : State :=
  let late := packBits ((List.range 16).map (fun i => (1, b2n (decide (i < x.t.sites) && decide (siteBits d.current i ≠ 1)))))
  if d.verdict = 1 then
    s.log 5 0 1 k 0x0703#16 [(40, x.r), (16, x.t.gatewayIndex), (16, packBits ((List.range x.t.sites).map (fun i => (1, b2n (f.hasSite x i)))))]
  else if late ≠ 0 then s.log 5 0 1 k 0x0702#16 [(40, x.r), (16, x.t.gatewayIndex), (16, late)]
  else s

/-- The decision of a round logs one record, or none. -/
theorem State.logDecision_cases (s : State) (k : Nat) (x : FarCtx) (f : Far) (d : Decision) :
    s.logDecision k x f d = s ∨ ∃ code detail, s.logDecision k x f d = s.log 5 0 1 k code detail := by
  rw [State.logDecision]
  split
  · exact .inr ⟨_, _, rfl⟩
  · split
    · exact .inr ⟨_, _, rfl⟩
    · exact .inl rfl

theorem State.logDecision_co (s : State) (f : Far) (j : Nat) : (s.logDecision k x f d).co j = s.co j := by
  obtain h | ⟨_, _, h⟩ := s.logDecision_cases k x f d
  · rw [h]
  · rw [h, State.log_co]

theorem State.logDecision_dram (s : State) (f : Far) : (s.logDecision k x f d).dram = s.dram := by
  obtain h | ⟨_, _, h⟩ := s.logDecision_cases k x f d
  · rw [h]
  · rw [h, State.log_dram]

theorem State.logDecision_incWings (s : State) (f : Far) : (s.logDecision k x f d).incWings = s.incWings := by
  obtain h | ⟨_, _, h⟩ := s.logDecision_cases k x f d
  · rw [h]
  · rw [h, State.log_incWings]

/-- The leader has taken its decision, asked for its seal and logged it. -/
def State.decided (s : State) (k : Nat) (x : FarCtx) (d : Decision) : State :=
  (s.modFar k (fun f => { f with decision := some d, recordAsked := true })).logDecision k x (s.co k).far d

theorem State.decided_far (s : State) : ((s.decided k x d).co k).far = { (s.co k).far with decision := some d, recordAsked := true } := by
  rw [State.decided, State.logDecision_co, State.modFar_co_self]

theorem State.decided_dram (s : State) : (s.decided k x d).dram = s.dram := by
  rw [State.decided, State.logDecision_dram, State.modFar_dram]

theorem State.decided_incWings (s : State) : (s.decided k x d).incWings = s.incWings := by
  rw [State.decided, State.logDecision_incWings, State.modFar_incWings]

/-- A leader that can decide keeps and logs its decision, and asks for the seal of the record. -/
theorem State.farDecide_of_due {ms : Nat} (hx : s.roundCtx k = some x)
    (hdue : (s.co k).far.gateway = true ∧ x.t.site = x.t.leader ∧ (s.co k).far.phase = .exchange ∧ (s.co k).far.decision.isNone = true ∧
      (s.co k).far.replay = false)
    (ht : s.sinceT0 k = some ms) (hd : decideRound (s.co k).far x ms = some d) :
    s.farDecide k = (s.decided k x d).farAsk k x.t
      (farMessage (.far k .record 0) x.t x.r x.t.site 0xFFFF x.t.gatewayIndex true d.bytes none) := by
  simp only [State.farDecide, hx, if_pos hdue, ht, Option.bind_some, hd]
  rfl

/-! ### A gateway's slots (R326, R327) -/

/-- A gateway that holds the record and what it marks has its slots written. -/
theorem State.gatewayDecide_of_held {got : List ((Nat × Nat) × List Byte)} (hx : s.roundCtx k = some x) (hd : (s.co k).far.decision = some d)
    (hdue : (s.co k).far.gateway = true ∧ (s.co k).far.phase = .exchange ∧ (s.co k).far.put = false) (hgot : s.held k x d = some got) :
    s.gatewayDecide k = (s.writeSlots k x d got).farSettle k x := by
  simp only [State.gatewayDecide, hx, hd, if_pos hdue, hgot]

/-- A gateway that after HARD_MS lacks the record, or a contribution that it marks, writes that it is undecided. -/
theorem State.gatewayUndecide_of_due {ms : Nat} (hx : s.roundCtx k = some x)
    (hdue : (s.co k).far.gateway = true ∧ (s.co k).far.phase = .exchange ∧ (s.co k).far.put = false)
    (hlacks : (s.co k).far.decision = none ∨ ∃ d, (s.co k).far.decision = some d ∧ s.held k x d = none)
    (ht : s.sinceT0 k = some ms) (hms : x.t.hardMs ≤ ms) :
    s.gatewayUndecide k = (s.writeSlots k x { round := x.r, verdict := 0xFF, gateway := x.t.gatewayIndex } []).farSettle k x := by
  obtain ⟨hgate, hphase, hput⟩ := hdue
  have hopen : (s.co k).far.decision.elim false (fun d => (s.held k x d).isSome) = false := by
    obtain hd | ⟨d, hd, hheld⟩ := hlacks
    · rw [hd]; rfl
    · rw [hd, Option.elim_some, hheld]; rfl
  simp [State.gatewayUndecide, hx, hgate, hphase, hput, hopen, ht, hms]

/-- A gateway's far run once its slots are written: its votes are added, and its ledger record is kept unless it replays. -/
def Far.slotsWritten (f : Far) (x : FarCtx) (d : Decision) (got : List ((Nat × Nat) × List Byte)) : Far :=
  { f with put := false, phase := .landing, votes := gatewayVotes d x.t.sites f.votes, replayBuf := [],
           ledgerBuf := f.ledgerBuf ++ (if f.replay then [] else ledgerRecord x d got) }

/-- A gateway whose slots are written is done with them. -/
theorem State.farSettle_of_exchange (hphase : (s.co k).far.phase = .exchange) (hput : (s.co k).far.put = true)
    (hd : (s.co k).far.decision = some d) (hbusy : s.wingsBusy (.far k) = false) :
    s.farSettle k x = ((s.modFar k (fun f => f.slotsWritten x d (if d.verdict = 0xFF then [] else (s.held k x d).getD []))).ledgerFlush k).farPost
      k x.t 1 := by
  have hdone : s.farSettle k x = s.gatewayDone k x d := by simp [State.farSettle, hphase, hput, hd, hbusy]
  rw [hdone, State.gatewayDone]
  rw [State.modFar_congr (g := fun f => f.slotsWritten x d (if d.verdict = 0xFF then [] else (s.held k x d).getD [])) rfl]

end

/-- Settles O39: the leader's moments by the branches of `decideRound`, the three commands by their lemmas on the state in which the FAR unit
has gone on, and the end of the exchange by that of `State.farSettle`. -/
theorem farDecisionsComplete : Obligations.FarDecisionsComplete := by
  refine ⟨fun f x ms => ?moments, fun s k x hk hx => ?commands, fun s k x d hk hput hphase hd hout => ?written⟩
  case moments =>
    refine ⟨decideRound_of_all, decideRound_of_quorum, fun hms hlate => ?_, fun hall hquorum hms => decideRound_of_early hms hall hquorum⟩
    refine decideRound_of_void hms (fun ⟨hle, hall⟩ => ?_) (fun ⟨hdead, hle, hquorum⟩ => ?_)
    · exact hlate.elim (Nat.not_lt.mpr hle) (fun h => h.1 hall)
    · exact hlate.elim (Nat.not_lt.mpr hle) (fun h => h.2.elim (Nat.not_lt.mpr hquorum) (Nat.not_lt.mpr hdead))
  case commands =>
    dsimp only
    simp only [exec_farDecision hk, exec_gatewayDecided hk, exec_gatewayUndecided hk]
    generalize s.farGo k = u at hx ⊢
    intro hgate hphase
    refine ⟨fun ms d hleads hopen hreplay ht hd => ?decide, fun d hd hput got hgot => ?decided, fun ms hlacks hput ht hms => ?undecided⟩
    case decide =>
      have hnone : (u.co k).far.decision.isNone = true := by rw [hopen]; rfl
      refine ⟨u.decided k x d, ?_, ?_, u.decided_dram, u.decided_incWings, ?_⟩
      · rw [u.decided_far]
      · rw [u.decided_far]
      · rw [State.farDecide_of_due hx ⟨hgate, hleads, hphase, hnone, hreplay⟩ ht hd]
    case decided => rw [State.gatewayDecide_of_held hx hd ⟨hgate, hphase, hput⟩ hgot]
    case undecided => rw [State.gatewayUndecide_of_due hx ⟨hgate, hphase, hput⟩ hlacks ht hms]
  case written =>
    refine ⟨_, State.farSettle_of_exchange hphase hput hd (State.wingsBusy_eq_false hout), ?_⟩
    rw [State.modFar_co_self]
    refine ⟨rfl, rfl, rfl, rfl, fun hreplay hverdict => ?_⟩
    simp [Far.slotsWritten, hreplay, hverdict]

end Sys2Proof.Machine
end

section
/-!
SUPPORT. CFX (R311, R320 to R324, R337, R351): what a datagram does on a port that is down, as bytes that are no datagram, as one of another
run, and as one of the run; which segments are kept (R323); what is sent again and to whom; O40 is put together from them.
-/

namespace Sys2Proof.Machine

section
variable {s : State} {k : Nat} {port : Bool} {bs : List Byte} {h : CfxHead} {t : RoundTable}

/-! ### The events of an existing company -/

theorem exec_cfxParcelReceive (hk : k < 16) (port : Bool) (bs : List Byte) : exec (.cfxParcelReceive port k bs) s =
    .next ((s.cfxIn port k 1 bs (fun h t => s.keepSegment k h t false)).farGo k) :=
  onCompany_lt hk s (fun s => (s.cfxIn port k 1 bs (fun h t => s.keepSegment k h t false)).farGo k)

/-- What a DECIDE segment of the run does: one of the leader is kept. -/
def State.keepDecide (s : State) (k : Nat) (h : CfxHead) (t : RoundTable) : State :=
  if h.site = t.leader then s.keepSegment k h t true else s

theorem exec_cfxDecideReceive (hk : k < 16) (port : Bool) (bs : List Byte) : exec (.cfxDecideReceive port k bs) s =
    .next ((s.cfxIn port k 3 bs (s.keepDecide k)).farGo k) :=
  onCompany_lt hk s (fun s => (s.cfxIn port k 3 bs (s.keepDecide k)).farGo k)

/-- What an ACK datagram does: one of run 0 is a snapshot's, every other one a round's. -/
def State.ackIn (s : State) (port : Bool) (k : Nat) (bs : List Byte) : State :=
  match cfxRead bs with
  | some h =>
    if h.typ = 2 ∧ h.run = 0 then (if s.farUp (b2n port) then s.snapAck (b2n port) h else s)
    else s.cfxIn port k 2 bs (fun h _ => s.roundAck k h)
  | none => s.cfxIn port k 2 bs (fun _ _ => s)

theorem exec_cfxAckReceive (hk : k < 16) (port : Bool) (bs : List Byte) : exec (.cfxAckReceive port k bs) s = .next (s.ackIn port k bs) :=
  onCompany_lt hk s (fun s => s.ackIn port k bs)

/-- What a SNAP datagram does: one of run 0 nothing, every other one counts as bad. -/
def State.snapIn (s : State) (port : Bool) (k : Nat) (bs : List Byte) : State :=
  if s.farUp (b2n port) = false then s
  else match cfxRead bs with
    | some h => if h.run = 0 then s else s.badFrame k
    | none => s.badFrame k

theorem exec_cfxSnapReceive (hk : k < 16) (port : Bool) (bs : List Byte) : exec (.cfxSnapReceive port k bs) s = .next (s.snapIn port k bs) :=
  onCompany_lt hk s (fun s => s.snapIn port k bs)

theorem exec_cfxAckTimer (hk : k < 16) : exec (.cfxAckTimer k) s = .next (s.ackTimer k) := onCompany_lt hk s (·.ackTimer k)

theorem exec_cfxRetransmit (hk : k < 16) (site seg : Nat) : exec (.cfxRetransmit k site seg) s = .next (s.retransmit k site seg) :=
  onCompany_lt hk s (·.retransmit k site seg)

theorem exec_cfxHardExpiry (hk : k < 16) : exec (.cfxHardExpiry k) s = .next (s.hardExpiry k) := onCompany_lt hk s (·.hardExpiry k)

/-! ### A datagram of any kind (R321, R351) -/

section
variable {typ : Nat} {f : CfxHead → RoundTable → State}

theorem State.cfxIn_of_down (hdown : s.farUp (b2n port) = false) : s.cfxIn port k typ bs f = s := if_pos hdown

theorem State.cfxIn_of_unread (hup : s.farUp (b2n port) = true) (hread : cfxRead bs = none) : s.cfxIn port k typ bs f = s.badFrame k := by
  simp [State.cfxIn, hup, hread]

theorem State.cfxIn_of_other_run (hup : s.farUp (b2n port) = true) (hread : cfxRead bs = some h) (ht : (s.co k).far.table = some t)
    (hother : h.run ≠ t.run.toNat ∨ t.sites ≤ h.site) : s.cfxIn port k typ bs f = s.badFrame k := by
  simp [State.cfxIn, hup, hread, ht, if_pos hother]

theorem State.cfxIn_of_run (hup : s.farUp (b2n port) = true) (hread : cfxRead bs = some h) (ht : (s.co k).far.table = some t)
    (hrun : h.run = t.run.toNat) (hsite : h.site < t.sites) (hgate : h.gateway = t.gatewayIndex) (htyp : h.typ = typ) :
    s.cfxIn port k typ bs f = f h t := by
  simp [State.cfxIn, hup, hread, ht, hrun, Nat.not_le.mpr hsite, hgate, htyp]

end

/-! ### Acknowledgements and snapshots (R322, R323) -/

theorem State.ackIn_of_down (hdown : s.farUp (b2n port) = false) : s.ackIn port k bs = s := by
  rw [State.ackIn]
  split
  · simp [hdown, State.cfxIn_of_down hdown]
  · exact State.cfxIn_of_down hdown

theorem State.ackIn_of_unread (hup : s.farUp (b2n port) = true) (hread : cfxRead bs = none) : s.ackIn port k bs = s.badFrame k := by
  simp only [State.ackIn, hread, State.cfxIn_of_unread hup hread]

theorem State.ackIn_of_run (hup : s.farUp (b2n port) = true) (hread : cfxRead bs = some h) (ht : (s.co k).far.table = some t)
    (hrun : h.run = t.run.toNat) (hsite : h.site < t.sites) (hgate : h.gateway = t.gatewayIndex) (htyp : h.typ = 2) (hfar : h.run ≠ 0) :
    s.ackIn port k bs = s.roundAck k h := by
  have hround : ¬ (h.typ = 2 ∧ h.run = 0) := fun hsnap => hfar hsnap.2
  simp only [State.ackIn, hread, if_neg hround, State.cfxIn_of_run hup hread ht hrun hsite hgate htyp]

theorem State.snapIn_of_down (hdown : s.farUp (b2n port) = false) : s.snapIn port k bs = s := if_pos hdown

theorem State.snapIn_of_unread (hup : s.farUp (b2n port) = true) (hread : cfxRead bs = none) : s.snapIn port k bs = s.badFrame k := by
  simp [State.snapIn, hup, hread]

theorem State.snapIn_of_read (hup : s.farUp (b2n port) = true) (hread : cfxRead bs = some h) :
    s.snapIn port k bs = if h.run = 0 then s else s.badFrame k := by
  simp [State.snapIn, hup, hread]

/-! ### Segments (R323) -/

/-- The stream that a segment belongs to. -/
def CfxHead.inStream (h : CfxHead) (decide_ : Bool) (y : InStream) : Bool :=
  decide (y.round = h.round) && decide (y.site = h.site) && decide (y.decide = decide_)

theorem State.keepSegment_of_later (hlate : (s.co k).far.round.toNat + 2 < h.round) (decide_ : Bool) :
    s.keepSegment k h t decide_ = s.badFrame k := if_pos hlate

section
variable (hwin : h.round ≤ (s.co k).far.round.toNat + 2) (hnew : (s.co k).far.round.toNat ≤ h.round + 1) (hseg : h.seg < h.segs)
  (hsite : h.site ≠ t.site)
include hwin hnew hseg hsite

/-- The first segment of a stream begins it, and ends one of a single segment; streams of rounds before the last one go. -/
theorem State.keepSegment_of_first {decide_ : Bool} (hnone : (s.co k).far.inStreams.find? (h.inStream decide_) = none) :
    let y : InStream := ⟨h.round, h.site, decide_, h.segs, [(h.seg, h.payload)], [h.seg]⟩
    let kept := (s.co k).far.inStreams.filter (fun y => !h.inStream decide_ y && decide ((s.co k).far.round.toNat ≤ y.round + 1))
    let u := s.modFar k (fun f => { f with inStreams := kept ++ [y] })
    s.keepSegment k h t decide_ = if h.segs = 1 then u.sendAck k t y else u := by
  have hin : ¬ (h.round + 1 < (s.co k).far.round.toNat ∨ h.segs ≤ h.seg ∨ h.site = t.site) := by omega
  have hfind : (s.co k).far.inStreams.find? (fun y => decide (y.round = h.round) && decide (y.site = h.site) && decide (y.decide = decide_)) =
    none := hnone
  intro y kept u
  have hu : s.modFar k (fun f => { f with inStreams := f.inStreams.filter (fun y => !h.inStream decide_ y &&
    decide ((s.co k).far.round.toNat ≤ y.round + 1)) ++ [y] }) = u := State.modFar_congr rfl
  rw [State.keepSegment, if_neg (Nat.not_lt.mpr hwin), if_neg hin]
  simp only [hfind, Option.getD_none, ne_eq, not_true_eq_false, if_false, List.contains_nil, Bool.false_eq_true]
  exact ite_congr (propext (eq_comm (a := 1))) (fun _ => congrArg (State.sendAck · k t y) hu) (fun _ => hu)

/-- A segment that is there already changes nothing while its stream is incomplete. -/
theorem State.keepSegment_of_seen {decide_ : Bool} {y : InStream} (hy : (s.co k).far.inStreams.find? (h.inStream decide_) = some y)
    (hsegs : y.segs = h.segs) (hseen : h.seg ∈ y.seen) (hopen : y.seen.length ≠ y.segs) : s.keepSegment k h t decide_ = s := by
  have hin : ¬ (h.round + 1 < (s.co k).far.round.toNat ∨ h.segs ≤ h.seg ∨ h.site = t.site) := by omega
  have hfind : (s.co k).far.inStreams.find? (fun y => decide (y.round = h.round) && decide (y.site = h.site) && decide (y.decide = decide_)) =
    some y := hy
  have hdouble : y.seen.contains h.seg = true := List.contains_iff_mem.mpr hseen
  rw [State.keepSegment, if_neg (Nat.not_lt.mpr hwin), if_neg hin]
  simp only [hfind, Option.getD_some, hsegs, ne_eq, not_true_eq_false, if_false, hdouble, if_true, if_neg (hsegs ▸ hopen)]

end

/-! ### Timers and sending (R320, R323, R351) -/

theorem State.ackTimer_of_due (ht : (s.co k).far.table = some t) (hdue : (s.co k).far.ackNs + (s.co k).far.retxNs / 2 ≤ s.nowNs) :
    s.ackTimer k = ((s.co k).far.inStreams.filter (fun y => decide (y.seen.length < y.segs))).foldl (fun s y => s.sendAck k t y)
      (s.modFar k (fun f => { f with ackNs := s.nowNs })) := by
  simp only [State.ackTimer, ht, if_pos hdue]

theorem State.ackTimer_of_early (ht : (s.co k).far.table = some t) (hearly : s.nowNs < (s.co k).far.ackNs + (s.co k).far.retxNs / 2) :
    s.ackTimer k = s := by
  simp only [State.ackTimer, ht, if_neg (Nat.not_le.mpr hearly)]

/-- The segment of every stream to the site that lacks its acknowledgement goes out again, and its time of sending is noted. -/
theorem State.retransmit_of_site {site : Nat} (ht : (s.co k).far.table = some t) (hsite : site < 16) (seg : Nat) :
    s.retransmit k site seg = (((s.co k).far.outStreams.filter (s.resends k site seg)).foldl (fun v o =>
      (v.modFar k (fun f => { f with retx := f.retx + 1 })).cfxSend k t site (outDatagram t o seg)) s).modFar k (fun f => { f with
        outStreams := f.outStreams.map (fun o => if s.resends k site seg o then { o with sentNs := tset 0 o.sentNs seg (s.nowNs + 1) } else o) }) := by
  simp only [State.retransmit, if_neg (Nat.not_le.mpr hsite), ht]

theorem State.roundExpired_iff (ht : (s.co k).far.table = some t) (round : Nat) : s.roundExpired k round = true ↔
    ∃ o ∈ (s.co k).far.outStreams, o.round = round ∧ o.firstNs + t.hardMs * 1000000 ≤ s.nowNs := by
  simp [State.roundExpired, ht]

theorem State.cfxSend_of_no_share {site : Nat} {p : Peer} (hp : t.peers[site * t.gateways + t.gatewayIndex]? = some p)
    (hshare : s.hasShare k (b2n p.port) = false) (d : List Byte) : s.cfxSend k t site d = s := by
  simp [State.cfxSend, hp, hshare]

theorem State.cfxSend_of_share {site : Nat} {p : Peer} (hp : t.peers[site * t.gateways + t.gatewayIndex]? = some p)
    (hup : s.farUp (b2n p.port) = true) (hshare : s.hasShare k (b2n p.port) = true) (d : List Byte) :
    s.cfxSend k t site d = s.farSend (b2n p.port) p.address (if p.udp = 0 then 47344 else p.udp.toNat) d := by
  simp [State.cfxSend, hp, hup, hshare]

end

/-- Settles O40: a datagram by the lemma for its port, its bytes and its run, a segment by that for its stream, and each timer by that for the
moment. -/
theorem cfxFramesComplete : Obligations.CfxFramesComplete := by
  intro s port k bs hk
  simp only [exec_cfxParcelReceive hk, exec_cfxDecideReceive hk, exec_cfxAckReceive hk, exec_cfxSnapReceive hk, exec_cfxAckTimer hk,
    exec_cfxRetransmit hk, exec_cfxHardExpiry hk]
  refine ⟨fun hdown => ?down, fun hup hread => ?unread, fun hup h hread => ⟨fun hrun => ?snapshot, fun hrun => ?other, fun t ht => ?run⟩,
    fun t ht => ?timers, rfl, fun round t ht => State.roundExpired_iff ht round, fun t site d p hp => ?send⟩
  case down =>
    rw [State.cfxIn_of_down hdown, State.cfxIn_of_down hdown, State.ackIn_of_down hdown, State.snapIn_of_down hdown]
    exact ⟨rfl, rfl, rfl, rfl⟩
  case unread =>
    rw [State.cfxIn_of_unread hup hread, State.cfxIn_of_unread hup hread, State.ackIn_of_unread hup hread, State.snapIn_of_unread hup hread]
    exact ⟨rfl, rfl, rfl, rfl⟩
  case snapshot => rw [State.snapIn_of_read hup hread, if_pos hrun]
  case other => rw [State.snapIn_of_read hup hread, if_neg hrun]
  case run =>
    refine ⟨fun hother => ?_, fun hrun hsite hgate => ⟨fun htyp hlate => ?later, fun htyp hwin hnew hseg hpeer hnone => ?first,
      fun htyp y hwin hnew hseg hpeer hy hsegs hseen hopen => ?seen, fun htyp hpeer => ?decidePeer, fun htyp hleader => ?decideLeader,
      fun htyp hfar => ?ack⟩⟩
    · rw [State.cfxIn_of_other_run hup hread ht hother, State.cfxIn_of_other_run hup hread ht hother]
      exact ⟨rfl, rfl⟩
    case later => rw [State.cfxIn_of_run hup hread ht hrun hsite hgate htyp, State.keepSegment_of_later hlate]
    case first =>
      have hfind : (s.co k).far.inStreams.find? (h.inStream false) = none := by
        refine List.find?_eq_none.mpr (fun y hy hsame => ?_)
        simp only [CfxHead.inStream, Bool.and_eq_true, decide_eq_true_eq] at hsame
        obtain ⟨⟨hround, hsite⟩, hparcel⟩ := hsame
        exact absurd (hnone y hy hround hsite) (by simp [hparcel])
      rw [State.cfxIn_of_run hup hread ht hrun hsite hgate htyp, State.keepSegment_of_first hwin hnew hseg hpeer hfind]
      rfl
    case seen => rw [State.cfxIn_of_run hup hread ht hrun hsite hgate htyp, State.keepSegment_of_seen hwin hnew hseg hpeer hy hsegs hseen hopen]
    case decidePeer => rw [State.cfxIn_of_run hup hread ht hrun hsite hgate htyp, State.keepDecide, if_neg hpeer]
    case decideLeader => rw [State.cfxIn_of_run hup hread ht hrun hsite hgate htyp, State.keepDecide, if_pos hleader]
    case ack =>
      rw [State.ackIn_of_run hup hread ht hrun hsite hgate htyp hfar]
      rfl
  case timers =>
    exact ⟨fun hdue => congrArg Host.Outcome.next (State.ackTimer_of_due ht hdue),
      fun hearly => congrArg Host.Outcome.next (State.ackTimer_of_early ht hearly),
      fun site seg hsite => congrArg Host.Outcome.next (State.retransmit_of_site ht hsite seg)⟩
  case send =>
    exact ⟨fun hshare => State.cfxSend_of_no_share hp hshare d, fun hup hshare => State.cfxSend_of_share hp hup hshare d⟩

end Sys2Proof.Machine
end
